-- ==== Sys2Proof/Word.lean ====
section
/-! DEFINITION. The machine words of the part (R10: every register is 32 bits wide), the sparse map in which the model
keeps everything that the spec addresses by a number, and the vocabulary of the register conventions (R14). -/

namespace Sys2Proof

/-- A device register (R10). -/
abbrev Word := BitVec 32

/-- A byte of memory or of a frame. -/
abbrev Byte := BitVec 8

/-- A sparse map by number: pairs with rising keys; a key that is not listed has the default that its reader names. -/
abbrev SMap (α : Type) := List (Nat × α)

/-- A field of a register, bits hi:lo of its field table. -/
structure Fld where
  hi : Nat
  lo : Nat
  deriving DecidableEq, Repr, Inhabited

/-- The width of a field in bits. -/
def Fld.width (f : Fld) : Nat := f.hi + 1 - f.lo

/-- The access codes of R14. -/
inductive Acc
  | rw | ro | wo | w1c | w1s | rc | rwl | rwd
  deriving DecidableEq, Repr, Inhabited

/-- One row of a register's field table (a reserved row is `ro` and reads 0, R12). -/
structure FieldDesc where
  hi : Nat
  lo : Nat
  acc : Acc
  deriving DecidableEq, Repr, Inhabited

/-- One header of a register: the offset of its first instance, the (count, stride) of each index of its header from the
outermost in, the reset value and the field table. -/
structure RegDesc where
  base : Nat
  dims : List (Nat × Nat)
  reset : Word
  fields : List FieldDesc
  deriving DecidableEq, Repr, Inhabited

end Sys2Proof
end

