-- ==== Sys2Proof/Syntax.lean ====
section
/-! DEFINITION. The commands of the block: one constructor of `Instr` per row of spec/opcode_table.json, with what comes
from outside the device (who acts, the register and value, a frame, a descriptor, a sampled level) as its operands. -/
namespace Sys2Proof

/-- The masters of register and memory accesses (R53, KIND/MASTER of SYS_ACCESS_ADDR). -/
inductive Master
  | core (k : Fin 16)
  | host
  | debug
  | boot
  deriving DecidableEq, Repr, Inhabited

/-- The number of a master in SYS_ACCESS_ADDR.MASTER. -/
def Master.num : Master → Nat
  | .core k => k.val
  | .host => 16
  | .debug => 17
  | .boot => 18

/-- A submission-ring descriptor (R141). -/
structure Desc where
  opcode : Nat
  flags : Nat
  tag : Nat
  length : Nat
  hostAddr : Nat
  devAddr : Nat
  param0 : Nat
  param1 : Nat
  deriving DecidableEq, Repr, Inhabited

/-- How a read of host memory ends (HOST_READ_ERR of R148, FETCH_ERR of R162). -/
inductive HostRead (α : Type)
  | data (a : α)
  | error
  deriving DecidableEq, Repr, Inhabited

/-- An Ethernet frame on a port of the switch: addresses, an 802.1Q tag (PCP, VLAN ID), EtherType, what follows it, and
whether its FCS is correct. -/
structure EthFrame where
  dst : Nat
  src : Nat
  tag : Option Nat
  etype : Nat
  body : List Byte
  fcsOk : Bool
  deriving DecidableEq, Repr, Inhabited

/-- An IEEE 1588 message (R185): `udp` when it comes by UDP over IPv4; `corr` its correctionField in 2^-16 ns; clock, port and
seq of its sender; ts its timestamp in whole ns; the requesting port of a response; `raw` the frame it came in. -/
structure PtpMsg where
  udp : Bool
  sdo : Nat
  domain : Nat
  twoStep : Bool
  corr : Int
  clock : Nat
  port : Nat
  seq : Nat
  ts : Nat
  reqClock : Nat
  reqPort : Nat
  raw : List Byte
  deriving DecidableEq, Repr, Inhabited

/-- A received Celivo frame (R189): the result of the FCS check, the EtherType, the header and what follows it. A frame whose CLASS is
none of R190's, and a SETPOINT, has no row of its own: it comes with any of the commands that receive a Celivo frame. -/
structure CelFrame where
  /-- the source MAC address -/
  mac : Nat
  fcsOk : Bool
  etype : Nat
  version : Nat
  cls : Nat
  flags : Nat
  srcId : Nat
  hier : Nat
  seq : Nat
  tickLo : Nat
  len : Nat
  epoch : Nat
  payload : List Byte
  deriving DecidableEq, Repr, Inhabited

/-- CFG_FSTATE_x.STATE. -/
inductive FnState
  | off | ready | armed | running | stopping | faulted
  deriving DecidableEq, Repr, Inhabited

/-- What CFG_FSTATE_x holds of function x. -/
structure Fn where
  state : FnState := .off
  included : Bool := false
  restart : Bool := false
  rejected : Bool := false
  fault : Nat := 0
  deriving DecidableEq, Repr, Inhabited

/-- A pending update of a bar (R236). -/
structure BarUpd where
  next : Bool
  at_ : Int
  offset : Int
  stretch : Int
  deriving DecidableEq, Repr, Inhabited

/-- One committed quantity of a STATE frame or of the shadow's own record of a tick (R498): function states and latches are
discrete, the rest continuous. The format of the frames is internal to the part; this is what they carry. -/
inductive TwnItem
  | fn (x : Nat) (f : Fn)
  /-- integrator, derivative, limited set-point, prediction of a slot -/
  | slot (s : Nat) (i dd rlim yhat : Word)
  /-- position and velocity of a generator -/
  | gen (m : Nat) (p v : Int)
  /-- overshoot latch, HELD and the fault reaction of a generator -/
  | genMode (m : Nat) (latch held : Bool) (fault : Option Nat)
  /-- the source constant of a channel -/
  | chan (c : Nat) (konst : Int)
  /-- index and pending update of a bar -/
  | bar (b : Nat) (k : Nat) (upd : Option BarUpd)
  deriving DecidableEq, Repr

/-- What a HELLO reports (R497). -/
structure TwnHello where
  role : Nat
  token : Nat
  dev : Nat
  image : Nat
  cfg : Nat
  health : Nat
  seqs : List Nat
  deriving DecidableEq, Repr, Inhabited

/-- A timer (R430): `st` is 0 after a reset of its state, 1 after a warm start, 2 once it was evaluated. -/
structure ScnTmr where
  el : Nat := 0
  run : Bool := false
  q : Bool := false
  imem : Bool := false
  tLast : Nat := 0
  typ : Nat := 0
  st : Nat := 0
  deriving DecidableEq, Repr, Inhabited

/-- A counter (R431): `seen` once it was evaluated. -/
structure ScnCtr where
  count : Int := 0
  done : Bool := false
  cmem : Bool := false
  seen : Bool := false
  deriving DecidableEq, Repr, Inhabited

/-- What a channel of the safety island samples at an evaluation (R468): the contacts INkA and INkB and the readbacks RBHSk and
RBLSk by bit k, the SAF_SEAL levels and SAF_TAMPER. -/
structure SafSample where
  a : Nat
  b : Nat
  rbhs : Nat
  rbls : Nat
  sealLv : Nat
  tamper : Bool
  deriving DecidableEq, Repr, Inhabited

/-- The scan areas of a SYNC frame: M, D, the timers and the counters. -/
structure TwnScan where
  m : SMap Word
  dw : SMap Word
  tmrs : SMap ScnTmr
  ctrs : SMap ScnCtr
  deriving DecidableEq, Repr

/-- What a SYNC frame carries (R503): committed quantities and scan areas. -/
structure TwnBulk where
  items : List TwnItem
  scan : Option TwnScan
  /-- the transfer is complete with this frame -/
  final : Bool
  deriving DecidableEq, Repr

/-- What the ECC of the addressed SRAM finds at a read. -/
inductive Ecc
  | good | single | double
  deriving DecidableEq, Repr, Inhabited

/-- What a master asks for: a read of n bytes or a write. -/
inductive MemReq
  | read (n : Nat)
  | write (bytes : List Byte)
  deriving DecidableEq, Repr, Inhabited

/-- How many bytes an access covers. -/
def MemReq.len : MemReq → Nat
  | .read n => n
  | .write bs => bs.length

/-- The request that a SAR conversion serves (R351). -/
inductive SarKind
  | tick | slot | pwm | req | bg
  deriving DecidableEq, Repr, Inhabited

/-- What an access of the host goes to: its address map (BAR0, for the other masters their own), BAR2, or the configuration space. -/
inductive HostWindow
  | map | bar2 | config
  deriving DecidableEq, Repr, Inhabited

/-- Who makes a register access, and whether it falls on the clock of the command before it (R16, R37; log entry 4). -/
structure Accessor where
  m : Master
  same : Bool
  deriving DecidableEq, Repr, Inhabited

/-- What a memory access meets: what the ECC of the words read finds (R48); for the host, the window that the address lies in; what
outside drives on MFP pads at that moment, where it has changed (R83): the pin, its level or none, the TB ns since which. -/
structure AccessMeets where
  ecc : Ecc
  win : HostWindow
  pads : List (Nat × Option Bool × Nat)
  deriving DecidableEq, Repr, Inhabited

/-- What an engine's reads of its own memory meet: what reads with an uncorrectable error, and how many single-bit errors are
corrected (R48). -/
structure EccSeen (α : Type) where
  bad : α
  corr : Nat
  deriving DecidableEq, Repr, Inhabited

/-- What the COMPUTE phase meets: the loop slots whose state reads with an uncorrectable error (R342), single-bit errors corrected (R48),
and the trace units whose records of this tick the data plane does not write before the next COMMIT instant (R344). -/
structure TickMeets where
  bad : List (Fin 1024)
  corr : Nat
  late : List (Fin 16)
  deriving DecidableEq, Repr, Inhabited

/-- A power-on reset: the level at BOOTSEL, and whether PORST_N is still low or a rail out of tolerance (R63, R70). -/
structure PorstInput where
  bootsel : Fin 4
  held : Bool
  deriving DecidableEq, Repr, Inhabited

/-- What the host sets in the configuration space: Bus Master Enable, D3hot, the codes of Max Payload Size (128 B, 256 B) and Max Read
Request Size (128 B to 512 B) (R124, R130). -/
structure PciControl where
  bme : Bool
  d3hot : Bool
  mps : Fin 2
  mrrs : Fin 3
  deriving DecidableEq, Repr, Inhabited

/-- The list of a REG_READ_LIST as host memory gives it, and what the ECC of the registers read finds (R142, R48). -/
structure ListRead where
  list : HostRead (List Byte)
  ecc : Ecc
  deriving DecidableEq, Repr, Inhabited

/-- When levels at input pads begin, in TB ns, and for how long they stay (R81, R245). -/
structure InputTime where
  t : Nat
  hold : Nat
  deriving DecidableEq, Repr, Inhabited

/-- The codes of speed and width of the PCI Express link (R124). -/
structure LinkRate where
  speed : Fin 8
  width : Fin 16
  deriving DecidableEq, Repr, Inhabited

/-- The commands of the block: what its masters, its pins, its links and its host send it, and the events that come at an instant.
`m` is the acting master, `v` the word written, `t` the TB ns of an event from outside, `acc` whether the host accepts the
endpoint's writes meanwhile. -/
inductive Instr
  /-- REGISTER_WRITE (R14): `full`: all four bytes of the register are written. -/
  | registerWrite (x : Accessor) (off : Nat) (v : Word) (full : Bool)
  /-- READ_CLEAR (R14). -/
  | readClear (x : Accessor) (off : Nat)
  /-- LOW_WORD_READ (R35). -/
  | lowWordRead (m : Master) (off : Nat)
  /-- SYS_SYNC_READ (R54): every earlier write has been accepted, since commands are taken in order. -/
  | sysSyncRead (m : Master)
  /-- MEMORY_ACCESS (R47). -/
  | memoryAccess (m : Master) (addr : Nat) (q : MemReq) (x : AccessMeets)
  /-- FENCE_INSTRUCTION (R55): commands take effect one after the other, so the order that the fence asks for holds already.
  -/
  | fenceInstruction (k : Fin 16) (pred : Nat) (succ : Nat)
  /-- FENCE_TSO (R56). -/
  | fenceTso (k : Fin 16)
  /-- FENCE_I (R56): no row of the table fetches an instruction. -/
  | fenceI (k : Fin 16)
  /-- TICK_START (R26). -/
  | tickStart
  /-- COMPUTE_START (R28). -/
  | computeStart (x : TickMeets)
  /-- COMMIT_INSTANT (R32). -/
  | commitInstant
  /-- MFP_PIN_WRITE (R80). -/
  | mfpPinWrite (m : Master) (n : Fin 288) (v : Word)
  /-- VDDIO_LEVEL_CHANGE (R527): `mv`: the voltage in mV at which VDDIO_Bb has stood for 1 µs at TB ns `t`. -/
  | vddioLevelChange (b : Fin 9) (mv : Nat) (t : Nat)
  /-- PERST_N_ASSERT (R65). -/
  | perstNAssert (t : Nat)
  /-- POWER_ON_RESET (R88): `supply`: the reset came from a supply supervisor, not from PORST_N. Where it is not held, the device leaves reset
  with the BOOTSEL sampled then. -/
  | powerOnReset (x : PorstInput) (supply : Bool)
  /-- SUPPLY_SUPERVISOR_TRIP (R528). -/
  | supplySupervisorTrip (x : PorstInput)
  /-- RESET_PIN (R88). -/
  | resetPin (t : Nat)
  /-- COLD (R93). -/
  | cold (m : Master) (key : Fin 65536)
  /-- WARM (R93). -/
  | warm (m : Master) (key : Fin 65536)
  /-- SOFTWARE_RESET_START (R93). -/
  | softwareResetStart
  /-- OSCILLATOR_LOCK (R91): `lfxo`: LFXO periods since the coarse time keeper was last told. -/
  | oscillatorLock (lfxo : Nat)
  /-- UNIT_READY (R94). -/
  | unitReady (bit : Fin 23) (passed : Bool) (t : Nat)
  /-- ENABLE (R98). -/
  | enable (m : Master) (x : Nat)
  /-- DISABLE (R98). -/
  | disable (m : Master) (x : Nat)
  /-- CLEAR_FAULT (R98). -/
  | clearFault (m : Master) (x : Nat)
  /-- LOAD (R107). -/
  | load (m : Master)
  /-- ARM (R113). -/
  | arm (m : Master)
  /-- DISARM (R114). -/
  | disarm (m : Master)
  /-- DISARM_NOW (R115). -/
  | disarmNow (m : Master)
  /-- STORE (R110). -/
  | store (m : Master)
  /-- LOAD_MRAM (R108). -/
  | loadMram (m : Master)
  /-- LOAD_QSPI (R108). -/
  | loadQspi (m : Master)
  /-- ERASE_STORE (R110). -/
  | eraseStore (m : Master)
  /-- DRAFT_SYNC (R122). -/
  | draftSync (m : Master)
  /-- IMAGE_LOAD_END (R107). -/
  | imageLoadEnd
  /-- ARM_CHECKS_END (R113). -/
  | armChecksEnd
  /-- STORE_COMPLETE (R110). -/
  | storeComplete
  /-- ERASE_STORE_COMPLETE (R110). -/
  | eraseStoreComplete
  /-- DRAFT_SYNC_COMPLETE (R122). -/
  | draftSyncComplete
  /-- BOOT_ACTION (R108). -/
  | bootAction
  /-- REQUEST (R117). -/
  | request (m : Master) (v : Word)
  /-- SWAP_CANCEL (R121). -/
  | swapCancel (m : Master) (v : Word)
  /-- SWAP_CHECKS_END (R117). -/
  | swapChecksEnd
  /-- SWAP_TIMEOUT (R119). -/
  | swapTimeout
  /-- FLR (R129). -/
  | flr
  /-- LINK_LOST (R129). -/
  | linkLost (t : Nat)
  /-- BUS_MASTER_ENABLE_CHANGE (R124, R130): with MSI-X Enable and Function Mask. -/
  | busMasterEnableChange (x : PciControl) (enable : Bool) (fnMask : Bool) (acc : Bool)
  /-- SQ_TAIL (R136). -/
  | sqTail (r : Fin 64) (v : Word) (acc : Bool)
  /-- CQ_HEAD (R134). -/
  | cqHead (r : Fin 64) (v : Word) (acc : Bool)
  /-- DESCRIPTOR_FETCH (R138). -/
  | descriptorFetch (r : Fin 64) (x : HostRead (List Byte)) (acc : Bool)
  /-- NOP (R142). -/
  | nop (r : Fin 64) (acc : Bool)
  /-- REG_WRITE_LIST (R143). -/
  | regWriteList (r : Fin 64) (x : HostRead (List Byte)) (acc : Bool)
  /-- REG_READ_LIST (R142). -/
  | regReadList (r : Fin 64) (x : ListRead) (acc : Bool)
  /-- MEM_WRITE (R144). -/
  | memWrite (r : Fin 64) (x : HostRead (List Byte)) (acc : Bool)
  /-- MEM_READ (R144). -/
  | memRead (r : Fin 64) (ecc : Ecc) (acc : Bool)
  /-- FENCE (R153). -/
  | fence (r : Fin 64) (acc : Bool)
  /-- CFG_CMD (R145). -/
  | cfgCmd (r : Fin 64) (acc : Bool)
  /-- WORK_SUBMIT (R146). -/
  | workSubmit (r : Fin 64) (x : HostRead (List Byte)) (acc : Bool)
  /-- RX_BUFFER (R156). -/
  | rxBuffer (r : Fin 64) (acc : Bool)
  /-- ETH_TX (R142). -/
  | ethTx (r : Fin 64) (x : HostRead (List Byte)) (acc : Bool)
  /-- PARTIAL_BUFFER_FLUSH (R156). -/
  | partialBufferFlush (r : Fin 64) (acc : Bool)
  /-- MGMT_FRAME_RECEIVE (R158). -/
  | mgmtFrameReceive (bytes : List Byte) (acc : Bool) (t : Nat)
  /-- COALESCING_TIMEOUT (R159). -/
  | coalescingTimeout (r : Fin 64)
  /-- MSIX_VECTOR_UNMASK (R160). -/
  | msixVectorUnmask (m : Master) (n : Fin 256)
  /-- RING_ENABLE (R162). -/
  | ringEnable (m : Master) (r : Fin 64) (acc : Bool)
  /-- RING_DISABLE (R162). -/
  | ringDisable (m : Master) (r : Fin 64) (acc : Bool)
  /-- RING_RESUME (R164). -/
  | ringResume (m : Master) (r : Fin 64) (acc : Bool)
  /-- RING_RESET (R162). -/
  | ringReset (m : Master) (r : Fin 64) (acc : Bool)
  /-- SQ_HEAD_WRITE (R165). -/
  | sqHeadWrite (m : Master) (r : Fin 64) (v : Word)
  /-- RING_CONFIG_WRITE (R166). -/
  | ringConfigWrite (m : Master) (off : Nat) (v : Word)
  /-- STEP (R170). -/
  | step (m : Master) (v : Word)
  /-- TICK_PERIOD_WRITE (R175). -/
  | tickPeriodWrite (m : Master) (v : Word)
  /-- ADDEND_WRITE (R168). -/
  | addendWrite (m : Master) (high : Bool) (v : Word)
  /-- SYNC (R171). -/
  | sync (p : Fin 3) (msg : PtpMsg) (t : Nat) (acc : Bool)
  /-- SYNC_TIMEOUT (R173). -/
  | syncTimeout
  /-- FOLLOW_UP (R185). -/
  | followUp (p : Fin 3) (msg : PtpMsg) (t : Nat) (acc : Bool)
  /-- DELAY_REQ (R185). -/
  | delayReq (p : Fin 3) (msg : PtpMsg) (t : Nat) (acc : Bool)
  /-- DELAY_RESP (R185). -/
  | delayResp (p : Fin 3) (msg : PtpMsg) (t : Nat) (acc : Bool)
  /-- PDELAY_REQ (R187). -/
  | pdelayReq (p : Fin 3) (msg : PtpMsg) (t : Nat) (acc : Bool)
  /-- PDELAY_RESP (R185). -/
  | pdelayResp (p : Fin 3) (msg : PtpMsg) (t : Nat) (acc : Bool)
  /-- PDELAY_RESP_FOLLOW_UP (R185). -/
  | pdelayRespFollowUp (p : Fin 3) (msg : PtpMsg) (t : Nat) (acc : Bool)
  /-- SYNC_INTERVAL_EXPIRY (R185). -/
  | syncIntervalExpiry (p : Fin 3) (t : Nat)
  /-- PDELAY_INTERVAL_EXPIRY (R185). -/
  | pdelayIntervalExpiry (p : Fin 3) (t : Nat)
  /-- FRAME_INGRESS (R180). -/
  | frameIngress (p : Fin 3) (f : EthFrame) (t : Nat)
  /-- MAC_AGEING (R180). -/
  | macAgeing
  /-- GATE_ENTRY_CHANGE (R183). -/
  | gateEntryChange (p : Fin 3)
  /-- MASTER_POS (R193). -/
  | masterPos (f : CelFrame) (t : Nat)
  /-- LINE_STATE (R193). -/
  | lineState (f : CelFrame) (t : Nat)
  /-- STOP_REQ (R198). -/
  | stopReq (f : CelFrame) (t : Nat)
  /-- RELEASE (R200). -/
  | release (f : CelFrame) (t : Nat)
  /-- DRIVE_STATUS (R193). -/
  | driveStatus (f : CelFrame) (t : Nat)
  /-- JOIN_REQ (R206). -/
  | joinReq (f : CelFrame) (t : Nat)
  /-- JOIN_OFFER (R206). -/
  | joinOffer (f : CelFrame) (t : Nat)
  /-- JOIN_ACK (R206). -/
  | joinAck (f : CelFrame) (t : Nat)
  /-- STATION_LOST (R204). -/
  | stationLost (w : Fin 64)
  /-- ISSUE (R199). -/
  | issue (m : Master) (v : Word)
  /-- RELEASE_OWN (R200). -/
  | releaseOwn (m : Master) (v : Word)
  /-- FORCE_RELEASE_ALL (R200). -/
  | forceReleaseAll (m : Master) (v : Word)
  /-- STOP_REQ_REPEAT (R199). -/
  | stopReqRepeat (reqId : Nat)
  /-- DRIVE_LOST (R203). -/
  | driveLost (i : Fin 64)
  /-- JOIN (R206). -/
  | join (m : Master) (v : Word)
  /-- FORCE_JOIN (R207). -/
  | forceJoin (m : Master) (v : Word)
  /-- LEAVE (R205). -/
  | leave (m : Master) (v : Word)
  /-- AUTOJOIN (R206). -/
  | autojoin
  /-- JOIN_REQ_TIMEOUT (R207). -/
  | joinReqTimeout
  /-- JOIN_ACK_TIMEOUT (R206). -/
  | joinAckTimeout (joiner : Nat)
  /-- JOIN_AT_REACHED (R206). -/
  | joinAtReached
  /-- ENCODER_STANDSTILL (R214): `b`: of the encoder of source B. -/
  | encoderStandstill (c : Fin 4) (b : Bool)
  /-- USE_A (R220). -/
  | useA (m : Master) (c : Fin 4)
  /-- USE_B (R220). -/
  | useB (m : Master) (c : Fin 4)
  /-- POSITION_EVENT_REACHED (R225). -/
  | positionEventReached (c : Fin 4) (t : Nat)
  /-- PRINT_BAR_FIRE (R232). -/
  | printBarFire (b : Fin 32) (t : Nat)
  /-- FIRE_PULSE_END (R233). -/
  | firePulseEnd (b : Fin 32)
  /-- APPLY (R236). -/
  | apply (m : Master) (v : Word)
  /-- CANCEL (R237). -/
  | cancel (m : Master) (v : Word)
  /-- DELAY_LINE_CALIBRATION (R244): `ok`: no tap lay outside 125 ps ± 20 ps. -/
  | delayLineCalibration (ok : Bool)
  /-- QUADRATURE_EDGE (R245, R248): `a`, `b`: the levels at the pads of A and B. -/
  | quadratureEdge (k : Fin 48) (a : Bool) (b : Bool) (x : InputTime)
  /-- HALL_TRANSITION (R252): the levels at the pads of U, V and W. -/
  | hallTransition (k : Fin 48) (uvw : Fin 8) (x : InputTime)
  /-- INDEX_QUALIFIED (R254): `z`: the level at the pad of Z. -/
  | indexQualified (k : Fin 48) (z : Bool) (x : InputTime)
  /-- ARM_HOME (R255). -/
  | armHome (m : Master) (k : Fin 48)
  /-- CANCEL_HOME (R255). -/
  | cancelHome (m : Master) (k : Fin 48)
  /-- SET_COUNT (R255). -/
  | setCount (m : Master) (k : Fin 48)
  /-- SSI_FRAME_START (R259). -/
  | ssiFrameStart (k : Fin 48) (dataHigh : Bool)
  /-- SSI_FRAME_END (R260): `g` the position bits, `ext` the extra bits, `endHigh` the level at the end check. -/
  | ssiFrameEnd (k : Fin 48) (g : Nat) (ext : Nat) (endHigh : Bool)
  /-- EMU_STEP (R265). -/
  | emuStep (e : Fin 8)
  /-- CONTINUE (R286). -/
  | continueMotion (m : Master) (g : Fin 64)
  /-- HALT (R286). -/
  | halt (m : Master) (g : Fin 64)
  /-- SET_POS (R286). -/
  | setPos (m : Master) (g : Fin 64)
  /-- STREAM_STALE (R283). -/
  | streamStale (g : Fin 64)
  /-- STEP_PULSE (R291). -/
  | stepPulse (g : Fin 64)
  /-- OFF_PHASE_END (R303). -/
  | offPhaseEnd (j : Fin 32) (coilB : Bool)
  /-- SET_EPOS (R296). -/
  | setEpos (m : Master) (j : Fin 32) (v : Word)
  /-- PWM_RELOAD (R310). -/
  | pwmReload (p : Fin 48)
  /-- CMP_WRITE (R310). -/
  | cmpWrite (m : Master) (p : Fin 48) (v : Word)
  /-- PWM_FAULT_INPUT (R313): the level at the pad of PWM_FLTg. -/
  | pwmFaultInput (g : Fin 8) (level : Bool) (x : InputTime)
  /-- RESET_SUP (R339). -/
  | resetSup (m : Master) (sl : Fin 1024) (v : Word)
  /-- TRIGGER (R345). -/
  | trigger (m : Master) (u : Fin 16) (v : Word)
  /-- REARM (R345). -/
  | rearm (m : Master) (u : Fin 16) (v : Word)
  /-- TRACE_CONFIG_WRITE (R345). -/
  | traceConfigWrite (m : Master) (off : Nat) (v : Word)
  /-- SAR_CONVERSION_START (R351). -/
  | sarConversionStart (c : Fin 16) (kind : SarKind)
  /-- SAR_CONVERSION_COMPLETE (R358). -/
  | sarConversionComplete (c : Fin 16) (vin : Int) (vref : Nat) (acc : Bool)
  /-- PWM_TRIGGER_INSTANT (R354). -/
  | pwmTriggerInstant (c : Fin 16) (e : Fin 4)
  /-- START (R357). -/
  | start (m : Master) (c : Fin 16) (v : Word)
  /-- SD_RESULT (R362). -/
  | sdResult (k : Fin 8) (vd : Int) (vref : Nat) (acc : Bool)
  /-- REFERENCE_ERROR (R363). -/
  | referenceError (g : Fin 5) (t : Nat)
  /-- REFERENCE_RECOVERY (R363). -/
  | referenceRecovery (g : Fin 5) (t : Nat)
  /-- TEST_DAC_WRITE (R365). -/
  | testDacWrite (m : Master) (g : Fin 5) (v : Word)
  /-- CAL (R366). -/
  | cal (m : Master) (v : Word)
  /-- CALIBRATION_COMPLETE (R366). -/
  | calibrationComplete
  /-- WINDOW_BOUND (R375): `t`: the instant of a position-domain bound; a time-domain bound comes at its own. -/
  | windowBound (u : Fin 8) (w : Fin 2) (t : Nat) (acc : Bool)
  /-- ACQ_TIMER_EXPIRY (R379). -/
  | acqTimerExpiry (u : Fin 8) (w : Fin 2) (acc : Bool)
  /-- FORCE (R377). -/
  | force (m : Master) (u : Fin 8) (acc : Bool)
  /-- ACQ_REARM (R383). -/
  | acqRearm (m : Master) (u : Fin 8) (acc : Bool)
  /-- RUN (R385). -/
  | run (m : Master) (u : Fin 8) (acc : Bool)
  /-- STOP (R385). -/
  | stop (m : Master) (u : Fin 8) (acc : Bool)
  /-- RPTR_WRITE (R384). -/
  | rptrWrite (m : Master) (u : Fin 8) (v : Word)
  /-- MACHINE_TIMER_INTERRUPT (R390). -/
  | machineTimerInterrupt (k : Fin 16)
  /-- MACHINE_SOFTWARE_INTERRUPT (R390). -/
  | machineSoftwareInterrupt (m : Master) (k : Fin 16) (v : Word)
  /-- CORE_RELEASE (R391). -/
  | coreRelease (m : Master) (k : Fin 16) (acc : Bool)
  /-- CORE_HALT (R391). -/
  | coreHalt (m : Master) (k : Fin 16) (acc : Bool)
  /-- ABORT_ITEM (R406). -/
  | abortItem (m : Master) (k : Fin 16) (acc : Bool)
  /-- LOCKSTEP_MISMATCH (R392). -/
  | lockstepMismatch (j : Fin 8) (t : Nat) (acc : Bool)
  /-- SUBMIT (R394). -/
  | submit (m : Master) (k : Fin 16) (v : Word) (acc : Bool)
  /-- SCH_CANCEL (R396). -/
  | schCancel (m : Master) (v : Word) (acc : Bool)
  /-- OPERAND_POST (R398): the post of a source of R397. -/
  | operandPost (key : Fin 65536) (v : Word)
  /-- POST_KEY (R397). -/
  | postKey (m : Master) (v : Word)
  /-- OPERAND_AGE_EXPIRY (R398). -/
  | operandAgeExpiry
  /-- RELEASE_POINT (R400). -/
  | releasePoint (slot : Fin 4096)
  /-- DISPATCH (R401): `x`: the slots whose items, operands or release lists read with an uncorrectable error (R406). -/
  | dispatch (x : EccSeen (List (Fin 4096))) (acc : Bool)
  /-- CUR_READ (R403). -/
  | curRead (m : Master) (k : Fin 16)
  /-- DONE (R403). -/
  | done (m : Master) (k : Fin 16) (v : Word) (acc : Bool)
  /-- RELQ_DATA_WRITE (R404). -/
  | relqDataWrite (m : Master) (k : Fin 16) (v : Word)
  /-- FLOW_RESUME (R407). -/
  | flowResume (m : Master) (f : Fin 256) (v : Word) (acc : Bool)
  /-- FLOW_FLUSH (R407). -/
  | flowFlush (m : Master) (f : Fin 256) (v : Word) (acc : Bool)
  /-- BUDGET_WINDOW_END (R412). -/
  | budgetWindowEnd (acc : Bool)
  /-- SCAN_CYCLE_START (R420): `x`: does scan memory read with an uncorrectable error in the cycle (R435). -/
  | scanCycleStart (x : EccSeen Bool)
  /-- SNAPSHOT_WRITE_COMPLETE (R434). -/
  | snapshotWriteComplete
  /-- FORCE_WRITE (R436). -/
  | forceWrite (m : Master) (k : Fin 64) (sel : Bool) (v : Word)
  /-- SCAN_WINDOW_WRITE (R424). -/
  | scanWindowWrite (m : Master) (off : Nat) (v : Word)
  /-- FIELD_LINK_FRAME_START (R446). -/
  | fieldLinkFrameStart (p : Fin 8)
  /-- UPSTREAM_BLOCK (R445): `t`: the TB ns of its first start bit. -/
  | upstreamBlock (p : Fin 8) (t : Nat) (framed : Bool) (bytes : List Byte)
  /-- FRAME_CLOSE (R448). -/
  | frameClose (p : Fin 8)
  /-- LINE_BREAK (R442). -/
  | lineBreak (p : Fin 8) (t : Nat)
  /-- CLEAR (R459). -/
  | clear (m : Master) (p : Fin 8) (v : Word)
  /-- RESEND (R455). -/
  | resend (m : Master) (p : Fin 8) (v : Word)
  /-- CAN_CTRL_WRITE (R462). -/
  | canCtrlWrite (m : Master) (k : Fin 4) (v : Word)
  /-- CAN_FRAME_RECEIVE (R465): `sof`: the TB ns of its start of frame at the pin. -/
  | canFrameReceive (k : Fin 4) (id : Nat) (dlc : Fin 16) (flags : Fin 8) (sof : Nat) (data : List Byte) (t : Nat) (acc : Bool)
  /-- CAN_START_OF_FRAME (R463). -/
  | canStartOfFrame (k : Fin 4) (t : Nat)
  /-- TX_OK (R463). -/
  | txOk (k : Fin 4) (tdcv : Fin 128) (esi : Bool) (t : Nat) (acc : Bool)
  /-- CAN_ERROR_FRAME (R463): `data`: in the data phase; `tx`: this controller transmitted; `first`: a dominant bit after
  the own error flag. -/
  | canErrorFrame (k : Fin 4) (code : Fin 8) (data : Bool) (tx : Bool) (first : Bool) (t : Nat)
  /-- BUS_OFF (R467). -/
  | busOff (k : Fin 4) (t : Nat)
  /-- BUS_OFF_RECOVERY_END (R467). -/
  | busOffRecoveryEnd (k : Fin 4) (t : Nat)
  /-- REQ (R463). -/
  | req (m : Master) (k : Fin 4) (b : Fin 3)
  /-- CAN_CANCEL (R464). -/
  | canCancel (m : Master) (k : Fin 4) (b : Fin 3)
  /-- BOR (R467). -/
  | bor (m : Master) (k : Fin 4)
  /-- CHANNEL_A_EVALUATION (R469). -/
  | channelAEvaluation (x : SafSample)
  /-- CHANNEL_B_EVALUATION (R469). -/
  | channelBEvaluation (x : SafSample)
  /-- SQUALL_WINDOW_END (R488). -/
  | squallWindowEnd
  /-- STANDSTILL_HOLD_END (R488). -/
  | standstillHoldEnd
  /-- OUTPUT_TEST (R484). -/
  | outputTest (k : Fin 8) (pass : Bool)
  /-- SAFETY_SUPPLY_FAULT (R487). -/
  | safetySupplyFault
  /-- CHANNEL_DEAD (R487). -/
  | channelDead (chB : Bool)
  /-- HELLO (R497). -/
  | hello (h : TwnHello)
  /-- STATE (R498). -/
  | state (tick : Nat) (chunk : Nat) (last : Bool) (items : List TwnItem)
  /-- WRITE (R499): `tick`: the tick at whose COMMIT instant the owner applied it. -/
  | write (off : Nat) (v : Word) (tick : Nat)
  /-- FAULT (R500). -/
  | fault (t : Nat)
  /-- HANDOVER_FRAME (R502). -/
  | handoverFrame (tick : Nat) (token : Nat)
  /-- HANDOVER_ACK (R502). -/
  | handoverAck (tick : Nat)
  /-- SYNC_FRAME (R503). -/
  | syncFrame (bulk : TwnBulk)
  /-- SCAN_CRC (R498). -/
  | scanCrc (cycle : Nat) (crc : Nat)
  /-- LANES_LOST (R500). -/
  | lanesLost (t : Nat)
  /-- LANE_LOSS (R497). -/
  | laneLoss (lane : Fin 2) (t : Nat)
  /-- TWN_HANDOVER (R502). -/
  | twnHandover (m : Master)
  /-- RESYNC (R505). -/
  | resync (m : Master)
  /-- PWR_REQUEST (R508). -/
  | pwrRequest (m : Master) (v : Word)
  /-- EXIT (R511). -/
  | exit (m : Master) (v : Word)
  /-- LOW_POWER_ENTRY (R510): `l23`: the link is in L2 or L3. -/
  | lowPowerEntry (l23 : Bool)
  /-- WAKE_IN (R511): `railsOk`: the rails that the exit needs are in range. -/
  | wakeIn (railsOk : Bool) (lfxo : Nat)
  /-- ALARM (R514). -/
  | alarm (railsOk : Bool)
  /-- TEMPERATURE_READING (R517): the eight sensors, in 1/8 °C. -/
  | temperatureReading (ts : List Int)
  /-- THERMAL_SHUTDOWN_RELEASE (R517). -/
  | thermalShutdownRelease (ts : List Int)
  /-- OPERATING_TIME_SAVE (R515). -/
  | operatingTimeSave
  /-- RECORD_WRITE (R520). -/
  | recordWrite (acc : Bool)
  /-- MANUAL (R518). -/
  | manual (m : Master) (v : Word)
  /-- RD_SEQ_WRITE (R522). -/
  | rdSeqWrite (m : Master) (v : Word)
  /-- EVR_CLEAR (R523). -/
  | evrClear (m : Master)
  /-- SET_AUTH (R523). -/
  | setAuth (m : Master)
  /-- ERASE_COMPLETE (R523). -/
  | eraseComplete
  /-- TB_PULSE_EDGE (R177). -/
  | tbPulseEdge (k : Fin 4)
  /-- TB_PULSE_END (R177). -/
  | tbPulseEnd (k : Fin 4)
  /-- CAPTURE_EDGE (R179): the pad of TB_CAPk goes high (`rise`) or low. -/
  | captureEdge (k : Fin 4) (rise : Bool) (x : InputTime)
  /-- TS_HI_READ (R179). -/
  | tsHiRead (m : Master) (k : Fin 4)
  /-- REF_EDGE (R307). -/
  | refEdge (p : Fin 48)
  /-- DEAD_TIME_END (R311). -/
  | deadTimeEnd (p : Fin 48) (outB : Bool)
  /-- LINK_UP (R124, R509): `pm`: the code that HIF_LINK takes; with 0 the link is in L0, else ASPM has taken it to L1, L1.1 or L1.2. -/
  | linkUp (x : LinkRate) (pm : Fin 4)
  /-- PERST_N_DEASSERT (R65). -/
  | perstNDeassert (t : Nat)
  /-- PORT_LINK_CHANGE (R180). -/
  | portLinkChange (p : Fin 3) (up : Bool) (t : Nat)
  /-- SYMBOL_LOCK (R497). -/
  | symbolLock (lane : Fin 2) (t : Nat)
  deriving DecidableEq, Repr, Inhabited

end Sys2Proof
end

