-- ==== Sys2Proof/Machine/Store.lean ====
section
/-! DEFINITION. Reading and writing the sparse maps, the fields of a register (R14) and the byte memory (R44, R47, R49). -/
namespace Sys2Proof.Machine
open Sys2Proof

/-! ### Sparse maps -/

/-- The value a map lists for key `k`. -/
def smGet {α : Type} : SMap α → Nat → Option α
  | [], _ => none
  | (k', a) :: t, k => if k' = k then some a else smGet t k

/-- The map with `a` listed for `k`, in its place by key. -/
def smPut {α : Type} : SMap α → Nat → α → SMap α
  | [], k, a => [(k, a)]
  | (k', a') :: t, k, a =>
    if k' = k then (k, a) :: t
    else if k < k' then (k, a) :: (k', a') :: t
    else (k', a') :: smPut t k a

/-- The map without an entry for `k`. -/
def smDel {α : Type} (m : SMap α) (k : Nat) : SMap α := m.filter (fun p => p.1 != k)

/-- The keys of a map. -/
def smKeys {α : Type} (m : SMap α) : List Nat := m.map (·.1)

/-! ### Fields -/

/-- The number held in bits hi:lo of a register. -/
def fget (w : Word) (f : Fld) : Nat := w.toNat / 2 ^ f.lo % 2 ^ f.width

/-- The register with bits hi:lo holding `n` (modulo the width of the field). -/
def fset (w : Word) (f : Fld) (n : Nat) : Word :=
  BitVec.ofNat 32 (w.toNat % 2 ^ f.lo + n % 2 ^ f.width * 2 ^ f.lo + w.toNat / 2 ^ (f.hi + 1) * 2 ^ (f.hi + 1))

/-- The mask of the bits hi:lo. -/
def fmask (hi lo : Nat) : Word := BitVec.ofNat 32 ((2 ^ (hi + 1 - lo) - 1) * 2 ^ lo)

/-- Bit `i` of a word as a Bool. -/
def bitOf (w : Word) (i : Nat) : Bool := w.getLsbD i

/-- 1 for true, 0 for false: the value of a one-bit field. -/
def b2n (b : Bool) : Nat := if b then 1 else 0

/-- The signed number that an n-bit two's-complement field holds. -/
def sext (bits n : Nat) : Int := if n % 2 ^ bits < 2 ^ (bits - 1) then (n % 2 ^ bits : Int) else (n % 2 ^ bits : Int) - 2 ^ bits

/-- The n-bit two's-complement code of an integer (modulo 2^n). -/
def ofInt (bits : Nat) (z : Int) : Nat := (z % (2 ^ bits : Int)).toNat

/-- x clamped to lo..hi (R10: saturation is written as a function). -/
def clampInt (lo hi x : Int) : Int := if x < lo then lo else if hi < x then hi else x

/-- Saturation to a signed 32-bit integer. -/
def satI32 (x : Int) : Int := clampInt (-2147483648) 2147483647 x

/-- Saturation to a signed 64-bit integer. -/
def satI64 (x : Int) : Int := clampInt (-9223372036854775808) 9223372036854775807 x

/-- n clamped from above. -/
def satNat (top n : Nat) : Nat := if n ≤ top then n else top

/-- A number put into a rising list. -/
def insNat (n : Nat) : List Nat → List Nat
  | [] => [n]
  | a :: t => if n ≤ a then n :: a :: t else a :: insNat n t

/-- The numbers in rising order. -/
def sortNat (l : List Nat) : List Nat := l.foldr insNat []

/-! ### Byte memory -/

/-- Memory: (address, byte) pairs with rising addresses and no zero byte listed; an address that is not listed reads 0
(DESIGN CHOICE for MRAM, which R89 does not initialise: log entry 22). -/
abbrev Memory := List Host.Cell

/-- What an unlisted address reads as: R89 initialises all SRAM to zero; for MRAM log entry 22. -/
def unlisted : Byte := 0#8

/-- The byte at an address. -/
def memRead (m : Memory) (a : Nat) : Byte :=
  match smGet m a with
  | some b => b
  | none => unlisted

/-- The memory with byte `b` at address `a`, in canonical form. -/
def memWrite (m : Memory) (a : Nat) (b : Byte) : Memory :=
  if b = unlisted then smDel m a else smPut m a b

/-- `n` bytes from address `a` on. -/
def memReadN (m : Memory) (a n : Nat) : List Byte := (List.range n).map (fun i => memRead m (a + i))

/-- The memory with the bytes written from address `a` on. -/
def memWriteN (m : Memory) (a : Nat) : List Byte → Memory
  | [] => m
  | b :: t => memWriteN (memWrite m a b) (a + 1) t

/-- The canonical form: addresses strictly rising, no byte equal to what an unlisted address reads as. -/
def Memory.wf : Memory → Bool
  | [] => true
  | [(_, b)] => b != unlisted
  | (a, b) :: (a', b') :: t => (b != unlisted) && decide (a < a') && Memory.wf ((a', b') :: t)

/-- A little-endian 32-bit word from bytes, least significant first (R10). -/
def leNat : List Byte → Nat
  | [] => 0
  | b :: t => b.toNat + 256 * leNat t

/-- The `n` bytes of a number, least significant first. -/
def leBytes : Nat → Nat → List Byte
  | 0, _ => []
  | n + 1, v => BitVec.ofNat 8 v :: leBytes n (v / 256)

/-- The number that big-endian bytes spell (Celivo frames, R189). -/
def beNat (bs : List Byte) : Nat := leNat bs.reverse

/-- The `n` bytes of a number, most significant first. -/
def beBytes (n v : Nat) : List Byte := (leBytes n v).reverse

/-- The 32-bit word at a byte address. -/
def memWord (m : Memory) (a : Nat) : Nat := leNat (memReadN m a 4)

/-- Is the address one of the MRAM window of R49? -/
def isMram (a : Nat) : Bool := decide (0x60000000 ≤ a) && decide (a < 0x60200000)

/-- All SRAM set to zero; MRAM keeps its contents (R88, R89). -/
def memClearSram (m : Memory) : Memory := m.filter (fun c => isMram c.1)

end Sys2Proof.Machine
end

