-- ==== Sys2Proof/Machine/F32.lean ====
section
/-! DEFINITION. Binary32 arithmetic of the spec (R326): each operation rounded to nearest, ties to even, never fused; a subnormal
operand or result is replaced by a zero of the same sign; a comparison with a NaN is false. -/
namespace Sys2Proof.Machine
open Sys2Proof

/-- A binary32 value by its bits. -/
abbrev F32 := Word

def fExp (x : F32) : Nat := x.toNat / 8388608 % 256
def fMan (x : F32) : Nat := x.toNat % 8388608
def fNeg? (x : F32) : Bool := x.getLsbD 31

def fIsNan (x : F32) : Bool := fExp x == 255 && fMan x != 0
def fIsInf (x : F32) : Bool := fExp x == 255 && fMan x == 0
def fIsSub (x : F32) : Bool := fExp x == 0 && fMan x != 0
/-- Zero or subnormal: it acts as a zero. -/
def fIsZero (x : F32) : Bool := fExp x == 0
def fFinite (x : F32) : Bool := fExp x != 255

def fNan : F32 := 0x7FC00000#32
def fZero (neg : Bool) : F32 := if neg then 0x80000000#32 else 0#32
def fInf (neg : Bool) : F32 := if neg then 0xFF800000#32 else 0x7F800000#32
def fOne : F32 := 0x3F800000#32

/-- A subnormal operand as a zero of its sign. -/
def fFlush (x : F32) : F32 := if fIsZero x then fZero (fNeg? x) else x

/-- The exact value of a finite number as mantissa × 2^(exponent − 150). -/
def fMag (x : F32) : Nat := if fIsZero x then 0 else 8388608 + fMan x
def fSgnMag (x : F32) : Int := if fNeg? x then -(fMag x : Int) else fMag x

/-- num × 2^k with k possibly negative, as a quotient. -/
def scaleRat (num den : Nat) (k : Int) : Nat × Nat := if k < 0 then (num, den * 2 ^ (-k).toNat) else (num * 2 ^ k.toNat, den)

/-- The quotient rounded to nearest, ties to even. -/
def roundEven (num den : Nat) : Nat :=
  let q := num / den
  let r := num % den
  if 2 * r < den then q else if den < 2 * r then q + 1 else if q % 2 = 0 then q else q + 1

/-- The binary32 nearest to ±num/den (den > 0), ties to even; a subnormal result is a zero of its sign. -/
def fRound (neg : Bool) (num den : Nat) : F32 :=
  if num = 0 then fZero neg
  else
    -- 2^(l-1) < num/den < 2^(l+1)
    let l : Int := (num.log2 : Int) - den.log2
    let up : Bool := let (a, b) := scaleRat num den (-l); decide (b ≤ a)
    let e0 : Int := (if up then l else l - 1) - 23
    let e : Int := max e0 (-149)
    let (a, b) := scaleRat num den (-e)
    let q := roundEven a b
    let (q, e) := if q = 16777216 then (8388608, e + 1) else (q, e)
    if q < 8388608 then fZero neg
    else if 105 ≤ e then fInf neg
    else BitVec.ofNat 32 ((if neg then 2147483648 else 0) + (e + 150).toNat * 8388608 + (q - 8388608))

/-- The binary32 nearest to a quotient; an exact zero is +0. -/
def fOfRat (num : Int) (den : Nat) : F32 := fRound (decide (num < 0)) num.natAbs den

/-- The binary32 nearest to an integer. -/
def fOfInt (n : Int) : F32 := fOfRat n 1

/-- The binary32 nearest to a 32.32 quantity. -/
def fOfFix (q : Int) : F32 := fOfRat q 4294967296

def fNegate (x : F32) : F32 := x ^^^ 0x80000000#32
def fAbs (x : F32) : F32 := x &&& 0x7FFFFFFF#32

/-- Mantissa sum at the smaller exponent: the exact sum of two finite numbers as n × 2^(e − 150). -/
def sumExact (a b : F32) : Int × Nat :=
  let e := min (fExp a) (fExp b)
  (fSgnMag a * 2 ^ (fExp a - e) + fSgnMag b * 2 ^ (fExp b - e), e)

def fAdd (a b : F32) : F32 :=
  let a := fFlush a
  let b := fFlush b
  if fIsNan a || fIsNan b then fNan
  else if fIsInf a then (if fIsInf b && fNeg? a != fNeg? b then fNan else a)
  else if fIsInf b then b
  else
    if fIsZero a && fIsZero b then fZero (fNeg? a && fNeg? b)
    else if fIsZero a then b
    else if fIsZero b then a
    else
      let (n, e) := sumExact a b
      let (p, q) := scaleRat n.natAbs 1 ((e : Int) - 150)
      if n = 0 then fZero false else fRound (decide (n < 0)) p q

def fSub (a b : F32) : F32 := fAdd a (fNegate b)

def fMul (a b : F32) : F32 :=
  let a := fFlush a
  let b := fFlush b
  let s := fNeg? a != fNeg? b
  if fIsNan a || fIsNan b then fNan
  else if fIsInf a then (if fIsZero b then fNan else fInf s)
  else if fIsInf b then (if fIsZero a then fNan else fInf s)
  else
    let (p, q) := scaleRat (fMag a * fMag b) 1 ((fExp a : Int) + fExp b - 300)
    fRound s p q

def fDiv (a b : F32) : F32 :=
  let a := fFlush a
  let b := fFlush b
  let s := fNeg? a != fNeg? b
  if fIsNan a || fIsNan b then fNan
  else if fIsInf a then (if fIsInf b then fNan else fInf s)
  else if fIsInf b then fZero s
  else if fIsZero b then (if fIsZero a then fNan else fInf s)
  else
    let (p, q) := scaleRat (fMag a) (fMag b) ((fExp a : Int) - fExp b)
    fRound s p q

/-- The integer square root below `2^(bits + 1)`, bit by bit. -/
def isqrtGo (n : Nat) : Nat → Nat → Nat
  | 0, r => let s := r + 1; if s * s ≤ n then s else r
  | k + 1, r => let s := r + 2 ^ (k + 1); isqrtGo n k (if s * s ≤ n then s else r)

/-- The integer square root of n. -/
def isqrt (n : Nat) : Nat := isqrtGo n (n.log2 / 2 + 1) 0

/-- The square root, correctly rounded: the root of m × 2^k with enough bits, and a sticky bit. -/
def fSqrt (a : F32) : F32 :=
  let a := fFlush a
  if fIsNan a then fNan
  else if fIsZero a then a
  else if fNeg? a then fNan
  else if fIsInf a then a
  else
    -- value = mag * 2^(e - 150); make the exponent even and the radicand large
    let e : Int := (fExp a : Int) - 150
    let odd := e % 2 ≠ 0
    let e' := if odd then e - 1 else e
    let m := (if odd then fMag a * 2 else fMag a) * 2 ^ 40
    let r := isqrt m
    let sticky := if r * r = m then 0 else 1
    let (p, q) := scaleRat (r * 2 + sticky) 1 (e' / 2 - 21)
    fRound false p q

/-- The place of a non-NaN number in the order of the reals. -/
def fKey (x : F32) : Int := let m : Int := ((fFlush x).toNat % 2147483648 : Nat); if fNeg? x then -m else m

def fLt (a b : F32) : Bool := !fIsNan a && !fIsNan b && decide (fKey a < fKey b)
def fLe (a b : F32) : Bool := !fIsNan a && !fIsNan b && decide (fKey a ≤ fKey b)
def fGt (a b : F32) : Bool := fLt b a
def fGe (a b : F32) : Bool := fLe b a
def fEq (a b : F32) : Bool := !fIsNan a && !fIsNan b && decide (fKey a = fKey b)
def fNe (a b : F32) : Bool := !fEq a b

/-- clamp(x, lo, hi): lo if x < lo, hi if x > hi, x otherwise. -/
def fClamp (x lo hi : F32) : F32 := if fLt x lo then lo else if fGt x hi then hi else x

/-- min(a, b): b if b < a, a otherwise. -/
def fMin (a b : F32) : F32 := if fLt b a then b else a
/-- −1.0, 0.0 or +1.0; 0.0 for a NaN (DEDUCED, log entry 42). -/
def fSgn (x : F32) : F32 := if fIsNan x || fIsZero x then 0#32 else if fNeg? x then 0xBF800000#32 else fOne

/-- The exact value of a finite number as a quotient; 0 for others. -/
def fRat (x : F32) : Int × Nat :=
  if fIsZero x || !fFinite x then (0, 1)
  else
    let (p, q) := scaleRat (fMag x) 1 ((fExp x : Int) - 150)
    (if fNeg? x then -(p : Int) else p, q)

/-- The value times 2^k, truncated toward zero to an integer; infinities give the given bound. -/
def fTruncScaled (x : F32) (k : Nat) (big : Int) : Int :=
  if fIsInf x then (if fNeg? x then -big else big)
  else let (n, q) := fRat x; Int.tdiv (n * 2 ^ k) q

/-- The value times 2^k rounded to nearest, ties to even; infinities give the given bound, a NaN 0. -/
def fRoundScaled (x : F32) (k : Nat) (big : Int) : Int :=
  if fIsInf x then (if fNeg? x then -big else big)
  else let (n, q) := fRat x
    let r : Int := roundEven (n.natAbs * 2 ^ k) q
    if n < 0 then -r else r

end Sys2Proof.Machine
end

