-- ==== Sys2Proof/Config.lean ====
section
/-! DEFINITION. What one part of the hardware fixes and the spec leaves open. Each constant is opaque: no proof can see a
value of it, so what holds of the model holds for every value. -/
namespace Sys2Proof.Config

/-- The calibrated reset value of NET_PORTp_DLY_RX for p = 0, 1: "calibrated per part" (spec/05, header of the register).
UNVERIFIED value, log entry 20. -/
opaque phyDlyRx : Nat → Word

/-- The calibrated reset value of NET_PORTp_DLY_TX for p = 0, 1. UNVERIFIED value, log entry 20. -/
opaque phyDlyTx : Nat → Word

/-- The values that the spec leaves open although the machine goes on: draw number n of the free values (log entry 21). -/
opaque freeValue : Nat → Word

/-- EVR_SEQ_FIRST and EVR_SEQ_LAST of a store that holds no valid record: the spec states no value (log entry 21). -/
opaque emptyStoreSeq : Nat → Word

end Sys2Proof.Config
end

