-- ==== Sys2Proof/Machine/RegMap.lean ====
section
/-! DEFINITION. The register map of the chapters of spec/ (R10, R14, R42): for every register its BAR0 byte offset, its
reset value, and its fields with their access codes. One definition per register (an argument for each index letter of
its header), one `Fld` per field, and one `RegDesc` row per register in the table of its block. -/
namespace Sys2Proof.Reg
open Sys2Proof

/-! ### SYS (spec/00_scope.md) -/

/-- spec/00_scope.md, header of line 41. -/
def SYS_ID : Nat := 0x0
def SYS_ID_PART : Fld := ⟨31, 16⟩
def SYS_ID_REV_MAJOR : Fld := ⟨15, 8⟩
def SYS_ID_REV_MINOR : Fld := ⟨7, 0⟩

/-- spec/01_planes_and_tick.md, header of line 185. -/
def SYS_APERTURE : Nat := 0x60
def SYS_APERTURE_BANK : Fld := ⟨4, 0⟩

/-- spec/01_planes_and_tick.md, header of line 237. -/
def SYS_SYNC : Nat := 0x48

/-- spec/01_planes_and_tick.md, header of line 259. -/
def SYS_ACCESS_ERR : Nat := 0x40
def SYS_ACCESS_ERR_OVERFLOW : Fld := ⟨4, 4⟩
def SYS_ACCESS_ERR_RO_REGION : Fld := ⟨3, 3⟩
def SYS_ACCESS_ERR_LOCKED_WR : Fld := ⟨2, 2⟩
def SYS_ACCESS_ERR_UNMAPPED : Fld := ⟨1, 1⟩
def SYS_ACCESS_ERR_SUBWORD_WR : Fld := ⟨0, 0⟩

/-- spec/01_planes_and_tick.md, header of line 270. -/
def SYS_ACCESS_ADDR : Nat := 0x44
def SYS_ACCESS_ADDR_VALID : Fld := ⟨31, 31⟩
def SYS_ACCESS_ADDR_KIND : Fld := ⟨27, 25⟩
def SYS_ACCESS_ADDR_MASTER : Fld := ⟨24, 20⟩
def SYS_ACCESS_ADDR_OFFSET : Fld := ⟨19, 0⟩

/-- spec/01_planes_and_tick.md, header of line 280. -/
def SYS_TICK_NUM_LO : Nat := 0x50

/-- spec/01_planes_and_tick.md, header of line 286. -/
def SYS_TICK_NUM_HI : Nat := 0x54

/-- spec/01_planes_and_tick.md, header of line 292. -/
def SYS_TICK_LATE : Nat := 0x58
def SYS_TICK_LATE_LAST_BLOCK : Fld := ⟨23, 16⟩
def SYS_TICK_LATE_LATE_COUNT : Fld := ⟨15, 0⟩

/-- spec/03_startup_and_arming.md, header of line 25. -/
def SYS_RST_CAUSE : Nat := 0x10
def SYS_RST_CAUSE_SUPPLY : Fld := ⟨4, 4⟩
def SYS_RST_CAUSE_SW_WARM : Fld := ⟨3, 3⟩
def SYS_RST_CAUSE_SW_COLD : Fld := ⟨2, 2⟩
def SYS_RST_CAUSE_PIN : Fld := ⟨1, 1⟩
def SYS_RST_CAUSE_POR : Fld := ⟨0, 0⟩

/-- spec/03_startup_and_arming.md, header of line 38. -/
def SYS_RST_CTRL : Nat := 0x14
def SYS_RST_CTRL_KEY : Fld := ⟨31, 16⟩
def SYS_RST_CTRL_WARM : Fld := ⟨1, 1⟩
def SYS_RST_CTRL_COLD : Fld := ⟨0, 0⟩

/-- spec/03_startup_and_arming.md, header of line 53. -/
def SYS_READY : Nat := 0x20
def SYS_READY_BOOT : Fld := ⟨22, 22⟩
def SYS_READY_CFG : Fld := ⟨21, 21⟩
def SYS_READY_EVR : Fld := ⟨20, 20⟩
def SYS_READY_SAF : Fld := ⟨19, 19⟩
def SYS_READY_TWN : Fld := ⟨18, 18⟩
def SYS_READY_CAN : Fld := ⟨17, 17⟩
def SYS_READY_FLK : Fld := ⟨16, 16⟩
def SYS_READY_SCN : Fld := ⟨15, 15⟩
def SYS_READY_ACQ : Fld := ⟨14, 14⟩
def SYS_READY_ADC : Fld := ⟨13, 13⟩
def SYS_READY_PWM : Fld := ⟨12, 12⟩
def SYS_READY_STP : Fld := ⟨11, 11⟩
def SYS_READY_MPG : Fld := ⟨10, 10⟩
def SYS_READY_FBK : Fld := ⟨9, 9⟩
def SYS_READY_WPU : Fld := ⟨8, 8⟩
def SYS_READY_LPE : Fld := ⟨7, 7⟩
def SYS_READY_SCH : Fld := ⟨6, 6⟩
def SYS_READY_CORES : Fld := ⟨5, 5⟩
def SYS_READY_SRAM : Fld := ⟨4, 4⟩
def SYS_READY_MRAM : Fld := ⟨3, 3⟩
def SYS_READY_NET : Fld := ⟨2, 2⟩
def SYS_READY_TB : Fld := ⟨1, 1⟩
def SYS_READY_HIF : Fld := ⟨0, 0⟩

/-! ### PWR (spec/17_power_and_recorder.md) -/

/-- spec/17_power_and_recorder.md, header of line 117. -/
def PWR_CTRL : Nat := 0x1000
def PWR_CTRL_KEY : Fld := ⟨31, 16⟩
def PWR_CTRL_TARGET : Fld := ⟨5, 4⟩
def PWR_CTRL_CMD : Fld := ⟨1, 0⟩

/-- spec/17_power_and_recorder.md, header of line 127. -/
def PWR_WAKE_TOL : Nat := 0x1004

/-- spec/17_power_and_recorder.md, header of line 133. -/
def PWR_WAKE_CFG : Nat := 0x1008
def PWR_WAKE_CFG_THR : Fld := ⟨11, 8⟩
def PWR_WAKE_CFG_WAKE_N_EN : Fld := ⟨5, 5⟩
def PWR_WAKE_CFG_WAKE_POL : Fld := ⟨4, 4⟩
def PWR_WAKE_CFG_DOORBELL_EN : Fld := ⟨3, 3⟩
def PWR_WAKE_CFG_ALARM_EN : Fld := ⟨2, 2⟩
def PWR_WAKE_CFG_WAKE_IN_EN : Fld := ⟨0, 0⟩

/-- spec/17_power_and_recorder.md, header of line 147. -/
def PWR_STAT : Nat := 0x100C
def PWR_STAT_REJ_CODE : Fld := ⟨23, 20⟩
def PWR_STAT_WAKE_CAUSE : Fld := ⟨19, 16⟩
def PWR_STAT_LAST_LOW : Fld := ⟨11, 10⟩
def PWR_STAT_REJ : Fld := ⟨9, 9⟩
def PWR_STAT_BUSY : Fld := ⟨8, 8⟩
def PWR_STAT_STATE : Fld := ⟨1, 0⟩

/-- spec/17_power_and_recorder.md, header of line 161. -/
def PWR_ALARM_LO : Nat := 0x1010

/-- spec/17_power_and_recorder.md, header of line 161. -/
def PWR_ALARM_HI : Nat := 0x1014

/-- spec/17_power_and_recorder.md, header of line 167. -/
def PWR_TEMP (i : Nat) : Nat := 0x1020 + 0x4 * i
def PWR_TEMP_VALID : Fld := ⟨31, 31⟩
def PWR_TEMP_TEMP : Fld := ⟨15, 0⟩

/-- spec/17_power_and_recorder.md, header of line 175. -/
def PWR_THERM_CFG : Nat := 0x1040
def PWR_THERM_CFG_CRIT_STOP : Fld := ⟨16, 16⟩
def PWR_THERM_CFG_CRIT : Fld := ⟨15, 8⟩
def PWR_THERM_CFG_WARN : Fld := ⟨7, 0⟩

/-- spec/17_power_and_recorder.md, header of line 184. -/
def PWR_THERM_STAT : Nat := 0x1044
def PWR_THERM_STAT_SHDN_EVT : Fld := ⟨24, 24⟩
def PWR_THERM_STAT_CRIT_EVT : Fld := ⟨23, 23⟩
def PWR_THERM_STAT_WARN_EVT : Fld := ⟨22, 22⟩
def PWR_THERM_STAT_CRIT : Fld := ⟨21, 21⟩
def PWR_THERM_STAT_WARN : Fld := ⟨20, 20⟩
def PWR_THERM_STAT_HOT_SENSOR : Fld := ⟨18, 16⟩
def PWR_THERM_STAT_HOT : Fld := ⟨15, 0⟩

/-- spec/17_power_and_recorder.md, header of line 198. -/
def PWR_OPSEC : Nat := 0x1050

/-- spec/17_power_and_recorder.md, header of line 198. -/
def PWR_PCYC : Nat := 0x1054

/-! ### CFG (spec/03_startup_and_arming.md) -/

/-- spec/03_startup_and_arming.md, header of line 109. -/
def CFG_FSTATE (i : Nat) : Nat := 0x2400 + 0x4 * i
def CFG_FSTATE_CMD : Fld := ⟨31, 28⟩
def CFG_FSTATE_FAULT : Fld := ⟨23, 16⟩
def CFG_FSTATE_REJECTED : Fld := ⟨9, 9⟩
def CFG_FSTATE_RESTART_PENDING : Fld := ⟨8, 8⟩
def CFG_FSTATE_INCLUDED : Fld := ⟨7, 7⟩
def CFG_FSTATE_STATE : Fld := ⟨2, 0⟩

/-- spec/03_startup_and_arming.md, header of line 271. -/
def CFG_CTRL : Nat := 0x2000
def CFG_CTRL_CMD : Fld := ⟨3, 0⟩

/-- spec/03_startup_and_arming.md, header of line 278. -/
def CFG_STAT : Nat := 0x2004
def CFG_STAT_BOOT_RESULT : Fld := ⟨11, 10⟩
def CFG_STAT_BOOTSEL : Fld := ⟨9, 8⟩
def CFG_STAT_ERR : Fld := ⟨7, 7⟩
def CFG_STAT_DONE : Fld := ⟨6, 6⟩
def CFG_STAT_BUSY : Fld := ⟨5, 5⟩
def CFG_STAT_REJ_BUSY : Fld := ⟨4, 4⟩
def CFG_STAT_STATE : Fld := ⟨2, 0⟩

/-- spec/03_startup_and_arming.md, header of line 292. -/
def CFG_IMG_ADDR : Nat := 0x2008

/-- spec/03_startup_and_arming.md, header of line 298. -/
def CFG_IMAGE_ID : Nat := 0x2018

/-- spec/03_startup_and_arming.md, header of line 304. -/
def CFG_FAULT : Nat := 0x2010
def CFG_FAULT_SECTION : Fld := ⟨23, 8⟩
def CFG_FAULT_CODE : Fld := ⟨7, 0⟩

/-- spec/03_startup_and_arming.md, header of line 312. -/
def CFG_FAULT_INFO : Nat := 0x2014

/-- spec/03_startup_and_arming.md, header of line 369. -/
def CFG_SWAP_CTRL : Nat := 0x2040
def CFG_SWAP_CTRL_TIMEOUT : Fld := ⟨27, 16⟩
def CFG_SWAP_CTRL_MASTER : Fld := ⟨11, 10⟩
def CFG_SWAP_CTRL_MODE : Fld := ⟨8, 8⟩
def CFG_SWAP_CTRL_MASK : Fld := ⟨7, 4⟩
def CFG_SWAP_CTRL_CMD : Fld := ⟨1, 0⟩

/-- spec/03_startup_and_arming.md, header of line 383. -/
def CFG_SWAP_AT_LO : Nat := 0x2044

/-- spec/03_startup_and_arming.md, header of line 383. -/
def CFG_SWAP_AT_HI : Nat := 0x2048

/-- spec/03_startup_and_arming.md, header of line 389. -/
def CFG_SWAP_STAT : Nat := 0x204C
def CFG_SWAP_STAT_DRAFT_STALE : Fld := ⟨11, 8⟩
def CFG_SWAP_STAT_CODE : Fld := ⟨7, 4⟩
def CFG_SWAP_STAT_REQ_REJ : Fld := ⟨3, 3⟩
def CFG_SWAP_STAT_STATE : Fld := ⟨1, 0⟩

/-- spec/03_startup_and_arming.md, header of line 400. -/
def CFG_SWAP_TICK_LO : Nat := 0x2050

/-- spec/03_startup_and_arming.md, header of line 400. -/
def CFG_SWAP_TICK_HI : Nat := 0x2054

/-! ### HIF (spec/04_host_rings.md) -/

/-- spec/04_host_rings.md, header of line 262. -/
def HIF_CTRL : Nat := 0x4000
def HIF_CTRL_RO_EN : Fld := ⟨0, 0⟩

/-- spec/04_host_rings.md, header of line 269. -/
def HIF_LINK : Nat := 0x4004
def HIF_LINK_BME : Fld := ⟨11, 11⟩
def HIF_LINK_PM : Fld := ⟨10, 8⟩
def HIF_LINK_UP : Fld := ⟨7, 7⟩
def HIF_LINK_WIDTH : Fld := ⟨6, 3⟩
def HIF_LINK_SPEED : Fld := ⟨2, 0⟩

/-- spec/04_host_rings.md, header of line 280. -/
def HIF_ERR : Nat := 0x4008
def HIF_ERR_LINK_LOST : Fld := ⟨5, 5⟩
def HIF_ERR_FLR : Fld := ⟨4, 4⟩
def HIF_ERR_HOST_WR_ERR : Fld := ⟨3, 3⟩
def HIF_ERR_CFG_WR_ACTIVE : Fld := ⟨2, 2⟩
def HIF_ERR_DB_RANGE : Fld := ⟨1, 1⟩
def HIF_ERR_DB_DISABLED : Fld := ⟨0, 0⟩

/-- spec/04_host_rings.md, header of line 292. -/
def HIF_EVT_EN : Nat := 0x400C
def HIF_EVT_EN_SAF : Fld := ⟨5, 5⟩
def HIF_EVT_EN_EVR : Fld := ⟨4, 4⟩
def HIF_EVT_EN_TICK_LATE : Fld := ⟨3, 3⟩
def HIF_EVT_EN_ACCESS_ERR : Fld := ⟨2, 2⟩
def HIF_EVT_EN_HIF_ERR : Fld := ⟨1, 1⟩
def HIF_EVT_EN_RING_HALT : Fld := ⟨0, 0⟩

/-- spec/04_host_rings.md, header of line 292. -/
def HIF_EVT_STAT : Nat := 0x4010
def HIF_EVT_STAT_SAF : Fld := ⟨5, 5⟩
def HIF_EVT_STAT_EVR : Fld := ⟨4, 4⟩
def HIF_EVT_STAT_TICK_LATE : Fld := ⟨3, 3⟩
def HIF_EVT_STAT_ACCESS_ERR : Fld := ⟨2, 2⟩
def HIF_EVT_STAT_HIF_ERR : Fld := ⟨1, 1⟩
def HIF_EVT_STAT_RING_HALT : Fld := ⟨0, 0⟩

/-- spec/04_host_rings.md, header of line 304. -/
def HIF_EVT_VEC : Nat := 0x4014
def HIF_EVT_VEC_VEC : Fld := ⟨7, 0⟩

/-- spec/04_host_rings.md, header of line 311. -/
def HIF_HALTED_LO : Nat := 0x4018

/-- spec/04_host_rings.md, header of line 311. -/
def HIF_HALTED_HI : Nat := 0x401C

/-- spec/04_host_rings.md, header of line 321. -/
def HIF_RING_SQ_BASE_LO (i : Nat) : Nat := 0x5000 + 0x40 * i

/-- spec/04_host_rings.md, header of line 321. -/
def HIF_RING_SQ_BASE_HI (i : Nat) : Nat := 0x5004 + 0x40 * i

/-- spec/04_host_rings.md, header of line 321. -/
def HIF_RING_CQ_BASE_LO (i : Nat) : Nat := 0x5008 + 0x40 * i

/-- spec/04_host_rings.md, header of line 321. -/
def HIF_RING_CQ_BASE_HI (i : Nat) : Nat := 0x500C + 0x40 * i

/-- spec/04_host_rings.md, header of line 327. -/
def HIF_RING_CFG (i : Nat) : Nat := 0x5010 + 0x40 * i
def HIF_RING_CFG_VEC : Fld := ⟨23, 16⟩
def HIF_RING_CFG_SRC_IDX : Fld := ⟨14, 12⟩
def HIF_RING_CFG_SOURCE : Fld := ⟨11, 8⟩
def HIF_RING_CFG_ORDERED : Fld := ⟨4, 4⟩
def HIF_RING_CFG_SIZE_LOG2 : Fld := ⟨3, 0⟩

/-- spec/04_host_rings.md, header of line 340. -/
def HIF_RING_COAL (i : Nat) : Nat := 0x5014 + 0x40 * i
def HIF_RING_COAL_FLUSH_US : Fld := ⟨29, 20⟩
def HIF_RING_COAL_TIME_US : Fld := ⟨17, 8⟩
def HIF_RING_COAL_COUNT : Fld := ⟨7, 0⟩

/-- spec/04_host_rings.md, header of line 350. -/
def HIF_RING_CTRL (i : Nat) : Nat := 0x5018 + 0x40 * i
def HIF_RING_CTRL_CMD : Fld := ⟨3, 0⟩

/-- spec/04_host_rings.md, header of line 357. -/
def HIF_RING_STAT (i : Nat) : Nat := 0x501C + 0x40 * i
def HIF_RING_STAT_CMD_REJECTED : Fld := ⟨12, 12⟩
def HIF_RING_STAT_ERR : Fld := ⟨11, 8⟩
def HIF_RING_STAT_STATE : Fld := ⟨2, 0⟩

/-- spec/04_host_rings.md, header of line 367. -/
def HIF_RING_IDX (i : Nat) : Nat := 0x5020 + 0x40 * i
def HIF_RING_IDX_PHASE : Fld := ⟨31, 31⟩
def HIF_RING_IDX_CQ_TAIL : Fld := ⟨27, 16⟩
def HIF_RING_IDX_SQ_HEAD : Fld := ⟨11, 0⟩

/-- spec/04_host_rings.md, header of line 377. -/
def HIF_RING_DBV (i : Nat) : Nat := 0x5024 + 0x40 * i
def HIF_RING_DBV_CQ_HEAD : Fld := ⟨27, 16⟩
def HIF_RING_DBV_SQ_TAIL : Fld := ⟨11, 0⟩

/-- spec/04_host_rings.md, header of line 386. -/
def HIF_RING_ERR_DESC (i : Nat) : Nat := 0x5028 + 0x40 * i
def HIF_RING_ERR_DESC_TAG : Fld := ⟨31, 16⟩
def HIF_RING_ERR_DESC_INDEX : Fld := ⟨11, 0⟩

/-- spec/04_host_rings.md, header of line 0. -/
def HIF_MSIX_ADDR_LO (i : Nat) : Nat := 0x6000 + 0x10 * i
def HIF_MSIX_ADDR_LO_ADDR : Fld := ⟨31, 2⟩

/-- spec/04_host_rings.md, header of line 0. -/
def HIF_MSIX_ADDR_HI (i : Nat) : Nat := 0x6004 + 0x10 * i

/-- spec/04_host_rings.md, header of line 0. -/
def HIF_MSIX_DATA (i : Nat) : Nat := 0x6008 + 0x10 * i

/-- spec/04_host_rings.md, header of line 0. -/
def HIF_MSIX_CTRL (i : Nat) : Nat := 0x600C + 0x10 * i
def HIF_MSIX_CTRL_MASK : Fld := ⟨0, 0⟩

/-- spec/04_host_rings.md, header of line 0. -/
def HIF_MSIX_PBA (i : Nat) : Nat := 0x7000 + 0x4 * i

/-! ### TB (spec/05_time_and_line_network.md) -/

/-- spec/05_time_and_line_network.md, header of line 51. -/
def TB_CTRL : Nat := 0x8000
def TB_CTRL_STEP : Fld := ⟨2, 2⟩
def TB_CTRL_AUTO_STEP : Fld := ⟨1, 1⟩
def TB_CTRL_SERVO_EN : Fld := ⟨0, 0⟩

/-- spec/05_time_and_line_network.md, header of line 60. -/
def TB_TICK_CFG : Nat := 0x8004
def TB_TICK_CFG_PERIOD : Fld := ⟨2, 0⟩

/-- spec/05_time_and_line_network.md, header of line 67. -/
def TB_STAT : Nat := 0x8008
def TB_STAT_ADDEND_WR : Fld := ⟨4, 4⟩
def TB_STAT_LOCK_LOST : Fld := ⟨3, 3⟩
def TB_STAT_STEPPED : Fld := ⟨2, 2⟩
def TB_STAT_HOLDOVER : Fld := ⟨1, 1⟩
def TB_STAT_LOCKED : Fld := ⟨0, 0⟩

/-- spec/05_time_and_line_network.md, header of line 78. -/
def TB_TIME_LO : Nat := 0x8010

/-- spec/05_time_and_line_network.md, header of line 78. -/
def TB_TIME_HI : Nat := 0x8014

/-- spec/05_time_and_line_network.md, header of line 78. -/
def TB_TIME_FRAC : Nat := 0x8018

/-- spec/05_time_and_line_network.md, header of line 84. -/
def TB_SET_LO : Nat := 0x8020

/-- spec/05_time_and_line_network.md, header of line 84. -/
def TB_SET_HI : Nat := 0x8024

/-- spec/05_time_and_line_network.md, header of line 90. -/
def TB_ADDEND_LO : Nat := 0x8030

/-- spec/05_time_and_line_network.md, header of line 90. -/
def TB_ADDEND_HI : Nat := 0x8034
def TB_ADDEND_HI_NS : Fld := ⟨3, 0⟩

/-- spec/05_time_and_line_network.md, header of line 97. -/
def TB_SERVO_CFG : Nat := 0x8040
def TB_SERVO_CFG_LOCK_NS : Fld := ⟨31, 25⟩
def TB_SERVO_CFG_MAX_PPM : Fld := ⟨24, 16⟩
def TB_SERVO_CFG_KI_SHIFT : Fld := ⟨12, 8⟩
def TB_SERVO_CFG_KP_SHIFT : Fld := ⟨4, 0⟩

/-- spec/05_time_and_line_network.md, header of line 108. -/
def TB_SERVO_OFFSET : Nat := 0x8044

/-- spec/05_time_and_line_network.md, header of line 108. -/
def TB_SERVO_CORR : Nat := 0x8048

/-- spec/05_time_and_line_network.md, header of line 135. -/
def TB_PULSE_CTRL (i : Nat) : Nat := 0x8100 + 0x20 * i
def TB_PULSE_CTRL_MASTER : Fld := ⟨4, 3⟩
def TB_PULSE_CTRL_DOMAIN : Fld := ⟨1, 1⟩
def TB_PULSE_CTRL_PERIODIC : Fld := ⟨0, 0⟩

/-- spec/05_time_and_line_network.md, header of line 145. -/
def TB_PULSE_START_LO (i : Nat) : Nat := 0x8104 + 0x20 * i

/-- spec/05_time_and_line_network.md, header of line 145. -/
def TB_PULSE_START_HI (i : Nat) : Nat := 0x8108 + 0x20 * i

/-- spec/05_time_and_line_network.md, header of line 145. -/
def TB_PULSE_PERIOD (i : Nat) : Nat := 0x810C + 0x20 * i

/-- spec/05_time_and_line_network.md, header of line 145. -/
def TB_PULSE_WIDTH (i : Nat) : Nat := 0x8110 + 0x20 * i

/-- spec/05_time_and_line_network.md, header of line 151. -/
def TB_PULSE_STAT (i : Nat) : Nat := 0x8114 + 0x20 * i
def TB_PULSE_STAT_MISSED : Fld := ⟨31, 16⟩
def TB_PULSE_STAT_PARAM_ERR : Fld := ⟨1, 1⟩
def TB_PULSE_STAT_DONE : Fld := ⟨0, 0⟩

/-- spec/05_time_and_line_network.md, header of line 160. -/
def TB_CAP_CTRL (i : Nat) : Nat := 0x8200 + 0x20 * i
def TB_CAP_CTRL_OPERAND : Fld := ⟨2, 2⟩
def TB_CAP_CTRL_FALL : Fld := ⟨1, 1⟩
def TB_CAP_CTRL_RISE : Fld := ⟨0, 0⟩

/-- spec/05_time_and_line_network.md, header of line 169. -/
def TB_CAP_STAT (i : Nat) : Nat := 0x8204 + 0x20 * i
def TB_CAP_STAT_OVERFLOW : Fld := ⟨31, 16⟩
def TB_CAP_STAT_HEAD_RISE : Fld := ⟨8, 8⟩
def TB_CAP_STAT_FILL : Fld := ⟨3, 0⟩

/-- spec/05_time_and_line_network.md, header of line 179. -/
def TB_CAP_TS_LO (i : Nat) : Nat := 0x8208 + 0x20 * i

/-- spec/05_time_and_line_network.md, header of line 179. -/
def TB_CAP_TS_HI (i : Nat) : Nat := 0x820C + 0x20 * i

/-! ### NET (spec/05_time_and_line_network.md) -/

/-- spec/05_time_and_line_network.md, header of line 199. -/
def NET_PORT_CFG (i : Nat) : Nat := 0xA100 + 0x100 * i
def NET_PORT_CFG_LINK : Fld := ⟨31, 31⟩
def NET_PORT_CFG_LOG_PDELAY : Fld := ⟨23, 20⟩
def NET_PORT_CFG_LOG_SYNC : Fld := ⟨19, 16⟩
def NET_PORT_CFG_TWO_STEP : Fld := ⟨12, 12⟩
def NET_PORT_CFG_P2P : Fld := ⟨11, 11⟩
def NET_PORT_CFG_PTP_STATE : Fld := ⟨10, 8⟩
def NET_PORT_CFG_CYC_LOG2 : Fld := ⟨6, 5⟩
def NET_PORT_CFG_GATE_EN : Fld := ⟨4, 4⟩
def NET_PORT_CFG_LINE : Fld := ⟨3, 3⟩
def NET_PORT_CFG_BLOCK : Fld := ⟨2, 2⟩
def NET_PORT_CFG_CUT : Fld := ⟨1, 1⟩
def NET_PORT_CFG_EN : Fld := ⟨0, 0⟩

/-- spec/05_time_and_line_network.md, header of line 199. -/
def NET_PORT2_CFG : Nat := 0xA300
def NET_PORT2_CFG_LINK : Fld := ⟨31, 31⟩
def NET_PORT2_CFG_LOG_PDELAY : Fld := ⟨23, 20⟩
def NET_PORT2_CFG_LOG_SYNC : Fld := ⟨19, 16⟩
def NET_PORT2_CFG_TWO_STEP : Fld := ⟨12, 12⟩
def NET_PORT2_CFG_P2P : Fld := ⟨11, 11⟩
def NET_PORT2_CFG_PTP_STATE : Fld := ⟨10, 8⟩
def NET_PORT2_CFG_CYC_LOG2 : Fld := ⟨6, 5⟩
def NET_PORT2_CFG_GATE_EN : Fld := ⟨4, 4⟩
def NET_PORT2_CFG_LINE : Fld := ⟨3, 3⟩
def NET_PORT2_CFG_BLOCK : Fld := ⟨2, 2⟩
def NET_PORT2_CFG_CUT : Fld := ⟨1, 1⟩
def NET_PORT2_CFG_EN : Fld := ⟨0, 0⟩

/-- spec/05_time_and_line_network.md, header of line 219. -/
def NET_PORT_DLY_RX (i : Nat) : Nat := 0xA104 + 0x100 * i
def NET_PORT_DLY_RX_NS : Fld := ⟨31, 16⟩
def NET_PORT_DLY_RX_FRAC : Fld := ⟨15, 0⟩

/-- spec/05_time_and_line_network.md, header of line 219. -/
def NET_PORT2_DLY_RX : Nat := 0xA304
def NET_PORT2_DLY_RX_NS : Fld := ⟨31, 16⟩
def NET_PORT2_DLY_RX_FRAC : Fld := ⟨15, 0⟩

/-- spec/05_time_and_line_network.md, header of line 219. -/
def NET_PORT_DLY_TX (i : Nat) : Nat := 0xA108 + 0x100 * i
def NET_PORT_DLY_TX_NS : Fld := ⟨31, 16⟩
def NET_PORT_DLY_TX_FRAC : Fld := ⟨15, 0⟩

/-- spec/05_time_and_line_network.md, header of line 219. -/
def NET_PORT2_DLY_TX : Nat := 0xA308
def NET_PORT2_DLY_TX_NS : Fld := ⟨31, 16⟩
def NET_PORT2_DLY_TX_FRAC : Fld := ⟨15, 0⟩

/-- spec/05_time_and_line_network.md, header of line 226. -/
def NET_PORT_LINK_DLY (i : Nat) : Nat := 0xA10C + 0x100 * i

/-- spec/05_time_and_line_network.md, header of line 232. -/
def NET_PORT_GCL0 (i : Nat) : Nat := 0xA140 + 0x100 * i
def NET_PORT_GCL0_END : Fld := ⟨31, 16⟩
def NET_PORT_GCL0_LAST : Fld := ⟨8, 8⟩
def NET_PORT_GCL0_GATES : Fld := ⟨7, 0⟩

/-- spec/05_time_and_line_network.md, header of line 232. -/
def NET_PORT_GCL1 (i j : Nat) : Nat := 0xA144 + 0x100 * i + 0x4 * j
def NET_PORT_GCL1_END : Fld := ⟨31, 16⟩
def NET_PORT_GCL1_LAST : Fld := ⟨8, 8⟩
def NET_PORT_GCL1_GATES : Fld := ⟨7, 0⟩

/-- spec/05_time_and_line_network.md, header of line 251. -/
def NET_PTP_CFG : Nat := 0xA020
def NET_PTP_CFG_MAJOR_SDO : Fld := ⟨19, 16⟩
def NET_PTP_CFG_DOMAIN : Fld := ⟨15, 8⟩
def NET_PTP_CFG_UDP4 : Fld := ⟨3, 3⟩
def NET_PTP_CFG_MIRROR : Fld := ⟨2, 2⟩
def NET_PTP_CFG_ROLE : Fld := ⟨1, 0⟩

/-- spec/05_time_and_line_network.md, header of line 263. -/
def NET_PTP_PARENT_HI : Nat := 0xA024

/-- spec/05_time_and_line_network.md, header of line 263. -/
def NET_PTP_PARENT_LO : Nat := 0xA028

/-- spec/05_time_and_line_network.md, header of line 456. -/
def NET_NODE : Nat := 0xA000
def NET_NODE_SEG : Fld := ⟨27, 22⟩
def NET_NODE_MOD : Fld := ⟨21, 16⟩
def NET_NODE_DEV : Fld := ⟨15, 12⟩
def NET_NODE_DEV_ID : Fld := ⟨11, 0⟩

/-- spec/05_time_and_line_network.md, header of line 466. -/
def NET_CELIVO_CFG : Nat := 0xA004
def NET_CELIVO_CFG_TC : Fld := ⟨26, 24⟩
def NET_CELIVO_CFG_PCP : Fld := ⟨23, 21⟩
def NET_CELIVO_CFG_VLAN_EN : Fld := ⟨20, 20⟩
def NET_CELIVO_CFG_PHASE : Fld := ⟨19, 17⟩
def NET_CELIVO_CFG_EN : Fld := ⟨16, 16⟩
def NET_CELIVO_CFG_ETYPE : Fld := ⟨15, 0⟩

/-- spec/05_time_and_line_network.md, header of line 478. -/
def NET_CELIVO_CFG2 : Nat := 0xA008
def NET_CELIVO_CFG2_AUTOJOIN : Fld := ⟨28, 28⟩
def NET_CELIVO_CFG2_DROP_TICKS : Fld := ⟨27, 20⟩
def NET_CELIVO_CFG2_STALE_TICKS : Fld := ⟨19, 12⟩
def NET_CELIVO_CFG2_VID : Fld := ⟨11, 0⟩

/-- spec/05_time_and_line_network.md, header of line 488. -/
def NET_CELIVO_CTRL : Nat := 0xA00C
def NET_CELIVO_CTRL_CMD : Fld := ⟨31, 28⟩
def NET_CELIVO_CTRL_DUP_ID : Fld := ⟨8, 8⟩
def NET_CELIVO_CTRL_JSTATE : Fld := ⟨2, 0⟩

/-- spec/05_time_and_line_network.md, header of line 498. -/
def NET_CELIVO_ERR : Nat := 0xA010
def NET_CELIVO_ERR_UNJOINED : Fld := ⟨31, 24⟩
def NET_CELIVO_ERR_LOSS : Fld := ⟨23, 16⟩
def NET_CELIVO_ERR_OLD : Fld := ⟨15, 8⟩
def NET_CELIVO_ERR_FORMAT : Fld := ⟨7, 0⟩

/-- spec/05_time_and_line_network.md, header of line 507. -/
def NET_MAC_LO : Nat := 0xA014

/-- spec/05_time_and_line_network.md, header of line 507. -/
def NET_MAC_HI : Nat := 0xA018
def NET_MAC_HI_MAC : Fld := ⟨15, 0⟩

/-- spec/05_time_and_line_network.md, header of line 513. -/
def NET_STOP_CTRL : Nat := 0xA030
def NET_STOP_CTRL_CMD : Fld := ⟨31, 28⟩
def NET_STOP_CTRL_SCOPE : Fld := ⟨27, 26⟩
def NET_STOP_CTRL_KIND : Fld := ⟨25, 24⟩
def NET_STOP_CTRL_REASON : Fld := ⟨23, 16⟩
def NET_STOP_CTRL_TARGET : Fld := ⟨15, 0⟩

/-- spec/05_time_and_line_network.md, header of line 513. -/
def NET_STOP_DECEL_LO : Nat := 0xA034

/-- spec/05_time_and_line_network.md, header of line 513. -/
def NET_STOP_DECEL_HI : Nat := 0xA038

/-- spec/05_time_and_line_network.md, header of line 523. -/
def NET_STOP_STAT : Nat := 0xA03C
def NET_STOP_STAT_IN_FORCE : Fld := ⟨31, 31⟩
def NET_STOP_STAT_OVERFLOW : Fld := ⟨30, 30⟩
def NET_STOP_STAT_OVF_SAFE : Fld := ⟨29, 29⟩
def NET_STOP_STAT_COUNT : Fld := ⟨28, 24⟩
def NET_STOP_STAT_OWN_ACTIVE : Fld := ⟨16, 16⟩
def NET_STOP_STAT_OWN_REQ : Fld := ⟨15, 0⟩

/-- spec/05_time_and_line_network.md, header of line 535. -/
def NET_MPTX (i : Nat) : Nat := 0xA040 + 0x4 * i
def NET_MPTX_EN : Fld := ⟨31, 31⟩
def NET_MPTX_STREAM : Fld := ⟨9, 0⟩

/-- spec/05_time_and_line_network.md, header of line 535. -/
def NET_RXS_CFG (i : Nat) : Nat := 0xA400 + 0x8 * i
def NET_RXS_CFG_EN : Fld := ⟨31, 31⟩
def NET_RXS_CFG_STREAM : Fld := ⟨9, 0⟩

/-- spec/05_time_and_line_network.md, header of line 543. -/
def NET_RXS_STAT (i : Nat) : Nat := 0xA404 + 0x8 * i
def NET_RXS_STAT_SRC_ID : Fld := ⟨27, 16⟩
def NET_RXS_STAT_LOSS : Fld := ⟨15, 8⟩
def NET_RXS_STAT_STATE : Fld := ⟨1, 0⟩

/-- spec/05_time_and_line_network.md, header of line 553. -/
def NET_WATCH (i : Nat) : Nat := 0xA500 + 0x4 * i
def NET_WATCH_EN : Fld := ⟨31, 31⟩
def NET_WATCH_SPONSOR : Fld := ⟨30, 30⟩
def NET_WATCH_STATE : Fld := ⟨29, 28⟩
def NET_WATCH_EPOCH : Fld := ⟨23, 16⟩
def NET_WATCH_DEV_ID : Fld := ⟨11, 0⟩

/-- spec/05_time_and_line_network.md, header of line 565. -/
def NET_SPT_MAC_LO (i : Nat) : Nat := 0xA800 + 0x10 * i

/-- spec/05_time_and_line_network.md, header of line 571. -/
def NET_SPT_MAC_HI (i : Nat) : Nat := 0xA804 + 0x10 * i
def NET_SPT_MAC_HI_EN : Fld := ⟨31, 31⟩
def NET_SPT_MAC_HI_ECHO_LIMIT : Fld := ⟨29, 26⟩
def NET_SPT_MAC_HI_MODE : Fld := ⟨25, 24⟩
def NET_SPT_MAC_HI_DRIVE : Fld := ⟨21, 16⟩
def NET_SPT_MAC_HI_MAC : Fld := ⟨15, 0⟩

/-- spec/05_time_and_line_network.md, header of line 583. -/
def NET_SPT_STAT (i : Nat) : Nat := 0xA808 + 0x10 * i
def NET_SPT_STAT_ECHO_LAG : Fld := ⟨23, 16⟩
def NET_SPT_STAT_LOST_EVT : Fld := ⟨9, 9⟩
def NET_SPT_STAT_LOST : Fld := ⟨8, 8⟩
def NET_SPT_STAT_STATE : Fld := ⟨2, 0⟩

/-! ### CAN (spec/15_field_link_and_can.md) -/

/-- spec/15_field_link_and_can.md, header of line 328. -/
def CAN_CTRL (i : Nat) : Nat := 0xC000 + 0x400 * i
def CAN_CTRL_AUTO_BOR : Fld := ⟨8, 8⟩
def CAN_CTRL_ECHO : Fld := ⟨7, 7⟩
def CAN_CTRL_ONESHOT : Fld := ⟨6, 6⟩
def CAN_CTRL_TX_ORDER : Fld := ⟨5, 5⟩
def CAN_CTRL_FD_EN : Fld := ⟨4, 4⟩
def CAN_CTRL_MODE : Fld := ⟨1, 0⟩

/-- spec/15_field_link_and_can.md, header of line 341. -/
def CAN_NBT (i : Nat) : Nat := 0xC004 + 0x400 * i
def CAN_NBT_NSJW : Fld := ⟨30, 24⟩
def CAN_NBT_NTSEG2 : Fld := ⟨22, 16⟩
def CAN_NBT_NTSEG1 : Fld := ⟨15, 8⟩
def CAN_NBT_NBRP : Fld := ⟨7, 0⟩

/-- spec/15_field_link_and_can.md, header of line 341. -/
def CAN_DBT (i : Nat) : Nat := 0xC008 + 0x400 * i
def CAN_DBT_DSJW : Fld := ⟨27, 24⟩
def CAN_DBT_DTSEG2 : Fld := ⟨19, 16⟩
def CAN_DBT_DTSEG1 : Fld := ⟨12, 8⟩
def CAN_DBT_DBRP : Fld := ⟨4, 0⟩

/-- spec/15_field_link_and_can.md, header of line 354. -/
def CAN_TDC (i : Nat) : Nat := 0xC00C + 0x400 * i
def CAN_TDC_TDCV : Fld := ⟨22, 16⟩
def CAN_TDC_TDC_EN : Fld := ⟨8, 8⟩
def CAN_TDC_TDCO : Fld := ⟨6, 0⟩

/-- spec/15_field_link_and_can.md, header of line 365. -/
def CAN_STAT (i : Nat) : Nat := 0xC010 + 0x400 * i
def CAN_STAT_DLEC : Fld := ⟨26, 24⟩
def CAN_STAT_LEC : Fld := ⟨23, 21⟩
def CAN_STAT_CFG_REJ : Fld := ⟨20, 20⟩
def CAN_STAT_EPASS_EVT : Fld := ⟨19, 19⟩
def CAN_STAT_BOFF_EVT : Fld := ⟨18, 18⟩
def CAN_STAT_STATE : Fld := ⟨17, 16⟩
def CAN_STAT_RP : Fld := ⟨15, 15⟩
def CAN_STAT_REC : Fld := ⟨14, 8⟩
def CAN_STAT_TEC : Fld := ⟨7, 0⟩

/-- spec/15_field_link_and_can.md, header of line 380. -/
def CAN_CNT (i : Nat) : Nat := 0xC014 + 0x400 * i
def CAN_CNT_RX_LOST : Fld := ⟨31, 16⟩
def CAN_CNT_BUS_ERR : Fld := ⟨15, 0⟩

/-- spec/15_field_link_and_can.md, header of line 380. -/
def CAN_CMD (i : Nat) : Nat := 0xC018 + 0x400 * i
def CAN_CMD_CMD : Fld := ⟨31, 28⟩

/-- spec/15_field_link_and_can.md, header of line 388. -/
def CAN_TXB_ID (i j : Nat) : Nat := 0xC040 + 0x400 * i + 0x80 * j

/-- spec/15_field_link_and_can.md, header of line 388. -/
def CAN_TXB_CTRL (i j : Nat) : Nat := 0xC044 + 0x400 * i + 0x80 * j
def CAN_TXB_CTRL_RTR : Fld := ⟨7, 7⟩
def CAN_TXB_CTRL_IDE : Fld := ⟨6, 6⟩
def CAN_TXB_CTRL_BRS : Fld := ⟨5, 5⟩
def CAN_TXB_CTRL_FDF : Fld := ⟨4, 4⟩
def CAN_TXB_CTRL_DLC : Fld := ⟨3, 0⟩

/-- spec/15_field_link_and_can.md, header of line 388. -/
def CAN_TXB_CMD (i j : Nat) : Nat := 0xC048 + 0x400 * i + 0x80 * j
def CAN_TXB_CMD_CMD : Fld := ⟨31, 28⟩

/-- spec/15_field_link_and_can.md, header of line 388. -/
def CAN_TXB_STAT (i j : Nat) : Nat := 0xC04C + 0x400 * i + 0x80 * j
def CAN_TXB_STAT_ARB_LOST : Fld := ⟨15, 8⟩
def CAN_TXB_STAT_WR_REJ : Fld := ⟨5, 5⟩
def CAN_TXB_STAT_REQ_REJ : Fld := ⟨4, 4⟩
def CAN_TXB_STAT_TX_FAIL : Fld := ⟨3, 3⟩
def CAN_TXB_STAT_CANCELLED : Fld := ⟨2, 2⟩
def CAN_TXB_STAT_TX_OK : Fld := ⟨1, 1⟩
def CAN_TXB_STAT_PENDING : Fld := ⟨0, 0⟩

/-- spec/15_field_link_and_can.md, header of line 388. -/
def CAN_TXB_TS_LO (i j : Nat) : Nat := 0xC050 + 0x400 * i + 0x80 * j

/-- spec/15_field_link_and_can.md, header of line 388. -/
def CAN_TXB_TS_HI (i j : Nat) : Nat := 0xC054 + 0x400 * i + 0x80 * j

/-- spec/15_field_link_and_can.md, header of line 388. -/
def CAN_TXB_DATA (i j k : Nat) : Nat := 0xC080 + 0x400 * i + 0x80 * j + 0x4 * k

/-! ### WPU (spec/06_web_phase_unit.md) -/

/-- spec/06_web_phase_unit.md, header of line 316. -/
def WPU_STAT : Nat := 0x10000
def WPU_STAT_DL_ERR : Fld := ⟨1, 1⟩
def WPU_STAT_DL_CAL : Fld := ⟨0, 0⟩

/-- spec/06_web_phase_unit.md, header of line 324. -/
def WPU_UPD_MASK : Nat := 0x10010

/-- spec/06_web_phase_unit.md, header of line 330. -/
def WPU_UPD_CTRL : Nat := 0x10014
def WPU_UPD_CTRL_CMD : Fld := ⟨31, 28⟩
def WPU_UPD_CTRL_MODE : Fld := ⟨0, 0⟩

/-- spec/06_web_phase_unit.md, header of line 338. -/
def WPU_UPD_AT_LO : Nat := 0x10018

/-- spec/06_web_phase_unit.md, header of line 338. -/
def WPU_UPD_AT_HI : Nat := 0x1001C

/-- spec/06_web_phase_unit.md, header of line 346. -/
def WPU_CH_CFG (i : Nat) : Nat := 0x10100 + 0x80 * i
def WPU_CH_CFG_CONT : Fld := ⟨19, 19⟩
def WPU_CH_CFG_AUTO_B : Fld := ⟨18, 18⟩
def WPU_CH_CFG_IDX_B : Fld := ⟨17, 12⟩
def WPU_CH_CFG_SRC_B : Fld := ⟨11, 10⟩
def WPU_CH_CFG_IDX_A : Fld := ⟨9, 4⟩
def WPU_CH_CFG_INVERT : Fld := ⟨2, 2⟩
def WPU_CH_CFG_SRC_A : Fld := ⟨1, 0⟩

/-- spec/06_web_phase_unit.md, header of line 360. -/
def WPU_CH_SCALE_LO (i : Nat) : Nat := 0x10104 + 0x80 * i

/-- spec/06_web_phase_unit.md, header of line 360. -/
def WPU_CH_SCALE_HI (i : Nat) : Nat := 0x10108 + 0x80 * i

/-- spec/06_web_phase_unit.md, header of line 366. -/
def WPU_CH_ORIGIN_LO (i : Nat) : Nat := 0x1010C + 0x80 * i

/-- spec/06_web_phase_unit.md, header of line 366. -/
def WPU_CH_ORIGIN_HI (i : Nat) : Nat := 0x10110 + 0x80 * i

/-- spec/06_web_phase_unit.md, header of line 372. -/
def WPU_CH_EST (i : Nat) : Nat := 0x10114 + 0x80 * i
def WPU_CH_EST_VEL_EDGES : Fld := ⟨31, 24⟩
def WPU_CH_EST_ACC_SHIFT : Fld := ⟨23, 20⟩
def WPU_CH_EST_STILL_US : Fld := ⟨15, 0⟩

/-- spec/06_web_phase_unit.md, header of line 381. -/
def WPU_CH_JUMP (i : Nat) : Nat := 0x10118 + 0x80 * i
def WPU_CH_JUMP_JUMP_NM : Fld := ⟨19, 0⟩

/-- spec/06_web_phase_unit.md, header of line 388. -/
def WPU_CH_STOP_DECEL_LO (i : Nat) : Nat := 0x1011C + 0x80 * i

/-- spec/06_web_phase_unit.md, header of line 388. -/
def WPU_CH_STOP_DECEL_HI (i : Nat) : Nat := 0x10120 + 0x80 * i

/-- spec/06_web_phase_unit.md, header of line 388. -/
def WPU_CH_QUICK_DECEL_LO (i : Nat) : Nat := 0x10124 + 0x80 * i

/-- spec/06_web_phase_unit.md, header of line 388. -/
def WPU_CH_QUICK_DECEL_HI (i : Nat) : Nat := 0x10128 + 0x80 * i

/-- spec/06_web_phase_unit.md, header of line 394. -/
def WPU_CH_SYN_VEL_LO (i : Nat) : Nat := 0x1012C + 0x80 * i

/-- spec/06_web_phase_unit.md, header of line 394. -/
def WPU_CH_SYN_VEL_HI (i : Nat) : Nat := 0x10130 + 0x80 * i

/-- spec/06_web_phase_unit.md, header of line 400. -/
def WPU_CH_SYN_ACC_LO (i : Nat) : Nat := 0x10134 + 0x80 * i

/-- spec/06_web_phase_unit.md, header of line 400. -/
def WPU_CH_SYN_ACC_HI (i : Nat) : Nat := 0x10138 + 0x80 * i

/-- spec/06_web_phase_unit.md, header of line 406. -/
def WPU_CH_CMD (i : Nat) : Nat := 0x1013C + 0x80 * i
def WPU_CH_CMD_CMD : Fld := ⟨31, 28⟩

/-- spec/06_web_phase_unit.md, header of line 413. -/
def WPU_CH_STAT (i : Nat) : Nat := 0x10140 + 0x80 * i
def WPU_CH_STAT_SW_REJ : Fld := ⟨11, 11⟩
def WPU_CH_STAT_LOST : Fld := ⟨10, 10⟩
def WPU_CH_STAT_JUMP : Fld := ⟨9, 9⟩
def WPU_CH_STAT_OVERSPEED : Fld := ⟨8, 8⟩
def WPU_CH_STAT_VALID_B : Fld := ⟨5, 5⟩
def WPU_CH_STAT_VALID_A : Fld := ⟨4, 4⟩
def WPU_CH_STAT_DECEL : Fld := ⟨3, 3⟩
def WPU_CH_STAT_REVERSE : Fld := ⟨2, 2⟩
def WPU_CH_STAT_STANDSTILL : Fld := ⟨1, 1⟩
def WPU_CH_STAT_ACTIVE : Fld := ⟨0, 0⟩

/-- spec/06_web_phase_unit.md, header of line 430. -/
def WPU_CH_POS_LO (i : Nat) : Nat := 0x10144 + 0x80 * i

/-- spec/06_web_phase_unit.md, header of line 430. -/
def WPU_CH_POS_HI (i : Nat) : Nat := 0x10148 + 0x80 * i

/-- spec/06_web_phase_unit.md, header of line 430. -/
def WPU_CH_VEL_LO (i : Nat) : Nat := 0x1014C + 0x80 * i

/-- spec/06_web_phase_unit.md, header of line 430. -/
def WPU_CH_VEL_HI (i : Nat) : Nat := 0x10150 + 0x80 * i

/-- spec/06_web_phase_unit.md, header of line 430. -/
def WPU_CH_ACC_LO (i : Nat) : Nat := 0x10154 + 0x80 * i

/-- spec/06_web_phase_unit.md, header of line 430. -/
def WPU_CH_ACC_HI (i : Nat) : Nat := 0x10158 + 0x80 * i

/-- spec/06_web_phase_unit.md, header of line 436. -/
def WPU_CH_EPOCH (i : Nat) : Nat := 0x1015C + 0x80 * i

/-- spec/06_web_phase_unit.md, header of line 442. -/
def WPU_CH_CNT (i : Nat) : Nat := 0x10160 + 0x80 * i
def WPU_CH_CNT_SWITCHES : Fld := ⟨31, 16⟩
def WPU_CH_CNT_JUMPS : Fld := ⟨15, 0⟩

/-- spec/06_web_phase_unit.md, header of line 449. -/
def WPU_CH_NOW_LO (i : Nat) : Nat := 0x10164 + 0x80 * i

/-- spec/06_web_phase_unit.md, header of line 449. -/
def WPU_CH_NOW_HI (i : Nat) : Nat := 0x10168 + 0x80 * i

/-- spec/06_web_phase_unit.md, header of line 457. -/
def WPU_BAR_CFG (i : Nat) : Nat := 0x11000 + 0x40 * i
def WPU_BAR_CFG_WIDTH : Fld := ⟨24, 16⟩
def WPU_BAR_CFG_ACQ : Fld := ⟨10, 8⟩
def WPU_BAR_CFG_TS_LATE : Fld := ⟨6, 6⟩
def WPU_BAR_CFG_TS_SKIP : Fld := ⟨5, 5⟩
def WPU_BAR_CFG_TS_FIRE : Fld := ⟨4, 4⟩
def WPU_BAR_CFG_STOP_FIRE : Fld := ⟨3, 3⟩
def WPU_BAR_CFG_BEHIND : Fld := ⟨2, 2⟩
def WPU_BAR_CFG_CH : Fld := ⟨1, 0⟩

/-- spec/06_web_phase_unit.md, header of line 473. -/
def WPU_BAR_PITCH_LO (i : Nat) : Nat := 0x11004 + 0x40 * i

/-- spec/06_web_phase_unit.md, header of line 473. -/
def WPU_BAR_PITCH_HI (i : Nat) : Nat := 0x11008 + 0x40 * i

/-- spec/06_web_phase_unit.md, header of line 479. -/
def WPU_BAR_SKEW (i : Nat) : Nat := 0x1100C + 0x40 * i

/-- spec/06_web_phase_unit.md, header of line 485. -/
def WPU_BAR_OFFSET_ST_LO (i : Nat) : Nat := 0x11010 + 0x40 * i

/-- spec/06_web_phase_unit.md, header of line 485. -/
def WPU_BAR_OFFSET_ST_HI (i : Nat) : Nat := 0x11014 + 0x40 * i

/-- spec/06_web_phase_unit.md, header of line 485. -/
def WPU_BAR_STRETCH_ST (i : Nat) : Nat := 0x11018 + 0x40 * i

/-- spec/06_web_phase_unit.md, header of line 491. -/
def WPU_BAR_STRETCH (i : Nat) : Nat := 0x1101C + 0x40 * i

/-- spec/06_web_phase_unit.md, header of line 491. -/
def WPU_BAR_OFFSET_LO (i : Nat) : Nat := 0x11020 + 0x40 * i

/-- spec/06_web_phase_unit.md, header of line 491. -/
def WPU_BAR_OFFSET_HI (i : Nat) : Nat := 0x11024 + 0x40 * i

/-- spec/06_web_phase_unit.md, header of line 497. -/
def WPU_BAR_NEXT_LO (i : Nat) : Nat := 0x11028 + 0x40 * i

/-- spec/06_web_phase_unit.md, header of line 497. -/
def WPU_BAR_NEXT_HI (i : Nat) : Nat := 0x1102C + 0x40 * i

/-- spec/06_web_phase_unit.md, header of line 497. -/
def WPU_BAR_IDX_LO (i : Nat) : Nat := 0x11030 + 0x40 * i

/-- spec/06_web_phase_unit.md, header of line 497. -/
def WPU_BAR_IDX_HI (i : Nat) : Nat := 0x11034 + 0x40 * i

/-- spec/06_web_phase_unit.md, header of line 503. -/
def WPU_BAR_FIRES (i : Nat) : Nat := 0x11038 + 0x40 * i

/-- spec/06_web_phase_unit.md, header of line 509. -/
def WPU_BAR_MISS (i : Nat) : Nat := 0x1103C + 0x40 * i
def WPU_BAR_MISS_LATE : Fld := ⟨31, 16⟩
def WPU_BAR_MISS_SKIP : Fld := ⟨15, 0⟩

/-- spec/06_web_phase_unit.md, header of line 516. -/
def WPU_BAR_STAT (i : Nat) : Nat := 0x11800 + 0x10 * i
def WPU_BAR_STAT_RUNS : Fld := ⟨31, 16⟩
def WPU_BAR_STAT_UPD_LOST : Fld := ⟨10, 10⟩
def WPU_BAR_STAT_STRETCH_SAT : Fld := ⟨9, 9⟩
def WPU_BAR_STAT_OVERSPEED : Fld := ⟨8, 8⟩
def WPU_BAR_STAT_CH_DOWN : Fld := ⟨2, 2⟩
def WPU_BAR_STAT_INHIBIT : Fld := ⟨1, 1⟩
def WPU_BAR_STAT_UPD_PENDING : Fld := ⟨0, 0⟩

/-- spec/06_web_phase_unit.md, header of line 530. -/
def WPU_BAR_LAST_TS (i : Nat) : Nat := 0x11804 + 0x10 * i
def WPU_BAR_LAST_TS_NS : Fld := ⟨31, 3⟩
def WPU_BAR_LAST_TS_STEP : Fld := ⟨2, 0⟩

/-- spec/06_web_phase_unit.md, header of line 537. -/
def WPU_BAR_EP_LO (i : Nat) : Nat := 0x11808 + 0x10 * i

/-- spec/06_web_phase_unit.md, header of line 537. -/
def WPU_BAR_EP_HI (i : Nat) : Nat := 0x1180C + 0x10 * i

/-! ### FBK (spec/07_feedback.md) -/

/-- spec/07_feedback.md, header of line 264. -/
def FBK_CFG (i : Nat) : Nat := 0x18000 + 0x80 * i
def FBK_CFG_STILL : Fld := ⟨28, 25⟩
def FBK_CFG_INTERP : Fld := ⟨24, 24⟩
def FBK_CFG_SPD_WIN : Fld := ⟨23, 20⟩
def FBK_CFG_ERR_LIMIT : Fld := ⟨19, 16⟩
def FBK_CFG_FILT_PRE : Fld := ⟨15, 14⟩
def FBK_CFG_FILT_N : Fld := ⟨13, 8⟩
def FBK_CFG_QERR_MODE : Fld := ⟨6, 6⟩
def FBK_CFG_HYST : Fld := ⟨5, 5⟩
def FBK_CFG_INVERT : Fld := ⟨4, 4⟩
def FBK_CFG_DECODE : Fld := ⟨3, 2⟩
def FBK_CFG_MODE : Fld := ⟨1, 0⟩

/-- spec/07_feedback.md, header of line 282. -/
def FBK_IDX_CFG (i : Nat) : Nat := 0x18004 + 0x80 * i
def FBK_IDX_CFG_IDX_OPERAND : Fld := ⟨7, 7⟩
def FBK_IDX_CFG_HOME_DIR : Fld := ⟨6, 6⟩
def FBK_IDX_CFG_GATE_A : Fld := ⟨5, 5⟩
def FBK_IDX_CFG_GATE_B : Fld := ⟨4, 4⟩
def FBK_IDX_CFG_GATE_EN : Fld := ⟨3, 3⟩
def FBK_IDX_CFG_IDX_POL : Fld := ⟨2, 2⟩
def FBK_IDX_CFG_IDX_MODE : Fld := ⟨1, 0⟩

/-- spec/07_feedback.md, header of line 295. -/
def FBK_HOME_VAL_LO (i : Nat) : Nat := 0x18008 + 0x80 * i

/-- spec/07_feedback.md, header of line 295. -/
def FBK_HOME_VAL_HI (i : Nat) : Nat := 0x1800C + 0x80 * i

/-- spec/07_feedback.md, header of line 301. -/
def FBK_CMD (i : Nat) : Nat := 0x18010 + 0x80 * i
def FBK_CMD_CMD : Fld := ⟨31, 28⟩

/-- spec/07_feedback.md, header of line 308. -/
def FBK_SSI_CFG (i : Nat) : Nat := 0x18014 + 0x80 * i
def FBK_SSI_CFG_RATE : Fld := ⟨31, 28⟩
def FBK_SSI_CFG_CLKDIV : Fld := ⟨27, 16⟩
def FBK_SSI_CFG_FORMAT : Fld := ⟨13, 12⟩
def FBK_SSI_CFG_GRAY : Fld := ⟨11, 11⟩
def FBK_SSI_CFG_PARITY : Fld := ⟨10, 9⟩
def FBK_SSI_CFG_EXTRA : Fld := ⟨8, 6⟩
def FBK_SSI_CFG_BITS : Fld := ⟨5, 0⟩

/-- spec/07_feedback.md, header of line 321. -/
def FBK_SSI_TIM (i : Nat) : Nat := 0x18018 + 0x80 * i
def FBK_SSI_TIM_TM : Fld := ⟨31, 28⟩
def FBK_SSI_TIM_LEAD : Fld := ⟨27, 16⟩
def FBK_SSI_TIM_DELAY : Fld := ⟨11, 0⟩

/-- spec/07_feedback.md, header of line 330. -/
def FBK_SSI_RAW_LO (i : Nat) : Nat := 0x1801C + 0x80 * i

/-- spec/07_feedback.md, header of line 330. -/
def FBK_SSI_RAW_HI (i : Nat) : Nat := 0x18020 + 0x80 * i
def FBK_SSI_RAW_HI_ERR_KIND : Fld := ⟨26, 24⟩
def FBK_SSI_RAW_HI_EXT : Fld := ⟨23, 16⟩
def FBK_SSI_RAW_HI_RAW : Fld := ⟨15, 0⟩

/-- spec/07_feedback.md, header of line 339. -/
def FBK_POS_LO (i : Nat) : Nat := 0x18024 + 0x80 * i

/-- spec/07_feedback.md, header of line 339. -/
def FBK_POS_HI (i : Nat) : Nat := 0x18028 + 0x80 * i

/-- spec/07_feedback.md, header of line 339. -/
def FBK_COUNT_LO (i : Nat) : Nat := 0x1802C + 0x80 * i

/-- spec/07_feedback.md, header of line 339. -/
def FBK_COUNT_HI (i : Nat) : Nat := 0x18030 + 0x80 * i

/-- spec/07_feedback.md, header of line 345. -/
def FBK_SPEED (i : Nat) : Nat := 0x18034 + 0x80 * i

/-- spec/07_feedback.md, header of line 351. -/
def FBK_IDX_POS_LO (i : Nat) : Nat := 0x18038 + 0x80 * i

/-- spec/07_feedback.md, header of line 351. -/
def FBK_IDX_POS_HI (i : Nat) : Nat := 0x1803C + 0x80 * i

/-- spec/07_feedback.md, header of line 351. -/
def FBK_IDX_TS_LO (i : Nat) : Nat := 0x18040 + 0x80 * i

/-- spec/07_feedback.md, header of line 351. -/
def FBK_IDX_TS_HI (i : Nat) : Nat := 0x18044 + 0x80 * i

/-- spec/07_feedback.md, header of line 351. -/
def FBK_SSI_TS_LO (i : Nat) : Nat := 0x18050 + 0x80 * i

/-- spec/07_feedback.md, header of line 351. -/
def FBK_SSI_TS_HI (i : Nat) : Nat := 0x18054 + 0x80 * i

/-- spec/07_feedback.md, header of line 357. -/
def FBK_STAT (i : Nat) : Nat := 0x18048 + 0x80 * i
def FBK_STAT_SSI_VALID : Fld := ⟨14, 14⟩
def FBK_STAT_CMD_REJ : Fld := ⟨13, 13⟩
def FBK_STAT_SSI_ERR : Fld := ⟨12, 12⟩
def FBK_STAT_HALL_ERR : Fld := ⟨11, 11⟩
def FBK_STAT_QERR : Fld := ⟨10, 10⟩
def FBK_STAT_IDX_OVR : Fld := ⟨9, 9⟩
def FBK_STAT_IDX_NEW : Fld := ⟨8, 8⟩
def FBK_STAT_HOMED : Fld := ⟨7, 7⟩
def FBK_STAT_HOME_ARMED : Fld := ⟨6, 6⟩
def FBK_STAT_HOLD : Fld := ⟨5, 5⟩
def FBK_STAT_STILL : Fld := ⟨4, 4⟩
def FBK_STAT_DIR : Fld := ⟨3, 3⟩
def FBK_STAT_SECTOR : Fld := ⟨2, 0⟩

/-- spec/07_feedback.md, header of line 376. -/
def FBK_ERR (i : Nat) : Nat := 0x1804C + 0x80 * i
def FBK_ERR_DITHER : Fld := ⟨31, 24⟩
def FBK_ERR_SSI_CNT : Fld := ⟨23, 16⟩
def FBK_ERR_QERR_CNT : Fld := ⟨15, 0⟩

/-- spec/07_feedback.md, header of line 384. -/
def EMU_CFG (i : Nat) : Nat := 0x18060 + 0x80 * i
def EMU_CFG_MIN : Fld := ⟨23, 16⟩
def EMU_CFG_INVERT : Fld := ⟨10, 10⟩
def EMU_CFG_Z_MODE : Fld := ⟨9, 8⟩
def EMU_CFG_SRC : Fld := ⟨5, 0⟩

/-- spec/07_feedback.md, header of line 396. -/
def EMU_RATIO (i : Nat) : Nat := 0x18064 + 0x80 * i
def EMU_RATIO_DEN : Fld := ⟨31, 16⟩
def EMU_RATIO_NUM : Fld := ⟨15, 0⟩

/-- spec/07_feedback.md, header of line 403. -/
def EMU_ZPER (i : Nat) : Nat := 0x18068 + 0x80 * i
def EMU_ZPER_ZPER : Fld := ⟨23, 0⟩

/-- spec/07_feedback.md, header of line 410. -/
def EMU_STAT (i : Nat) : Nat := 0x1806C + 0x80 * i

/-- spec/07_feedback.md, header of line 410. -/
def EMU_OUT (i : Nat) : Nat := 0x18070 + 0x80 * i

/-! ### MPG (spec/08_motion_profiles.md) -/

/-- spec/08_motion_profiles.md, header of line 251. -/
def MPG_CFG (i : Nat) : Nat := 0x1C000 + 0x100 * i
def MPG_CFG_REST_DELAY : Fld := ⟨27, 24⟩
def MPG_CFG_MASTER : Fld := ⟨21, 20⟩
def MPG_CFG_STEPGEN : Fld := ⟨17, 16⟩
def MPG_CFG_GEAR_SYNC : Fld := ⟨13, 13⟩
def MPG_CFG_OUT_IDX : Fld := ⟨12, 8⟩
def MPG_CFG_OUT : Fld := ⟨5, 4⟩
def MPG_CFG_MODE : Fld := ⟨2, 0⟩

/-- spec/08_motion_profiles.md, header of line 269. -/
def MPG_CMD (i : Nat) : Nat := 0x1C004 + 0x100 * i
def MPG_CMD_CMD : Fld := ⟨31, 28⟩

/-- spec/08_motion_profiles.md, header of line 276. -/
def MPG_TARGET_LO (i : Nat) : Nat := 0x1C008 + 0x100 * i

/-- spec/08_motion_profiles.md, header of line 276. -/
def MPG_TARGET_HI (i : Nat) : Nat := 0x1C00C + 0x100 * i

/-- spec/08_motion_profiles.md, header of line 276. -/
def MPG_JOG_V_LO (i : Nat) : Nat := 0x1C010 + 0x100 * i

/-- spec/08_motion_profiles.md, header of line 276. -/
def MPG_JOG_V_HI (i : Nat) : Nat := 0x1C014 + 0x100 * i

/-- spec/08_motion_profiles.md, header of line 276. -/
def MPG_STREAM_POS_LO (i : Nat) : Nat := 0x1C018 + 0x100 * i

/-- spec/08_motion_profiles.md, header of line 276. -/
def MPG_STREAM_POS_HI (i : Nat) : Nat := 0x1C01C + 0x100 * i

/-- spec/08_motion_profiles.md, header of line 276. -/
def MPG_STREAM_VEL_LO (i : Nat) : Nat := 0x1C020 + 0x100 * i

/-- spec/08_motion_profiles.md, header of line 276. -/
def MPG_STREAM_VEL_HI (i : Nat) : Nat := 0x1C024 + 0x100 * i

/-- spec/08_motion_profiles.md, header of line 276. -/
def MPG_SET_POS_LO (i : Nat) : Nat := 0x1C088 + 0x100 * i

/-- spec/08_motion_profiles.md, header of line 276. -/
def MPG_SET_POS_HI (i : Nat) : Nat := 0x1C08C + 0x100 * i

/-- spec/08_motion_profiles.md, header of line 282. -/
def MPG_GEAR_NUM (i : Nat) : Nat := 0x1C028 + 0x100 * i

/-- spec/08_motion_profiles.md, header of line 282. -/
def MPG_GEAR_DEN (i : Nat) : Nat := 0x1C02C + 0x100 * i

/-- spec/08_motion_profiles.md, header of line 288. -/
def MPG_STREAM_CFG (i : Nat) : Nat := 0x1C030 + 0x100 * i
def MPG_STREAM_CFG_STREAM_HOLD : Fld := ⟨7, 0⟩

/-- spec/08_motion_profiles.md, header of line 295. -/
def MPG_VSTART_LO (i : Nat) : Nat := 0x1C040 + 0x100 * i

/-- spec/08_motion_profiles.md, header of line 295. -/
def MPG_VSTART_HI (i : Nat) : Nat := 0x1C044 + 0x100 * i

/-- spec/08_motion_profiles.md, header of line 295. -/
def MPG_V1_LO (i : Nat) : Nat := 0x1C048 + 0x100 * i

/-- spec/08_motion_profiles.md, header of line 295. -/
def MPG_V1_HI (i : Nat) : Nat := 0x1C04C + 0x100 * i

/-- spec/08_motion_profiles.md, header of line 295. -/
def MPG_VMAX_LO (i : Nat) : Nat := 0x1C050 + 0x100 * i

/-- spec/08_motion_profiles.md, header of line 295. -/
def MPG_VMAX_HI (i : Nat) : Nat := 0x1C054 + 0x100 * i

/-- spec/08_motion_profiles.md, header of line 295. -/
def MPG_VSTOP_LO (i : Nat) : Nat := 0x1C058 + 0x100 * i

/-- spec/08_motion_profiles.md, header of line 295. -/
def MPG_VSTOP_HI (i : Nat) : Nat := 0x1C05C + 0x100 * i

/-- spec/08_motion_profiles.md, header of line 295. -/
def MPG_A1_LO (i : Nat) : Nat := 0x1C060 + 0x100 * i

/-- spec/08_motion_profiles.md, header of line 295. -/
def MPG_A1_HI (i : Nat) : Nat := 0x1C064 + 0x100 * i

/-- spec/08_motion_profiles.md, header of line 295. -/
def MPG_AMAX_LO (i : Nat) : Nat := 0x1C068 + 0x100 * i

/-- spec/08_motion_profiles.md, header of line 295. -/
def MPG_AMAX_HI (i : Nat) : Nat := 0x1C06C + 0x100 * i

/-- spec/08_motion_profiles.md, header of line 295. -/
def MPG_DMAX_LO (i : Nat) : Nat := 0x1C070 + 0x100 * i

/-- spec/08_motion_profiles.md, header of line 295. -/
def MPG_DMAX_HI (i : Nat) : Nat := 0x1C074 + 0x100 * i

/-- spec/08_motion_profiles.md, header of line 295. -/
def MPG_D1_LO (i : Nat) : Nat := 0x1C078 + 0x100 * i

/-- spec/08_motion_profiles.md, header of line 295. -/
def MPG_D1_HI (i : Nat) : Nat := 0x1C07C + 0x100 * i

/-- spec/08_motion_profiles.md, header of line 295. -/
def MPG_QDEC_LO (i : Nat) : Nat := 0x1C080 + 0x100 * i

/-- spec/08_motion_profiles.md, header of line 295. -/
def MPG_QDEC_HI (i : Nat) : Nat := 0x1C084 + 0x100 * i

/-- spec/08_motion_profiles.md, header of line 301. -/
def MPG_STAT (i : Nat) : Nat := 0x1C0A0 + 0x100 * i
def MPG_STAT_STEP_TIMER : Fld := ⟨15, 15⟩
def MPG_STAT_STANDSTILL : Fld := ⟨14, 14⟩
def MPG_STAT_HELD : Fld := ⟨13, 13⟩
def MPG_STAT_LIMITED : Fld := ⟨12, 12⟩
def MPG_STAT_CMD_REJ : Fld := ⟨7, 7⟩
def MPG_STAT_DEC_OVR : Fld := ⟨6, 6⟩
def MPG_STAT_REVERSED : Fld := ⟨5, 5⟩
def MPG_STAT_DONE : Fld := ⟨4, 4⟩
def MPG_STAT_PHASE : Fld := ⟨2, 0⟩

/-- spec/08_motion_profiles.md, header of line 318. -/
def MPG_CNT (i : Nat) : Nat := 0x1C0A4 + 0x100 * i
def MPG_CNT_REVERSALS : Fld := ⟨31, 16⟩
def MPG_CNT_LIM_TICKS : Fld := ⟨15, 0⟩

/-- spec/08_motion_profiles.md, header of line 325. -/
def MPG_POS_LO (i : Nat) : Nat := 0x1C0A8 + 0x100 * i

/-- spec/08_motion_profiles.md, header of line 325. -/
def MPG_POS_HI (i : Nat) : Nat := 0x1C0AC + 0x100 * i

/-- spec/08_motion_profiles.md, header of line 325. -/
def MPG_VEL_LO (i : Nat) : Nat := 0x1C0B0 + 0x100 * i

/-- spec/08_motion_profiles.md, header of line 325. -/
def MPG_VEL_HI (i : Nat) : Nat := 0x1C0B4 + 0x100 * i

/-- spec/08_motion_profiles.md, header of line 325. -/
def MPG_ACC_LO (i : Nat) : Nat := 0x1C0B8 + 0x100 * i

/-- spec/08_motion_profiles.md, header of line 325. -/
def MPG_ACC_HI (i : Nat) : Nat := 0x1C0BC + 0x100 * i

/-- spec/08_motion_profiles.md, header of line 325. -/
def MPG_OUT_POS_LO (i : Nat) : Nat := 0x1C0C0 + 0x100 * i

/-- spec/08_motion_profiles.md, header of line 325. -/
def MPG_OUT_POS_HI (i : Nat) : Nat := 0x1C0C4 + 0x100 * i

/-- spec/08_motion_profiles.md, header of line 325. -/
def MPG_LAG_LO (i : Nat) : Nat := 0x1C0C8 + 0x100 * i

/-- spec/08_motion_profiles.md, header of line 325. -/
def MPG_LAG_HI (i : Nat) : Nat := 0x1C0CC + 0x100 * i

/-! ### STP (spec/09_steppers_and_pwm.md) -/

/-- spec/09_steppers_and_pwm.md, header of line 230. -/
def STP_CFG (i : Nat) : Nat := 0x20000 + 0x100 * i
def STP_CFG_STOP_RAMP : Fld := ⟨23, 16⟩
def STP_CFG_REST_RAMP : Fld := ⟨15, 8⟩
def STP_CFG_DIR_INV : Fld := ⟨5, 5⟩
def STP_CFG_AMP_SRC : Fld := ⟨4, 4⟩
def STP_CFG_TABLE : Fld := ⟨3, 1⟩
def STP_CFG_TABLE_EN : Fld := ⟨0, 0⟩

/-- spec/09_steppers_and_pwm.md, header of line 243. -/
def STP_CUR (i : Nat) : Nat := 0x20004 + 0x100 * i
def STP_CUR_REST_CUR : Fld := ⟨26, 16⟩
def STP_CUR_RUN_CUR : Fld := ⟨10, 0⟩

/-- spec/09_steppers_and_pwm.md, header of line 252. -/
def STP_CHOP (i : Nat) : Nat := 0x20008 + 0x100 * i
def STP_CHOP_ON_LIMIT : Fld := ⟨31, 26⟩
def STP_CHOP_BLANK_LEN : Fld := ⟨25, 20⟩
def STP_CHOP_FAST_LEN : Fld := ⟨19, 10⟩
def STP_CHOP_OFF_LEN : Fld := ⟨9, 0⟩

/-- spec/09_steppers_and_pwm.md, header of line 261. -/
def STP_SENSE (i : Nat) : Nat := 0x2000C + 0x100 * i
def STP_SENSE_ZERO : Fld := ⟨31, 20⟩
def STP_SENSE_SENSE_PER : Fld := ⟨19, 16⟩
def STP_SENSE_AIN_B : Fld := ⟨14, 8⟩
def STP_SENSE_AIN_A : Fld := ⟨6, 0⟩

/-- spec/09_steppers_and_pwm.md, header of line 272. -/
def STP_LIMIT (i : Nat) : Nat := 0x20010 + 0x100 * i
def STP_LIMIT_OPEN_LIMIT : Fld := ⟨23, 16⟩
def STP_LIMIT_OC_LIMIT : Fld := ⟨10, 0⟩

/-- spec/09_steppers_and_pwm.md, header of line 281. -/
def STP_USTEP (i : Nat) : Nat := 0x20014 + 0x100 * i
def STP_USTEP_RES_RATE : Fld := ⟨23, 0⟩

/-- spec/09_steppers_and_pwm.md, header of line 288. -/
def STP_FSLVL (i : Nat) : Nat := 0x20018 + 0x100 * i
def STP_FSLVL_FULL_AMP : Fld := ⟨15, 0⟩

/-- spec/09_steppers_and_pwm.md, header of line 295. -/
def STP_CMD (i : Nat) : Nat := 0x2001C + 0x100 * i
def STP_CMD_CMD : Fld := ⟨31, 28⟩
def STP_CMD_EPOS_VAL : Fld := ⟨9, 0⟩

/-- spec/09_steppers_and_pwm.md, header of line 303. -/
def STP_STAT (i : Nat) : Nat := 0x20020 + 0x100 * i
def STP_STAT_CMD_REJ : Fld := ⟨19, 19⟩
def STP_STAT_ONMAX : Fld := ⟨18, 18⟩
def STP_STAT_REST : Fld := ⟨17, 17⟩
def STP_STAT_RESL : Fld := ⟨15, 12⟩
def STP_STAT_EPOS : Fld := ⟨9, 0⟩

/-- spec/09_steppers_and_pwm.md, header of line 316. -/
def STP_CNT (i : Nat) : Nat := 0x20024 + 0x100 * i
def STP_CNT_ONMAX_CNT : Fld := ⟨15, 0⟩

/-- spec/09_steppers_and_pwm.md, header of line 323. -/
def STP_MEAS (i : Nat) : Nat := 0x20028 + 0x100 * i
def STP_MEAS_B : Fld := ⟨31, 16⟩
def STP_MEAS_A : Fld := ⟨15, 0⟩

/-- spec/09_steppers_and_pwm.md, header of line 323. -/
def STP_TGT (i : Nat) : Nat := 0x2002C + 0x100 * i
def STP_TGT_B : Fld := ⟨31, 16⟩
def STP_TGT_A : Fld := ⟨15, 0⟩

/-- spec/09_steppers_and_pwm.md, header of line 330. -/
def STP_AMP (i : Nat) : Nat := 0x20030 + 0x100 * i
def STP_AMP_AMP : Fld := ⟨10, 0⟩

/-! ### PWM (spec/09_steppers_and_pwm.md) -/

/-- spec/09_steppers_and_pwm.md, header of line 348. -/
def PWM_CFG (i : Nat) : Nat := 0x24000 + 0x40 * i
def PWM_CFG_DIV : Fld := ⟨31, 24⟩
def PWM_CFG_FLT_STATE : Fld := ⟨17, 16⟩
def PWM_CFG_FLT_GRP : Fld := ⟨14, 12⟩
def PWM_CFG_LATCH : Fld := ⟨11, 11⟩
def PWM_CFG_CMP_SRC : Fld := ⟨10, 10⟩
def PWM_CFG_ACT_B : Fld := ⟨9, 9⟩
def PWM_CFG_ACT_A : Fld := ⟨8, 8⟩
def PWM_CFG_TSYNC : Fld := ⟨7, 7⟩
def PWM_CFG_MINP_STRETCH : Fld := ⟨6, 6⟩
def PWM_CFG_RLD_PEAK : Fld := ⟨5, 5⟩
def PWM_CFG_ALIGN : Fld := ⟨4, 4⟩
def PWM_CFG_A_ONLY : Fld := ⟨3, 3⟩
def PWM_CFG_MODE : Fld := ⟨2, 0⟩

/-- spec/09_steppers_and_pwm.md, header of line 368. -/
def PWM_PER (i : Nat) : Nat := 0x24004 + 0x40 * i
def PWM_PER_VALUE : Fld := ⟨19, 0⟩

/-- spec/09_steppers_and_pwm.md, header of line 368. -/
def PWM_CMP (i : Nat) : Nat := 0x24008 + 0x40 * i
def PWM_CMP_VALUE : Fld := ⟨19, 0⟩

/-- spec/09_steppers_and_pwm.md, header of line 375. -/
def PWM_DT (i : Nat) : Nat := 0x2400C + 0x40 * i
def PWM_DT_DTR : Fld := ⟨25, 16⟩
def PWM_DT_DTF : Fld := ⟨9, 0⟩

/-- spec/09_steppers_and_pwm.md, header of line 384. -/
def PWM_MINP (i : Nat) : Nat := 0x24010 + 0x40 * i
def PWM_MINP_VALUE : Fld := ⟨19, 0⟩

/-- spec/09_steppers_and_pwm.md, header of line 384. -/
def PWM_PMIN (i : Nat) : Nat := 0x24014 + 0x40 * i
def PWM_PMIN_VALUE : Fld := ⟨19, 0⟩

/-- spec/09_steppers_and_pwm.md, header of line 384. -/
def PWM_PMAX (i : Nat) : Nat := 0x24018 + 0x40 * i
def PWM_PMAX_VALUE : Fld := ⟨19, 0⟩

/-- spec/09_steppers_and_pwm.md, header of line 384. -/
def PWM_PHASE (i : Nat) : Nat := 0x2401C + 0x40 * i
def PWM_PHASE_VALUE : Fld := ⟨19, 0⟩

/-- spec/09_steppers_and_pwm.md, header of line 391. -/
def PWM_STAT (i : Nat) : Nat := 0x24020 + 0x40 * i
def PWM_STAT_SHADOW_PEND : Fld := ⟨4, 4⟩
def PWM_STAT_PER_CLAMP : Fld := ⟨3, 3⟩
def PWM_STAT_CMP_CLAMP : Fld := ⟨2, 2⟩
def PWM_STAT_MINP_EVT : Fld := ⟨1, 1⟩
def PWM_STAT_FLT_ACTIVE : Fld := ⟨0, 0⟩

/-- spec/09_steppers_and_pwm.md, header of line 402. -/
def PWM_CNT (i : Nat) : Nat := 0x24024 + 0x40 * i
def PWM_CNT_FLT_CYC : Fld := ⟨31, 16⟩
def PWM_CNT_MINP_CNT : Fld := ⟨15, 0⟩

/-- spec/09_steppers_and_pwm.md, header of line 409. -/
def PWM_ACT_PER (i : Nat) : Nat := 0x24028 + 0x40 * i
def PWM_ACT_PER_VALUE : Fld := ⟨19, 0⟩

/-- spec/09_steppers_and_pwm.md, header of line 409. -/
def PWM_ACT_CMP (i : Nat) : Nat := 0x2402C + 0x40 * i
def PWM_ACT_CMP_VALUE : Fld := ⟨19, 0⟩

/-- spec/09_steppers_and_pwm.md, header of line 416. -/
def PWM_FLT_CFG (i : Nat) : Nat := 0x24C00 + 0x4 * i
def PWM_FLT_CFG_EN : Fld := ⟨9, 9⟩
def PWM_FLT_CFG_ACT : Fld := ⟨8, 8⟩
def PWM_FLT_CFG_GROUPS : Fld := ⟨7, 0⟩

/-- spec/09_steppers_and_pwm.md, header of line 425. -/
def PWM_FLT_STAT : Nat := 0x24C20
def PWM_FLT_STAT_EVT : Fld := ⟨15, 8⟩
def PWM_FLT_STAT_LEVEL : Fld := ⟨7, 0⟩

/-! ### LPE (spec/10_loop_engine.md) -/

/-- spec/10_loop_engine.md, header of line 337. -/
def LPE_BUDGET : Nat := 0x28000
def LPE_BUDGET_WORST : Fld := ⟨31, 16⟩
def LPE_BUDGET_PER_PIPE : Fld := ⟨15, 0⟩

/-- spec/10_loop_engine.md, header of line 344. -/
def LPE_FLT (i : Nat) : Nat := 0x28100 + 0x4 * i

/-- spec/10_loop_engine.md, header of line 344. -/
def LPE_TRIP (i : Nat) : Nat := 0x28180 + 0x4 * i

/-- spec/10_loop_engine.md, header of line 350. -/
def LPE_MBOX (i : Nat) : Nat := 0x28800 + 0x4 * i

/-- spec/10_loop_engine.md, header of line 356. -/
def LPE_Y (i : Nat) : Nat := 0x29000 + 0x4 * i

/-- spec/10_loop_engine.md, header of line 356. -/
def LPE_YHAT (i : Nat) : Nat := 0x2A000 + 0x4 * i

/-- spec/10_loop_engine.md, header of line 356. -/
def LPE_E (i : Nat) : Nat := 0x2B000 + 0x4 * i

/-- spec/10_loop_engine.md, header of line 364. -/
def LPE_TRC_CFG (i : Nat) : Nat := 0x28200 + 0x20 * i
def LPE_TRC_CFG_EN : Fld := ⟨31, 31⟩
def LPE_TRC_CFG_TRIG : Fld := ⟨27, 26⟩
def LPE_TRC_CFG_SLOT : Fld := ⟨25, 16⟩
def LPE_TRC_CFG_NODES : Fld := ⟨15, 0⟩

/-- spec/10_loop_engine.md, header of line 374. -/
def LPE_TRC_BASE (i : Nat) : Nat := 0x28204 + 0x20 * i

/-- spec/10_loop_engine.md, header of line 380. -/
def LPE_TRC_CTRL (i : Nat) : Nat := 0x28208 + 0x20 * i
def LPE_TRC_CTRL_CMD : Fld := ⟨31, 28⟩
def LPE_TRC_CTRL_SIZE_LOG2 : Fld := ⟨24, 20⟩
def LPE_TRC_CTRL_POST : Fld := ⟨19, 0⟩

/-- spec/10_loop_engine.md, header of line 389. -/
def LPE_TRC_STAT (i : Nat) : Nat := 0x2820C + 0x20 * i
def LPE_TRC_STAT_DONE : Fld := ⟨31, 31⟩
def LPE_TRC_STAT_TRIGGERED : Fld := ⟨30, 30⟩
def LPE_TRC_STAT_WRAPPED : Fld := ⟨29, 29⟩
def LPE_TRC_STAT_BAD_REGION : Fld := ⟨28, 28⟩
def LPE_TRC_STAT_LOST : Fld := ⟨15, 0⟩

/-- spec/10_loop_engine.md, header of line 400. -/
def LPE_TRC_WPTR (i : Nat) : Nat := 0x28210 + 0x20 * i

/-- spec/10_loop_engine.md, header of line 400. -/
def LPE_TRC_TRIGPTR (i : Nat) : Nat := 0x28214 + 0x20 * i

/-! ### ADC (spec/11_analog.md) -/

/-- spec/11_analog.md, header of line 208. -/
def ADC_STAT : Nat := 0x2C000
def ADC_STAT_CAL_REJ : Fld := ⟨25, 25⟩
def ADC_STAT_INJ_REJ : Fld := ⟨24, 24⟩
def ADC_STAT_REF_EVT : Fld := ⟨20, 16⟩
def ADC_STAT_REF_ERR : Fld := ⟨12, 8⟩
def ADC_STAT_CAL_DONE : Fld := ⟨0, 0⟩

/-- spec/11_analog.md, header of line 222. -/
def ADC_CTRL : Nat := 0x2C004
def ADC_CTRL_CMD : Fld := ⟨31, 28⟩
def ADC_CTRL_GROUPS : Fld := ⟨4, 0⟩

/-- spec/11_analog.md, header of line 230. -/
def ADC_SAR_TICK (i : Nat) : Nat := 0x2C100 + 0x40 * i
def ADC_SAR_TICK_EN : Fld := ⟨31, 31⟩
def ADC_SAR_TICK_OPERAND : Fld := ⟨30, 30⟩
def ADC_SAR_TICK_MUX : Fld := ⟨2, 0⟩

/-- spec/11_analog.md, header of line 239. -/
def ADC_SAR_TRG (i j : Nat) : Nat := 0x2C104 + 0x40 * i + 0x4 * j
def ADC_SAR_TRG_EN : Fld := ⟨31, 31⟩
def ADC_SAR_TRG_OPERAND : Fld := ⟨30, 30⟩
def ADC_SAR_TRG_EVENT : Fld := ⟨29, 29⟩
def ADC_SAR_TRG_PAIR : Fld := ⟨21, 16⟩
def ADC_SAR_TRG_DELAY : Fld := ⟨15, 4⟩
def ADC_SAR_TRG_MUX : Fld := ⟨2, 0⟩

/-- spec/11_analog.md, header of line 252. -/
def ADC_SAR_BG (i j : Nat) : Nat := 0x2C114 + 0x40 * i + 0x4 * j
def ADC_SAR_BG_EN : Fld := ⟨31, 31⟩
def ADC_SAR_BG_OPERAND : Fld := ⟨30, 30⟩
def ADC_SAR_BG_AVG : Fld := ⟨11, 8⟩
def ADC_SAR_BG_SHIFT : Fld := ⟨7, 4⟩
def ADC_SAR_BG_MUX : Fld := ⟨2, 0⟩

/-- spec/11_analog.md, header of line 264. -/
def ADC_SAR_REQ (i : Nat) : Nat := 0x2C12C + 0x40 * i
def ADC_SAR_REQ_START : Fld := ⟨31, 31⟩
def ADC_SAR_REQ_BUSY : Fld := ⟨30, 30⟩
def ADC_SAR_REQ_DONE : Fld := ⟨29, 29⟩
def ADC_SAR_REQ_REQ_REJ : Fld := ⟨28, 28⟩
def ADC_SAR_REQ_AVG : Fld := ⟨11, 8⟩
def ADC_SAR_REQ_SHIFT : Fld := ⟨7, 4⟩
def ADC_SAR_REQ_MUX : Fld := ⟨2, 0⟩

/-- spec/11_analog.md, header of line 278. -/
def ADC_SAR_STAT (i : Nat) : Nat := 0x2C130 + 0x40 * i
def ADC_SAR_STAT_COILS : Fld := ⟨31, 28⟩
def ADC_SAR_STAT_DROP : Fld := ⟨23, 16⟩
def ADC_SAR_STAT_SLIP : Fld := ⟨15, 0⟩

/-- spec/11_analog.md, header of line 287. -/
def ADC_AIN_RES (i : Nat) : Nat := 0x2C800 + 0x8 * i
def ADC_AIN_RES_NEW : Fld := ⟨31, 31⟩
def ADC_AIN_RES_INJ : Fld := ⟨30, 30⟩
def ADC_AIN_RES_KIND : Fld := ⟨29, 28⟩
def ADC_AIN_RES_CODE : Fld := ⟨19, 0⟩

/-- spec/11_analog.md, header of line 297. -/
def ADC_AIN_TS (i : Nat) : Nat := 0x2C804 + 0x8 * i

/-- spec/11_analog.md, header of line 303. -/
def ADC_AIN_CFG (i : Nat) : Nat := 0x2CC00 + 0x4 * i
def ADC_AIN_CFG_STALE : Fld := ⟨7, 0⟩

/-- spec/11_analog.md, header of line 310. -/
def ADC_SD_CFG (i : Nat) : Nat := 0x2D000 + 0x20 * i
def ADC_SD_CFG_EN : Fld := ⟨31, 31⟩
def ADC_SD_CFG_OPERAND : Fld := ⟨30, 30⟩
def ADC_SD_CFG_STALE : Fld := ⟨15, 8⟩
def ADC_SD_CFG_ODR : Fld := ⟨3, 0⟩

/-- spec/11_analog.md, header of line 321. -/
def ADC_SD_RES (i : Nat) : Nat := 0x2D004 + 0x20 * i

/-- spec/11_analog.md, header of line 321. -/
def ADC_SD_TS (i : Nat) : Nat := 0x2D00C + 0x20 * i

/-- spec/11_analog.md, header of line 327. -/
def ADC_SD_STAT (i : Nat) : Nat := 0x2D008 + 0x20 * i
def ADC_SD_STAT_OVR : Fld := ⟨2, 2⟩
def ADC_SD_STAT_SETTLING : Fld := ⟨1, 1⟩
def ADC_SD_STAT_NEW : Fld := ⟨0, 0⟩

/-- spec/11_analog.md, header of line 336. -/
def ADC_TDAC (i : Nat) : Nat := 0x2D200 + 0x4 * i
def ADC_TDAC_EN : Fld := ⟨31, 31⟩
def ADC_TDAC_MODE : Fld := ⟨30, 30⟩
def ADC_TDAC_TARGET : Fld := ⟨20, 16⟩
def ADC_TDAC_CODE : Fld := ⟨9, 0⟩

/-! ### ACQ (spec/12_acquisition.md) -/

/-- spec/12_acquisition.md, header of line 152. -/
def ACQ_CFG (i : Nat) : Nat := 0x2E000 + 0x400 * i
def ACQ_CFG_SIZE_LOG2 : Fld := ⟨20, 16⟩
def ACQ_CFG_WIN_GATE : Fld := ⟨5, 4⟩
def ACQ_CFG_TRIG_REC : Fld := ⟨3, 3⟩
def ACQ_CFG_REC_INIT : Fld := ⟨2, 2⟩
def ACQ_CFG_MODE : Fld := ⟨0, 0⟩

/-- spec/12_acquisition.md, header of line 165. -/
def ACQ_BASE (i : Nat) : Nat := 0x2E004 + 0x400 * i

/-- spec/12_acquisition.md, header of line 171. -/
def ACQ_CTRL (i : Nat) : Nat := 0x2E008 + 0x400 * i
def ACQ_CTRL_CMD : Fld := ⟨31, 28⟩

/-- spec/12_acquisition.md, header of line 178. -/
def ACQ_STAT (i : Nat) : Nat := 0x2E00C + 0x400 * i
def ACQ_STAT_DONE : Fld := ⟨31, 31⟩
def ACQ_STAT_TRIGGERED : Fld := ⟨30, 30⟩
def ACQ_STAT_WRAPPED : Fld := ⟨29, 29⟩
def ACQ_STAT_RPTR_ERR : Fld := ⟨28, 28⟩
def ACQ_STAT_GAP_OPEN : Fld := ⟨27, 27⟩
def ACQ_STAT_REC : Fld := ⟨26, 26⟩
def ACQ_STAT_RUN : Fld := ⟨3, 3⟩
def ACQ_STAT_STATE : Fld := ⟨2, 0⟩

/-- spec/12_acquisition.md, header of line 192. -/
def ACQ_WPTR (i : Nat) : Nat := 0x2E010 + 0x400 * i

/-- spec/12_acquisition.md, header of line 192. -/
def ACQ_RPTR (i : Nat) : Nat := 0x2E014 + 0x400 * i

/-- spec/12_acquisition.md, header of line 192. -/
def ACQ_TRIGPTR (i : Nat) : Nat := 0x2E018 + 0x400 * i

/-- spec/12_acquisition.md, header of line 192. -/
def ACQ_LOST (i : Nat) : Nat := 0x2E01C + 0x400 * i

/-- spec/12_acquisition.md, header of line 198. -/
def ACQ_CNT (i : Nat) : Nat := 0x2E020 + 0x400 * i
def ACQ_CNT_CNT1_or_LIM1 : Fld := ⟨31, 16⟩
def ACQ_CNT_CNT0_or_LIM0 : Fld := ⟨15, 0⟩

/-- spec/12_acquisition.md, header of line 198. -/
def ACQ_CLIM (i : Nat) : Nat := 0x2E024 + 0x400 * i
def ACQ_CLIM_CNT1_or_LIM1 : Fld := ⟨31, 16⟩
def ACQ_CLIM_CNT0_or_LIM0 : Fld := ⟨15, 0⟩

/-- spec/12_acquisition.md, header of line 205. -/
def ACQ_TMR0 (i : Nat) : Nat := 0x2E028 + 0x400 * i

/-- spec/12_acquisition.md, header of line 205. -/
def ACQ_TMR1 (i : Nat) : Nat := 0x2E02C + 0x400 * i

/-- spec/12_acquisition.md, header of line 205. -/
def ACQ_POST (i : Nat) : Nat := 0x2E030 + 0x400 * i

/-- spec/12_acquisition.md, header of line 211. -/
def ACQ_W_CFG (i j : Nat) : Nat := 0x2E040 + 0x400 * i + 0x20 * j
def ACQ_W_CFG_EN : Fld := ⟨31, 31⟩
def ACQ_W_CFG_DOMAIN : Fld := ⟨30, 30⟩
def ACQ_W_CFG_MASTER : Fld := ⟨29, 28⟩

/-- spec/12_acquisition.md, header of line 211. -/
def ACQ_W_START_LO (i j : Nat) : Nat := 0x2E044 + 0x400 * i + 0x20 * j

/-- spec/12_acquisition.md, header of line 211. -/
def ACQ_W_START_HI (i j : Nat) : Nat := 0x2E048 + 0x400 * i + 0x20 * j

/-- spec/12_acquisition.md, header of line 211. -/
def ACQ_W_LEN (i j : Nat) : Nat := 0x2E04C + 0x400 * i + 0x20 * j

/-- spec/12_acquisition.md, header of line 211. -/
def ACQ_W_PERIOD (i j : Nat) : Nat := 0x2E050 + 0x400 * i + 0x20 * j

/-- spec/12_acquisition.md, header of line 217. -/
def ACQ_S_A (i j : Nat) : Nat := 0x2E080 + 0x400 * i + 0x8 * j
def ACQ_S_A_COND : Fld := ⟨31, 28⟩
def ACQ_S_A_SEL : Fld := ⟨27, 24⟩
def ACQ_S_A_NEXT : Fld := ⟨23, 21⟩
def ACQ_S_A_TRIG : Fld := ⟨20, 20⟩
def ACQ_S_A_REC_ON : Fld := ⟨19, 19⟩
def ACQ_S_A_REC_OFF : Fld := ⟨18, 18⟩
def ACQ_S_A_CNT : Fld := ⟨17, 16⟩
def ACQ_S_A_TMR : Fld := ⟨15, 14⟩

/-- spec/12_acquisition.md, header of line 217. -/
def ACQ_S_B (i j : Nat) : Nat := 0x2E084 + 0x400 * i + 0x8 * j
def ACQ_S_B_COND : Fld := ⟨31, 28⟩
def ACQ_S_B_SEL : Fld := ⟨27, 24⟩
def ACQ_S_B_NEXT : Fld := ⟨23, 21⟩
def ACQ_S_B_TRIG : Fld := ⟨20, 20⟩
def ACQ_S_B_REC_ON : Fld := ⟨19, 19⟩
def ACQ_S_B_REC_OFF : Fld := ⟨18, 18⟩
def ACQ_S_B_CNT : Fld := ⟨17, 16⟩
def ACQ_S_B_TMR : Fld := ⟨15, 14⟩

/-- spec/12_acquisition.md, header of line 231. -/
def ACQ_CH_CFG (i j : Nat) : Nat := 0x2E100 + 0x400 * i + 0x10 * j
def ACQ_CH_CFG_EN : Fld := ⟨31, 31⟩
def ACQ_CH_CFG_TYPE : Fld := ⟨30, 28⟩
def ACQ_CH_CFG_MARK : Fld := ⟨27, 27⟩
def ACQ_CH_CFG_OPERAND : Fld := ⟨26, 26⟩
def ACQ_CH_CFG_DECIM : Fld := ⟨23, 16⟩
def ACQ_CH_CFG_RATE : Fld := ⟨15, 12⟩
def ACQ_CH_CFG_INDEX : Fld := ⟨6, 0⟩

/-- spec/12_acquisition.md, header of line 245. -/
def ACQ_CH_THR (i j : Nat) : Nat := 0x2E104 + 0x400 * i + 0x10 * j

/-- spec/12_acquisition.md, header of line 245. -/
def ACQ_CH_MARK (i j : Nat) : Nat := 0x2E108 + 0x400 * i + 0x10 * j
def ACQ_CH_MARK_MASTER : Fld := ⟨31, 30⟩
def ACQ_CH_MARK_MAXGAP : Fld := ⟨29, 24⟩
def ACQ_CH_MARK_HYST : Fld := ⟨11, 0⟩

/-- spec/12_acquisition.md, header of line 245. -/
def ACQ_CH_SKEW (i j : Nat) : Nat := 0x2E10C + 0x400 * i + 0x10 * j

/-! ### SCH (spec/13_cores_and_scheduler.md) -/

/-- spec/13_cores_and_scheduler.md, header of line 228. -/
def SCH_RES : Nat := 0x30000
def SCH_RES_CTRL_SLOTS : Fld := ⟨27, 16⟩
def SCH_RES_CTRL_OPS : Fld := ⟨13, 0⟩

/-- spec/13_cores_and_scheduler.md, header of line 237. -/
def SCH_OCC : Nat := 0x30004
def SCH_OCC_OPS_USED : Fld := ⟨29, 16⟩
def SCH_OCC_LATE_REL : Fld := ⟨15, 13⟩
def SCH_OCC_SLOTS_USED : Fld := ⟨12, 0⟩

/-- spec/13_cores_and_scheduler.md, header of line 246. -/
def SCH_ERR : Nat := 0x30008
def SCH_ERR_REL_REFUSED : Fld := ⟨6, 6⟩
def SCH_ERR_ECC : Fld := ⟨5, 5⟩
def SCH_ERR_FULL_OPS : Fld := ⟨4, 4⟩
def SCH_ERR_FULL_SLOTS : Fld := ⟨3, 3⟩
def SCH_ERR_NOT_ARMED : Fld := ⟨2, 2⟩
def SCH_ERR_BAD_KEY : Fld := ⟨1, 1⟩
def SCH_ERR_BAD_DESC : Fld := ⟨0, 0⟩

/-- spec/13_cores_and_scheduler.md, header of line 259. -/
def SCH_CNT : Nat := 0x3000C
def SCH_CNT_DROPPED : Fld := ⟨31, 16⟩
def SCH_CNT_UNMATCHED : Fld := ⟨15, 0⟩

/-- spec/13_cores_and_scheduler.md, header of line 266. -/
def SCH_BUDGET : Nat := 0x30010
def SCH_BUDGET_EST_SHIFT : Fld := ⟨23, 20⟩
def SCH_BUDGET_WIN : Fld := ⟨19, 16⟩
def SCH_BUDGET_BUDGET_MW : Fld := ⟨15, 0⟩

/-- spec/13_cores_and_scheduler.md, header of line 275. -/
def SCH_THERM : Nat := 0x30014
def SCH_THERM_T_HARD : Fld := ⟨15, 8⟩
def SCH_THERM_T_SOFT : Fld := ⟨7, 0⟩

/-- spec/13_cores_and_scheduler.md, header of line 283. -/
def SCH_PWR_STAT : Nat := 0x30018
def SCH_PWR_STAT_EFF_MW : Fld := ⟨31, 16⟩
def SCH_PWR_STAT_MEAS_MW : Fld := ⟨15, 0⟩

/-- spec/13_cores_and_scheduler.md, header of line 290. -/
def SCH_ECOEF : Nat := 0x3001C
def SCH_ECOEF_F3 : Fld := ⟨31, 24⟩
def SCH_ECOEF_F2 : Fld := ⟨23, 16⟩
def SCH_ECOEF_F1 : Fld := ⟨15, 8⟩
def SCH_ECOEF_F0 : Fld := ⟨7, 0⟩

/-- spec/13_cores_and_scheduler.md, header of line 290. -/
def SCH_BASE : Nat := 0x30020
def SCH_BASE_BASE_MW : Fld := ⟨15, 0⟩

/-- spec/13_cores_and_scheduler.md, header of line 290. -/
def SCH_OPCFG : Nat := 0x30034
def SCH_OPCFG_OP_AGE : Fld := ⟨7, 0⟩

/-- spec/13_cores_and_scheduler.md, header of line 296. -/
def SCH_THROTTLE : Nat := 0x30024
def SCH_THROTTLE_SLOWS : Fld := ⟨31, 16⟩
def SCH_THROTTLE_DELAYS : Fld := ⟨15, 0⟩

/-- spec/13_cores_and_scheduler.md, header of line 303. -/
def SCH_OPEN0 : Nat := 0x30028

/-- spec/13_cores_and_scheduler.md, header of line 303. -/
def SCH_OPEN1 : Nat := 0x3002C

/-- spec/13_cores_and_scheduler.md, header of line 303. -/
def SCH_OPEN2 : Nat := 0x30030

/-- spec/13_cores_and_scheduler.md, header of line 309. -/
def SCH_POST_VAL : Nat := 0x30040

/-- spec/13_cores_and_scheduler.md, header of line 309. -/
def SCH_POST_KEY : Nat := 0x30044

/-- spec/13_cores_and_scheduler.md, header of line 309. -/
def SCH_CANCEL : Nat := 0x30048

/-- spec/13_cores_and_scheduler.md, header of line 315. -/
def SCH_EDDY_CFG : Nat := 0x30050
def SCH_EDDY_CFG_KINDS : Fld := ⟨15, 0⟩

/-- spec/13_cores_and_scheduler.md, header of line 315. -/
def SCH_EDDY_STAT : Nat := 0x30054
def SCH_EDDY_STAT_LOST : Fld := ⟨31, 16⟩

/-- spec/13_cores_and_scheduler.md, header of line 322. -/
def SCH_FLOW_CFG (i : Nat) : Nat := 0x30400 + 0x4 * i
def SCH_FLOW_CFG_CMD : Fld := ⟨31, 28⟩
def SCH_FLOW_CFG_ON_ABORT : Fld := ⟨1, 1⟩
def SCH_FLOW_CFG_ORDERED : Fld := ⟨0, 0⟩

/-- spec/13_cores_and_scheduler.md, header of line 331. -/
def SCH_FLOW_STAT (i : Nat) : Nat := 0x30800 + 0x4 * i
def SCH_FLOW_STAT_HALTED : Fld := ⟨31, 31⟩
def SCH_FLOW_STAT_HELD : Fld := ⟨27, 16⟩
def SCH_FLOW_STAT_NEXT_REL : Fld := ⟨15, 0⟩

/-- spec/13_cores_and_scheduler.md, header of line 340. -/
def SCH_CLASS (i : Nat) : Nat := 0x30C00 + 0x4 * i
def SCH_CLASS_SLOWEST : Fld := ⟨25, 24⟩
def SCH_CLASS_C_EST : Fld := ⟨23, 0⟩

/-- spec/13_cores_and_scheduler.md, header of line 348. -/
def SCH_CORE_CFG (i : Nat) : Nat := 0x31000 + 0x80 * i
def SCH_CORE_CFG_LOCK : Fld := ⟨8, 8⟩
def SCH_CORE_CFG_PREEMPT : Fld := ⟨4, 4⟩
def SCH_CORE_CFG_PLANES : Fld := ⟨2, 0⟩

/-- spec/13_cores_and_scheduler.md, header of line 359. -/
def SCH_CORE_BOOT (i : Nat) : Nat := 0x31004 + 0x80 * i

/-- spec/13_cores_and_scheduler.md, header of line 359. -/
def SCH_CORE_CTRL (i : Nat) : Nat := 0x31008 + 0x80 * i
def SCH_CORE_CTRL_CMD : Fld := ⟨31, 28⟩

/-- spec/13_cores_and_scheduler.md, header of line 366. -/
def SCH_CORE_STAT (i : Nat) : Nat := 0x3100C + 0x80 * i
def SCH_CORE_STAT_RELQ_N : Fld := ⟨12, 8⟩
def SCH_CORE_STAT_RELQ_ERR : Fld := ⟨7, 7⟩
def SCH_CORE_STAT_LEVEL : Fld := ⟨5, 4⟩
def SCH_CORE_STAT_STATE : Fld := ⟨1, 0⟩

/-- spec/13_cores_and_scheduler.md, header of line 378. -/
def SCH_CORE_CUR (i : Nat) : Nat := 0x31010 + 0x80 * i
def SCH_CORE_CUR_NEW : Fld := ⟨31, 31⟩
def SCH_CORE_CUR_PREEMPT : Fld := ⟨30, 30⟩
def SCH_CORE_CUR_RESUMED : Fld := ⟨29, 29⟩
def SCH_CORE_CUR_DEPTH : Fld := ⟨28, 26⟩
def SCH_CORE_CUR_LEVEL : Fld := ⟨25, 24⟩
def SCH_CORE_CUR_PLANE : Fld := ⟨23, 22⟩
def SCH_CORE_CUR_VALID : Fld := ⟨21, 21⟩
def SCH_CORE_CUR_SLOT : Fld := ⟨11, 0⟩

/-- spec/13_cores_and_scheduler.md, header of line 392. -/
def SCH_CORE_CUR_ARG (i : Nat) : Nat := 0x31014 + 0x80 * i

/-- spec/13_cores_and_scheduler.md, header of line 392. -/
def SCH_CORE_CUR_OP0 (i : Nat) : Nat := 0x31018 + 0x80 * i

/-- spec/13_cores_and_scheduler.md, header of line 392. -/
def SCH_CORE_CUR_OP1 (i : Nat) : Nat := 0x3101C + 0x80 * i

/-- spec/13_cores_and_scheduler.md, header of line 392. -/
def SCH_CORE_CUR_OP2 (i : Nat) : Nat := 0x31020 + 0x80 * i

/-- spec/13_cores_and_scheduler.md, header of line 392. -/
def SCH_CORE_CUR_OP3 (i : Nat) : Nat := 0x31024 + 0x80 * i

/-- spec/13_cores_and_scheduler.md, header of line 392. -/
def SCH_CORE_CUR_ENTRY (i : Nat) : Nat := 0x31050 + 0x80 * i

/-- spec/13_cores_and_scheduler.md, header of line 392. -/
def SCH_CORE_CYCLES (i : Nat) : Nat := 0x3104C + 0x80 * i

/-- spec/13_cores_and_scheduler.md, header of line 392. -/
def SCH_CORE_SUBMIT_RES (i : Nat) : Nat := 0x31048 + 0x80 * i
def SCH_CORE_SUBMIT_RES_ACCEPTED : Fld := ⟨31, 31⟩
def SCH_CORE_SUBMIT_RES_REFUSAL : Fld := ⟨22, 16⟩
def SCH_CORE_SUBMIT_RES_SLOT : Fld := ⟨11, 0⟩

/-- spec/13_cores_and_scheduler.md, header of line 398. -/
def SCH_CORE_DONE_VAL (i : Nat) : Nat := 0x31028 + 0x80 * i

/-- spec/13_cores_and_scheduler.md, header of line 398. -/
def SCH_CORE_DONE (i : Nat) : Nat := 0x3102C + 0x80 * i
def SCH_CORE_DONE_STATUS : Fld := ⟨0, 0⟩

/-- spec/13_cores_and_scheduler.md, header of line 398. -/
def SCH_CORE_RELQ_ADDR (i : Nat) : Nat := 0x31030 + 0x80 * i

/-- spec/13_cores_and_scheduler.md, header of line 398. -/
def SCH_CORE_RELQ_DATA (i : Nat) : Nat := 0x31034 + 0x80 * i

/-- spec/13_cores_and_scheduler.md, header of line 398. -/
def SCH_CORE_MTIMECMP_LO (i : Nat) : Nat := 0x31038 + 0x80 * i

/-- spec/13_cores_and_scheduler.md, header of line 398. -/
def SCH_CORE_MTIMECMP_HI (i : Nat) : Nat := 0x3103C + 0x80 * i

/-- spec/13_cores_and_scheduler.md, header of line 398. -/
def SCH_CORE_MSIP (i : Nat) : Nat := 0x31040 + 0x80 * i
def SCH_CORE_MSIP_MSIP : Fld := ⟨0, 0⟩

/-- spec/13_cores_and_scheduler.md, header of line 398. -/
def SCH_CORE_SUBMIT (i : Nat) : Nat := 0x31044 + 0x80 * i

/-! ### SCN (spec/14_scan_engine.md) -/

/-- spec/14_scan_engine.md, header of line 285. -/
def SCN_CFG : Nat := 0x34000
def SCN_CFG_STOP_OUT : Fld := ⟨29, 29⟩
def SCN_CFG_START_MODE : Fld := ⟨28, 28⟩
def SCN_CFG_WARN_PCT : Fld := ⟨26, 20⟩
def SCN_CFG_PERIOD_US : Fld := ⟨19, 0⟩

/-- spec/14_scan_engine.md, header of line 296. -/
def SCN_CFG2 : Nat := 0x34004
def SCN_CFG2_RET_EVERY : Fld := ⟨15, 8⟩
def SCN_CFG2_SKIP_LIMIT : Fld := ⟨7, 0⟩

/-- spec/14_scan_engine.md, header of line 304. -/
def SCN_PROG_LEN : Nat := 0x34010
def SCN_PROG_LEN_CODE_LEN : Fld := ⟨16, 0⟩

/-- spec/14_scan_engine.md, header of line 304. -/
def SCN_RET_DM : Nat := 0x34014
def SCN_RET_DM_RET_M : Fld := ⟨25, 16⟩
def SCN_RET_DM_RET_D : Fld := ⟨12, 0⟩

/-- spec/14_scan_engine.md, header of line 304. -/
def SCN_RET_TC : Nat := 0x34018
def SCN_RET_TC_RET_C : Fld := ⟨25, 16⟩
def SCN_RET_TC_RET_T : Fld := ⟨10, 0⟩

/-- spec/14_scan_engine.md, header of line 312. -/
def SCN_STAT : Nat := 0x34020
def SCN_STAT_FORCE_REJ : Fld := ⟨7, 7⟩
def SCN_STAT_SKIP_EVT : Fld := ⟨6, 6⟩
def SCN_STAT_OVR_WARN : Fld := ⟨5, 5⟩
def SCN_STAT_RET_LOST : Fld := ⟨4, 4⟩
def SCN_STAT_WCET_OVER : Fld := ⟨3, 3⟩
def SCN_STAT_FORCED : Fld := ⟨2, 2⟩
def SCN_STAT_EXEC : Fld := ⟨1, 1⟩
def SCN_STAT_WARM_LOADED : Fld := ⟨0, 0⟩

/-- spec/14_scan_engine.md, header of line 326. -/
def SCN_CYCLES_LO : Nat := 0x34024

/-- spec/14_scan_engine.md, header of line 326. -/
def SCN_CYCLES_HI : Nat := 0x34028

/-- spec/14_scan_engine.md, header of line 332. -/
def SCN_EXEC : Nat := 0x3402C
def SCN_EXEC_VALUE : Fld := ⟨19, 0⟩

/-- spec/14_scan_engine.md, header of line 332. -/
def SCN_WCET : Nat := 0x34030
def SCN_WCET_VALUE : Fld := ⟨19, 0⟩

/-- spec/14_scan_engine.md, header of line 339. -/
def SCN_CNT : Nat := 0x34034
def SCN_CNT_WARN_CNT : Fld := ⟨31, 16⟩
def SCN_CNT_SKIP_CNT : Fld := ⟨15, 0⟩

/-- spec/14_scan_engine.md, header of line 346. -/
def SCN_RET_STAT : Nat := 0x34038
def SCN_RET_STAT_RET_SKIP : Fld := ⟨31, 16⟩
def SCN_RET_STAT_WRITING : Fld := ⟨1, 1⟩
def SCN_RET_STAT_NEWEST : Fld := ⟨0, 0⟩

/-- spec/14_scan_engine.md, header of line 355. -/
def SCN_CHECK : Nat := 0x3403C
def SCN_CHECK_ADDR : Fld := ⟨31, 16⟩
def SCN_CHECK_CODE : Fld := ⟨7, 0⟩

/-- spec/14_scan_engine.md, header of line 363. -/
def SCN_WIN : Nat := 0x34040
def SCN_WIN_AREA : Fld := ⟨19, 16⟩
def SCN_WIN_PAGE : Fld := ⟨5, 0⟩

/-- spec/14_scan_engine.md, header of line 372. -/
def SCN_FORCE_SEL (i : Nat) : Nat := 0x34100 + 0x8 * i
def SCN_FORCE_SEL_EN : Fld := ⟨31, 31⟩
def SCN_FORCE_SEL_AREA : Fld := ⟨25, 22⟩
def SCN_FORCE_SEL_ADDR : Fld := ⟨15, 0⟩

/-- spec/14_scan_engine.md, header of line 372. -/
def SCN_FORCE_VAL (i : Nat) : Nat := 0x34104 + 0x8 * i

/-! ### FLK (spec/15_field_link_and_can.md) -/

/-- spec/15_field_link_and_can.md, header of line 203. -/
def FLK_PORT_CFG (i : Nat) : Nat := 0x36000 + 0x40 * i
def FLK_PORT_CFG_LOST_LIMIT : Fld := ⟨31, 24⟩
def FLK_PORT_CFG_WD : Fld := ⟨19, 16⟩
def FLK_PORT_CFG_HOLD : Fld := ⟨11, 8⟩
def FLK_PORT_CFG_EXP : Fld := ⟨3, 0⟩

/-- spec/15_field_link_and_can.md, header of line 215. -/
def FLK_PORT_CMD (i : Nat) : Nat := 0x36004 + 0x40 * i
def FLK_PORT_CMD_CMD : Fld := ⟨31, 28⟩
def FLK_PORT_CMD_MASK : Fld := ⟨3, 0⟩

/-- spec/15_field_link_and_can.md, header of line 223. -/
def FLK_PORT_STAT (i : Nat) : Nat := 0x36008 + 0x40 * i
def FLK_PORT_STAT_PNAK_CH : Fld := ⟨27, 24⟩
def FLK_PORT_STAT_PNAK_EXP : Fld := ⟨23, 22⟩
def FLK_PORT_STAT_DIAG : Fld := ⟨21, 21⟩
def FLK_PORT_STAT_PNAK : Fld := ⟨20, 20⟩
def FLK_PORT_STAT_LATE : Fld := ⟨19, 19⟩
def FLK_PORT_STAT_PARAM_DONE : Fld := ⟨17, 17⟩
def FLK_PORT_STAT_CUR : Fld := ⟨16, 16⟩
def FLK_PORT_STAT_OSUB : Fld := ⟨15, 12⟩
def FLK_PORT_STAT_UV : Fld := ⟨11, 8⟩
def FLK_PORT_STAT_SAG : Fld := ⟨7, 4⟩
def FLK_PORT_STAT_VALID : Fld := ⟨3, 0⟩

/-- spec/15_field_link_and_can.md, header of line 241. -/
def FLK_PORT_CNT (i : Nat) : Nat := 0x3600C + 0x40 * i
def FLK_PORT_CNT_MISS : Fld := ⟨31, 16⟩
def FLK_PORT_CNT_CRC_ERR : Fld := ⟨15, 0⟩

/-- spec/15_field_link_and_can.md, header of line 248. -/
def FLK_PORT_FRAMES (i : Nat) : Nat := 0x36010 + 0x40 * i

/-- spec/15_field_link_and_can.md, header of line 248. -/
def FLK_PORT_RTT (i : Nat) : Nat := 0x36014 + 0x40 * i

/-- spec/15_field_link_and_can.md, header of line 254. -/
def FLK_PT_CFG (i : Nat) : Nat := 0x36800 + 0x8 * i
def FLK_PT_CFG_TYPE : Fld := ⟨31, 29⟩
def FLK_PT_CFG_WB : Fld := ⟨28, 28⟩
def FLK_PT_CFG_FILT : Fld := ⟨27, 25⟩
def FLK_PT_CFG_OHOLD : Fld := ⟨24, 24⟩
def FLK_PT_CFG_OSUB : Fld := ⟨23, 12⟩
def FLK_PT_CFG_ISUB : Fld := ⟨11, 0⟩

/-- spec/15_field_link_and_can.md, header of line 265. -/
def FLK_PT_VAL (i : Nat) : Nat := 0x36804 + 0x8 * i

/-- spec/15_field_link_and_can.md, header of line 271. -/
def FLK_PT_STAT (i : Nat) : Nat := 0x37800 + 0x4 * i
def FLK_PT_STAT_EVT : Fld := ⟨5, 5⟩
def FLK_PT_STAT_SUBST : Fld := ⟨4, 4⟩
def FLK_PT_STAT_CODE : Fld := ⟨3, 0⟩

/-! ### SAF (spec/16_safety_and_twin.md) -/

/-- spec/16_safety_and_twin.md, header of line 168. -/
def SAF_STAT : Nat := 0x38000
def SAF_STAT_OUT_FAULT : Fld := ⟨31, 24⟩
def SAF_STAT_OUT_SQUALL : Fld := ⟨23, 16⟩
def SAF_STAT_OUT_ON : Fld := ⟨15, 8⟩
def SAF_STAT_TAMPER : Fld := ⟨5, 5⟩
def SAF_STAT_SEAL_CLOSED : Fld := ⟨4, 4⟩
def SAF_STAT_SEALED : Fld := ⟨3, 3⟩
def SAF_STAT_STATE : Fld := ⟨2, 0⟩

/-- spec/16_safety_and_twin.md, header of line 193. -/
def SAF_CNT : Nat := 0x38020

/-- spec/16_safety_and_twin.md, header of line 193. -/
def SAF_IN : Nat := 0x38004

/-- spec/16_safety_and_twin.md, header of line 193. -/
def SAF_RB : Nat := 0x38008

/-- spec/16_safety_and_twin.md, header of line 193. -/
def SAF_SEAL : Nat := 0x3800C

/-- spec/16_safety_and_twin.md, header of line 193. -/
def SAF_CRC : Nat := 0x38010

/-- spec/16_safety_and_twin.md, header of line 193. -/
def SAF_SEALED_CRC : Nat := 0x38014

/-- spec/16_safety_and_twin.md, header of line 193. -/
def SAF_SQUALL : Nat := 0x38018

/-- spec/16_safety_and_twin.md, header of line 193. -/
def SAF_LOCK : Nat := 0x3801C

/-! ### TWN (spec/16_safety_and_twin.md) -/

/-- spec/16_safety_and_twin.md, header of line 314. -/
def TWN_CFG : Nat := 0x3A000
def TWN_CFG_OWN_PIN : Fld := ⟨16, 8⟩
def TWN_CFG_SHADOW_FIRE : Fld := ⟨1, 1⟩
def TWN_CFG_PREF : Fld := ⟨0, 0⟩

/-- spec/16_safety_and_twin.md, header of line 324. -/
def TWN_CMD : Nat := 0x3A004
def TWN_CMD_CMD : Fld := ⟨31, 28⟩

/-- spec/16_safety_and_twin.md, header of line 331. -/
def TWN_STAT : Nat := 0x3A008
def TWN_STAT_LAST_CAUSE : Fld := ⟨23, 16⟩
def TWN_STAT_TOKEN : Fld := ⟨15, 8⟩
def TWN_STAT_HO_REJ : Fld := ⟨7, 7⟩
def TWN_STAT_PEER_LOST : Fld := ⟨6, 6⟩
def TWN_STAT_LANE_EVT : Fld := ⟨5, 5⟩
def TWN_STAT_TAKEOVER : Fld := ⟨4, 4⟩
def TWN_STAT_LANE1 : Fld := ⟨3, 3⟩
def TWN_STAT_LANE0 : Fld := ⟨2, 2⟩
def TWN_STAT_ROLE : Fld := ⟨1, 0⟩

/-- spec/16_safety_and_twin.md, header of line 346. -/
def TWN_CNT : Nat := 0x3A00C
def TWN_CNT_MISMATCH : Fld := ⟨31, 16⟩
def TWN_CNT_STATE_MISS : Fld := ⟨15, 0⟩

/-- spec/16_safety_and_twin.md, header of line 346. -/
def TWN_PEER : Nat := 0x3A010

/-! ### EVR (spec/17_power_and_recorder.md) -/

/-- spec/17_power_and_recorder.md, header of line 281. -/
def EVR_CTRL : Nat := 0x3C000
def EVR_CTRL_CMD : Fld := ⟨31, 28⟩

/-- spec/17_power_and_recorder.md, header of line 288. -/
def EVR_ARG : Nat := 0x3C004

/-- spec/17_power_and_recorder.md, header of line 288. -/
def EVR_TRIG : Nat := 0x3C008

/-- spec/17_power_and_recorder.md, header of line 294. -/
def EVR_STAT : Nat := 0x3C00C
def EVR_STAT_CLR_FAIL : Fld := ⟨31, 24⟩
def EVR_STAT_CLR_REJ : Fld := ⟨23, 23⟩
def EVR_STAT_AUTH_SET : Fld := ⟨22, 22⟩
def EVR_STAT_BUSY_ERASE : Fld := ⟨21, 21⟩
def EVR_STAT_QUEUE : Fld := ⟨20, 15⟩
def EVR_STAT_COUNT : Fld := ⟨14, 0⟩

/-- spec/17_power_and_recorder.md, header of line 305. -/
def EVR_LOST : Nat := 0x3C010

/-- spec/17_power_and_recorder.md, header of line 305. -/
def EVR_CLEARS : Nat := 0x3C014

/-- spec/17_power_and_recorder.md, header of line 305. -/
def EVR_SEQ_FIRST : Nat := 0x3C018

/-- spec/17_power_and_recorder.md, header of line 305. -/
def EVR_SEQ_LAST : Nat := 0x3C01C

/-- spec/17_power_and_recorder.md, header of line 311. -/
def EVR_RD_SEQ : Nat := 0x3C020

/-- spec/17_power_and_recorder.md, header of line 311. -/
def EVR_RD_STAT : Nat := 0x3C024
def EVR_RD_STAT_CRC_ERR : Fld := ⟨2, 2⟩
def EVR_RD_STAT_VALID : Fld := ⟨1, 1⟩
def EVR_RD_STAT_READY : Fld := ⟨0, 0⟩

/-- spec/17_power_and_recorder.md, header of line 320. -/
def EVR_SEL (i : Nat) : Nat := 0x3C040 + 0x4 * i
def EVR_SEL_EN : Fld := ⟨31, 31⟩
def EVR_SEL_OFFSET : Fld := ⟨19, 0⟩

/-- spec/17_power_and_recorder.md, header of line 328. -/
def EVR_WIN (i : Nat) : Nat := 0x3C100 + 0x4 * i

/-! ### MFP (spec/02_balls_supplies_pins.md) -/

/-- spec/02_balls_supplies_pins.md, header of line 195. -/
def MFP_PIN (i : Nat) : Nat := 0x3E000 + 0x4 * i
def MFP_PIN_LEVEL : Fld := ⟨31, 31⟩
def MFP_PIN_FILT : Fld := ⟨15, 12⟩
def MFP_PIN_INV : Fld := ⟨11, 11⟩
def MFP_PIN_SCHMITT : Fld := ⟨10, 10⟩
def MFP_PIN_OD : Fld := ⟨9, 9⟩
def MFP_PIN_SLEW : Fld := ⟨8, 8⟩
def MFP_PIN_DRIVE : Fld := ⟨7, 6⟩
def MFP_PIN_PULL : Fld := ⟨5, 4⟩
def MFP_PIN_FSEL : Fld := ⟨2, 0⟩

/-- spec/02_balls_supplies_pins.md, header of line 221. -/
def MFP_GPIO_DIN (i : Nat) : Nat := 0x3E900 + 0x10 * i

/-- spec/02_balls_supplies_pins.md, header of line 227. -/
def MFP_GPIO_DOUT (i : Nat) : Nat := 0x3E904 + 0x10 * i

/-- spec/02_balls_supplies_pins.md, header of line 233. -/
def MFP_GPIO_OE (i : Nat) : Nat := 0x3E908 + 0x10 * i

/-- spec/02_balls_supplies_pins.md, header of line 245. -/
def MFP_BANK_CFG : Nat := 0x3E800
def MFP_BANK_CFG_EXP8 : Fld := ⟨17, 16⟩
def MFP_BANK_CFG_EXP7 : Fld := ⟨15, 14⟩
def MFP_BANK_CFG_EXP6 : Fld := ⟨13, 12⟩
def MFP_BANK_CFG_EXP5 : Fld := ⟨11, 10⟩
def MFP_BANK_CFG_EXP4 : Fld := ⟨9, 8⟩
def MFP_BANK_CFG_EXP3 : Fld := ⟨7, 6⟩
def MFP_BANK_CFG_EXP2 : Fld := ⟨5, 4⟩
def MFP_BANK_CFG_EXP1 : Fld := ⟨3, 2⟩
def MFP_BANK_CFG_EXP0 : Fld := ⟨1, 0⟩

/-- spec/02_balls_supplies_pins.md, header of line 254. -/
def MFP_BANK_STAT : Nat := 0x3E804
def MFP_BANK_STAT_LOSS8 : Fld := ⟨26, 26⟩
def MFP_BANK_STAT_LOSS7 : Fld := ⟨25, 25⟩
def MFP_BANK_STAT_LOSS6 : Fld := ⟨24, 24⟩
def MFP_BANK_STAT_LOSS5 : Fld := ⟨23, 23⟩
def MFP_BANK_STAT_LOSS4 : Fld := ⟨22, 22⟩
def MFP_BANK_STAT_LOSS3 : Fld := ⟨21, 21⟩
def MFP_BANK_STAT_LOSS2 : Fld := ⟨20, 20⟩
def MFP_BANK_STAT_LOSS1 : Fld := ⟨19, 19⟩
def MFP_BANK_STAT_LOSS0 : Fld := ⟨18, 18⟩
def MFP_BANK_STAT_LEVEL8 : Fld := ⟨17, 16⟩
def MFP_BANK_STAT_LEVEL7 : Fld := ⟨15, 14⟩
def MFP_BANK_STAT_LEVEL6 : Fld := ⟨13, 12⟩
def MFP_BANK_STAT_LEVEL5 : Fld := ⟨11, 10⟩
def MFP_BANK_STAT_LEVEL4 : Fld := ⟨9, 8⟩
def MFP_BANK_STAT_LEVEL3 : Fld := ⟨7, 6⟩
def MFP_BANK_STAT_LEVEL2 : Fld := ⟨5, 4⟩
def MFP_BANK_STAT_LEVEL1 : Fld := ⟨3, 2⟩
def MFP_BANK_STAT_LEVEL0 : Fld := ⟨1, 0⟩

/-- spec/02_balls_supplies_pins.md, header of line 262. -/
def MFP_STAT : Nat := 0x3E808
def MFP_STAT_CONFLICT_PIN : Fld := ⟨24, 16⟩
def MFP_STAT_MISMATCH : Fld := ⟨1, 1⟩
def MFP_STAT_CONFLICT : Fld := ⟨0, 0⟩

/-! ### SLOT (spec/10_loop_engine.md) -/

/-- spec/10_loop_engine.md, header of line 408. -/
def LPE_SLOT_CFG (i : Nat) : Nat := 0x40000 + 0x80 * i
def LPE_SLOT_CFG_HO_STEPS : Fld := ⟨31, 24⟩
def LPE_SLOT_CFG_AW_MODE : Fld := ⟨23, 22⟩
def LPE_SLOT_CFG_D_ON_E : Fld := ⟨21, 21⟩
def LPE_SLOT_CFG_CASC_AW : Fld := ⟨20, 20⟩
def LPE_SLOT_CFG_OPERAND : Fld := ⟨19, 19⟩
def LPE_SLOT_CFG_LEVEL : Fld := ⟨18, 16⟩
def LPE_SLOT_CFG_PHASE : Fld := ⟨15, 8⟩
def LPE_SLOT_CFG_RATE : Fld := ⟨3, 0⟩

/-- spec/10_loop_engine.md, header of line 422. -/
def LPE_SLOT_SRC_SP (i : Nat) : Nat := 0x40004 + 0x80 * i
def LPE_SLOT_SRC_SP_KIND : Fld := ⟨31, 28⟩
def LPE_SLOT_SRC_SP_FIELD : Fld := ⟨27, 24⟩
def LPE_SLOT_SRC_SP_INDEX : Fld := ⟨9, 0⟩

/-- spec/10_loop_engine.md, header of line 422. -/
def LPE_SLOT_SRC_Y (i : Nat) : Nat := 0x40008 + 0x80 * i
def LPE_SLOT_SRC_Y_KIND : Fld := ⟨31, 28⟩
def LPE_SLOT_SRC_Y_FIELD : Fld := ⟨27, 24⟩
def LPE_SLOT_SRC_Y_INDEX : Fld := ⟨9, 0⟩

/-- spec/10_loop_engine.md, header of line 422. -/
def LPE_SLOT_SRC_FF (i : Nat) : Nat := 0x4000C + 0x80 * i
def LPE_SLOT_SRC_FF_KIND : Fld := ⟨31, 28⟩
def LPE_SLOT_SRC_FF_FIELD : Fld := ⟨27, 24⟩
def LPE_SLOT_SRC_FF_INDEX : Fld := ⟨9, 0⟩

/-- spec/10_loop_engine.md, header of line 431. -/
def LPE_SLOT_DST (i : Nat) : Nat := 0x40010 + 0x80 * i
def LPE_SLOT_DST_KIND : Fld := ⟨31, 28⟩
def LPE_SLOT_DST_INDEX : Fld := ⟨9, 0⟩

/-- spec/10_loop_engine.md, header of line 439. -/
def LPE_SLOT_CTRL (i : Nat) : Nat := 0x40014 + 0x80 * i
def LPE_SLOT_CTRL_CMD : Fld := ⟨31, 28⟩
def LPE_SLOT_CTRL_MODE : Fld := ⟨0, 0⟩

/-- spec/10_loop_engine.md, header of line 447. -/
def LPE_SLOT_KP (i : Nat) : Nat := 0x40018 + 0x80 * i

/-- spec/10_loop_engine.md, header of line 447. -/
def LPE_SLOT_KI (i : Nat) : Nat := 0x4001C + 0x80 * i

/-- spec/10_loop_engine.md, header of line 447. -/
def LPE_SLOT_KD (i : Nat) : Nat := 0x40020 + 0x80 * i

/-- spec/10_loop_engine.md, header of line 447. -/
def LPE_SLOT_KFF (i : Nat) : Nat := 0x40024 + 0x80 * i

/-- spec/10_loop_engine.md, header of line 447. -/
def LPE_SLOT_KAW (i : Nat) : Nat := 0x40028 + 0x80 * i

/-- spec/10_loop_engine.md, header of line 447. -/
def LPE_SLOT_DFILT (i : Nat) : Nat := 0x4002C + 0x80 * i

/-- spec/10_loop_engine.md, header of line 447. -/
def LPE_SLOT_BIAS (i : Nat) : Nat := 0x40030 + 0x80 * i

/-- spec/10_loop_engine.md, header of line 447. -/
def LPE_SLOT_IMIN (i : Nat) : Nat := 0x40034 + 0x80 * i

/-- spec/10_loop_engine.md, header of line 447. -/
def LPE_SLOT_IMAX (i : Nat) : Nat := 0x40038 + 0x80 * i

/-- spec/10_loop_engine.md, header of line 447. -/
def LPE_SLOT_OMIN (i : Nat) : Nat := 0x4003C + 0x80 * i

/-- spec/10_loop_engine.md, header of line 447. -/
def LPE_SLOT_OMAX (i : Nat) : Nat := 0x40040 + 0x80 * i

/-- spec/10_loop_engine.md, header of line 447. -/
def LPE_SLOT_RMAX (i : Nat) : Nat := 0x40044 + 0x80 * i

/-- spec/10_loop_engine.md, header of line 447. -/
def LPE_SLOT_SACC (i : Nat) : Nat := 0x40048 + 0x80 * i

/-- spec/10_loop_engine.md, header of line 447. -/
def LPE_SLOT_KM (i : Nat) : Nat := 0x40054 + 0x80 * i

/-- spec/10_loop_engine.md, header of line 447. -/
def LPE_SLOT_TM (i : Nat) : Nat := 0x40058 + 0x80 * i

/-- spec/10_loop_engine.md, header of line 447. -/
def LPE_SLOT_LM (i : Nat) : Nat := 0x4005C + 0x80 * i

/-- spec/10_loop_engine.md, header of line 447. -/
def LPE_SLOT_BAND (i : Nat) : Nat := 0x40060 + 0x80 * i

/-- spec/10_loop_engine.md, header of line 447. -/
def LPE_SLOT_FE_LIM (i : Nat) : Nat := 0x40064 + 0x80 * i

/-- spec/10_loop_engine.md, header of line 453. -/
def LPE_SLOT_GAIN (i : Nat) : Nat := 0x4004C + 0x80 * i
def LPE_SLOT_GAIN_MBOX : Fld := ⟨23, 16⟩
def LPE_SLOT_GAIN_GEN : Fld := ⟨15, 15⟩
def LPE_SLOT_GAIN_GIN : Fld := ⟨13, 12⟩
def LPE_SLOT_GAIN_G_D : Fld := ⟨10, 10⟩
def LPE_SLOT_GAIN_G_I : Fld := ⟨9, 9⟩
def LPE_SLOT_GAIN_G_P : Fld := ⟨8, 8⟩
def LPE_SLOT_GAIN_TBL : Fld := ⟨7, 0⟩

/-- spec/10_loop_engine.md, header of line 468. -/
def LPE_SLOT_SUP (i : Nat) : Nat := 0x40050 + 0x80 * i
def LPE_SLOT_SUP_FE_TIME : Fld := ⟨15, 8⟩
def LPE_SLOT_SUP_IN_ACT : Fld := ⟨6, 6⟩
def LPE_SLOT_SUP_FLT_OUT : Fld := ⟨5, 4⟩
def LPE_SLOT_SUP_ACT : Fld := ⟨3, 2⟩
def LPE_SLOT_SUP_MODEL : Fld := ⟨1, 0⟩

/-- spec/10_loop_engine.md, header of line 480. -/
def LPE_SLOT_SP_VAL (i : Nat) : Nat := 0x40068 + 0x80 * i

/-- spec/10_loop_engine.md, header of line 480. -/
def LPE_SLOT_MAN_OUT (i : Nat) : Nat := 0x4006C + 0x80 * i

/-- spec/10_loop_engine.md, header of line 486. -/
def LPE_SLOT_STAT (i : Nat) : Nat := 0x40070 + 0x80 * i
def LPE_SLOT_STAT_SUP_CNT : Fld := ⟨31, 24⟩
def LPE_SLOT_STAT_TRIPS : Fld := ⟨23, 16⟩
def LPE_SLOT_STAT_SUP_TRIP : Fld := ⟨9, 9⟩
def LPE_SLOT_STAT_I_CLAMP : Fld := ⟨8, 8⟩
def LPE_SLOT_STAT_STALE_EVT : Fld := ⟨7, 7⟩
def LPE_SLOT_STAT_IN_STALE : Fld := ⟨6, 6⟩
def LPE_SLOT_STAT_HANDOVER : Fld := ⟨5, 5⟩
def LPE_SLOT_STAT_TRACK : Fld := ⟨4, 4⟩
def LPE_SLOT_STAT_MANUAL : Fld := ⟨3, 3⟩
def LPE_SLOT_STAT_SAT_LO : Fld := ⟨2, 2⟩
def LPE_SLOT_STAT_SAT_HI : Fld := ⟨1, 1⟩

/-- spec/10_loop_engine.md, header of line 504. -/
def LPE_SLOT_R (i : Nat) : Nat := 0x40074 + 0x80 * i

/-- spec/10_loop_engine.md, header of line 504. -/
def LPE_SLOT_U (i : Nat) : Nat := 0x40078 + 0x80 * i

/-- spec/10_loop_engine.md, header of line 504. -/
def LPE_SLOT_I (i : Nat) : Nat := 0x4007C + 0x80 * i

/-! ### TBL (spec/09_steppers_and_pwm.md) -/

/-- spec/09_steppers_and_pwm.md, header of line 337. -/
def STP_TBL (i j : Nat) : Nat := 0x7E000 + 0x400 * i + 0x4 * j
def STP_TBL_CB : Fld := ⟨31, 16⟩
def STP_TBL_CA : Fld := ⟨15, 0⟩

/-- spec/10_loop_engine.md, header of line 512. -/
def LPE_GTBL (i j : Nat) : Nat := 0x60000 + 0x100 * i + 0x4 * j

/-- spec/10_loop_engine.md, header of line 512. -/
def LPE_GTBL_XSPAN (i : Nat) : Nat := 0x60084 + 0x100 * i

/-! ### The tables (R14, R42) -/

def sysRows0 : List RegDesc := [
  ⟨0x0, [], 0x96000B01, [⟨31, 16, .ro⟩, ⟨15, 8, .ro⟩, ⟨7, 0, .ro⟩]⟩,
  ⟨0x60, [], 0x0, [⟨31, 5, .ro⟩, ⟨4, 0, .rw⟩]⟩,
  ⟨0x48, [], 0x0, [⟨31, 0, .ro⟩]⟩,
  ⟨0x40, [], 0x0, [⟨31, 5, .ro⟩, ⟨4, 4, .w1c⟩, ⟨3, 3, .w1c⟩, ⟨2, 2, .w1c⟩, ⟨1, 1, .w1c⟩, ⟨0, 0, .w1c⟩]⟩,
  ⟨0x44, [], 0x0, [⟨31, 31, .ro⟩, ⟨30, 28, .ro⟩, ⟨27, 25, .ro⟩, ⟨24, 20, .ro⟩, ⟨19, 0, .ro⟩]⟩,
  ⟨0x50, [], 0x0, [⟨31, 0, .ro⟩]⟩,
  ⟨0x54, [], 0x0, [⟨31, 0, .ro⟩]⟩,
  ⟨0x58, [], 0x0, [⟨31, 24, .ro⟩, ⟨23, 16, .ro⟩, ⟨15, 0, .rc⟩]⟩,
  ⟨0x10, [], 0x0, [⟨31, 5, .ro⟩, ⟨4, 4, .w1c⟩, ⟨3, 3, .w1c⟩, ⟨2, 2, .w1c⟩, ⟨1, 1, .w1c⟩, ⟨0, 0, .w1c⟩]⟩,
  ⟨0x14, [], 0x0, [⟨31, 16, .wo⟩, ⟨15, 2, .ro⟩, ⟨1, 1, .wo⟩, ⟨0, 0, .wo⟩]⟩,
  ⟨0x20, [], 0x0, [⟨31, 23, .ro⟩, ⟨22, 22, .ro⟩, ⟨21, 21, .ro⟩, ⟨20, 20, .ro⟩, ⟨19, 19, .ro⟩, ⟨18, 18, .ro⟩, ⟨17, 17, .ro⟩, ⟨16, 16, .ro⟩, ⟨15, 15, .ro⟩, ⟨14, 14, .ro⟩, ⟨13, 13, .ro⟩, ⟨12, 12, .ro⟩, ⟨11, 11, .ro⟩, ⟨10, 10, .ro⟩, ⟨9, 9, .ro⟩, ⟨8, 8, .ro⟩, ⟨7, 7, .ro⟩, ⟨6, 6, .ro⟩, ⟨5, 5, .ro⟩, ⟨4, 4, .ro⟩, ⟨3, 3, .ro⟩, ⟨2, 2, .ro⟩, ⟨1, 1, .ro⟩, ⟨0, 0, .ro⟩]⟩]

/-- The registers of the sys range of R42. -/
def sysRows : List RegDesc := sysRows0

def pwrRows0 : List RegDesc := [
  ⟨0x1000, [], 0x0, [⟨31, 16, .wo⟩, ⟨15, 6, .ro⟩, ⟨5, 4, .wo⟩, ⟨3, 2, .ro⟩, ⟨1, 0, .wo⟩]⟩,
  ⟨0x1004, [], 0x0, [⟨31, 0, .rw⟩]⟩,
  ⟨0x1008, [], 0x0, [⟨31, 12, .ro⟩, ⟨11, 8, .rw⟩, ⟨7, 6, .ro⟩, ⟨5, 5, .rw⟩, ⟨4, 4, .rw⟩, ⟨3, 3, .rw⟩, ⟨2, 2, .rw⟩, ⟨1, 1, .ro⟩, ⟨0, 0, .rw⟩]⟩,
  ⟨0x100C, [], 0x0, [⟨31, 24, .ro⟩, ⟨23, 20, .ro⟩, ⟨19, 16, .ro⟩, ⟨15, 12, .ro⟩, ⟨11, 10, .ro⟩, ⟨9, 9, .w1c⟩, ⟨8, 8, .ro⟩, ⟨7, 2, .ro⟩, ⟨1, 0, .ro⟩]⟩,
  ⟨0x1010, [], 0x0, [⟨31, 0, .rw⟩]⟩,
  ⟨0x1014, [], 0x0, [⟨31, 0, .rw⟩]⟩,
  ⟨0x1020, [(0x8, 0x4)], 0x0, [⟨31, 31, .ro⟩, ⟨30, 16, .ro⟩, ⟨15, 0, .ro⟩]⟩,
  ⟨0x1040, [], 0x7869, [⟨31, 17, .ro⟩, ⟨16, 16, .rw⟩, ⟨15, 8, .rw⟩, ⟨7, 0, .rw⟩]⟩,
  ⟨0x1044, [], 0x0, [⟨31, 25, .ro⟩, ⟨24, 24, .w1c⟩, ⟨23, 23, .w1c⟩, ⟨22, 22, .w1c⟩, ⟨21, 21, .ro⟩, ⟨20, 20, .ro⟩, ⟨19, 19, .ro⟩, ⟨18, 16, .ro⟩, ⟨15, 0, .ro⟩]⟩,
  ⟨0x1050, [], 0x0, [⟨31, 0, .ro⟩]⟩,
  ⟨0x1054, [], 0x0, [⟨31, 0, .ro⟩]⟩]

/-- The registers of the pwr range of R42. -/
def pwrRows : List RegDesc := pwrRows0

def cfgRows0 : List RegDesc := [
  ⟨0x2400, [(0x38, 0x4)], 0x0, [⟨31, 28, .wo⟩, ⟨27, 24, .ro⟩, ⟨23, 16, .ro⟩, ⟨15, 10, .ro⟩, ⟨9, 9, .w1c⟩, ⟨8, 8, .ro⟩, ⟨7, 7, .ro⟩, ⟨6, 3, .ro⟩, ⟨2, 0, .ro⟩]⟩,
  ⟨0x2500, [(0x94, 0x4)], 0x0, [⟨31, 28, .wo⟩, ⟨27, 24, .ro⟩, ⟨23, 16, .ro⟩, ⟨15, 10, .ro⟩, ⟨9, 9, .w1c⟩, ⟨8, 8, .ro⟩, ⟨7, 7, .ro⟩, ⟨6, 3, .ro⟩, ⟨2, 0, .ro⟩]⟩,
  ⟨0x2780, [(0x429, 0x4)], 0x0, [⟨31, 28, .wo⟩, ⟨27, 24, .ro⟩, ⟨23, 16, .ro⟩, ⟨15, 10, .ro⟩, ⟨9, 9, .w1c⟩, ⟨8, 8, .ro⟩, ⟨7, 7, .ro⟩, ⟨6, 3, .ro⟩, ⟨2, 0, .ro⟩]⟩,
  ⟨0x3840, [(0x8, 0x4)], 0x0, [⟨31, 28, .wo⟩, ⟨27, 24, .ro⟩, ⟨23, 16, .ro⟩, ⟨15, 10, .ro⟩, ⟨9, 9, .w1c⟩, ⟨8, 8, .ro⟩, ⟨7, 7, .ro⟩, ⟨6, 3, .ro⟩, ⟨2, 0, .ro⟩]⟩,
  ⟨0x3870, [(0x1, 0x4)], 0x0, [⟨31, 28, .wo⟩, ⟨27, 24, .ro⟩, ⟨23, 16, .ro⟩, ⟨15, 10, .ro⟩, ⟨9, 9, .w1c⟩, ⟨8, 8, .ro⟩, ⟨7, 7, .ro⟩, ⟨6, 3, .ro⟩, ⟨2, 0, .ro⟩]⟩,
  ⟨0x3880, [(0x8, 0x4)], 0x0, [⟨31, 28, .wo⟩, ⟨27, 24, .ro⟩, ⟨23, 16, .ro⟩, ⟨15, 10, .ro⟩, ⟨9, 9, .w1c⟩, ⟨8, 8, .ro⟩, ⟨7, 7, .ro⟩, ⟨6, 3, .ro⟩, ⟨2, 0, .ro⟩]⟩,
  ⟨0x2000, [], 0x0, [⟨31, 4, .ro⟩, ⟨3, 0, .wo⟩]⟩,
  ⟨0x2004, [], 0x0, [⟨31, 12, .ro⟩, ⟨11, 10, .ro⟩, ⟨9, 8, .ro⟩, ⟨7, 7, .w1c⟩, ⟨6, 6, .w1c⟩, ⟨5, 5, .ro⟩, ⟨4, 4, .w1c⟩, ⟨3, 3, .ro⟩, ⟨2, 0, .ro⟩]⟩,
  ⟨0x2008, [], 0x20000000, [⟨31, 0, .rw⟩]⟩,
  ⟨0x2018, [], 0x0, [⟨31, 0, .ro⟩]⟩,
  ⟨0x2010, [], 0x0, [⟨31, 24, .ro⟩, ⟨23, 8, .ro⟩, ⟨7, 0, .ro⟩]⟩,
  ⟨0x2014, [], 0x0, [⟨31, 0, .ro⟩]⟩,
  ⟨0x2040, [], 0x0, [⟨31, 28, .ro⟩, ⟨27, 16, .rw⟩, ⟨15, 12, .ro⟩, ⟨11, 10, .rw⟩, ⟨9, 9, .ro⟩, ⟨8, 8, .rw⟩, ⟨7, 4, .rw⟩, ⟨3, 2, .ro⟩, ⟨1, 0, .wo⟩]⟩,
  ⟨0x2044, [], 0x0, [⟨31, 0, .rw⟩]⟩,
  ⟨0x2048, [], 0x0, [⟨31, 0, .rw⟩]⟩,
  ⟨0x204C, [], 0x0, [⟨31, 12, .ro⟩, ⟨11, 8, .ro⟩, ⟨7, 4, .ro⟩, ⟨3, 3, .w1c⟩, ⟨2, 2, .ro⟩, ⟨1, 0, .ro⟩]⟩,
  ⟨0x2050, [], 0x0, [⟨31, 0, .ro⟩]⟩,
  ⟨0x2054, [], 0x0, [⟨31, 0, .ro⟩]⟩]

/-- The registers of the cfg range of R42. -/
def cfgRows : List RegDesc := cfgRows0

def hifRows0 : List RegDesc := [
  ⟨0x4000, [], 0x0, [⟨31, 1, .ro⟩, ⟨0, 0, .rw⟩]⟩,
  ⟨0x4004, [], 0x0, [⟨31, 12, .ro⟩, ⟨11, 11, .ro⟩, ⟨10, 8, .ro⟩, ⟨7, 7, .ro⟩, ⟨6, 3, .ro⟩, ⟨2, 0, .ro⟩]⟩,
  ⟨0x4008, [], 0x0, [⟨31, 6, .ro⟩, ⟨5, 5, .w1c⟩, ⟨4, 4, .w1c⟩, ⟨3, 3, .w1c⟩, ⟨2, 2, .w1c⟩, ⟨1, 1, .w1c⟩, ⟨0, 0, .w1c⟩]⟩,
  ⟨0x400C, [], 0x0, [⟨31, 6, .ro⟩, ⟨5, 5, .rw⟩, ⟨4, 4, .rw⟩, ⟨3, 3, .rw⟩, ⟨2, 2, .rw⟩, ⟨1, 1, .rw⟩, ⟨0, 0, .rw⟩]⟩,
  ⟨0x4010, [], 0x0, [⟨31, 6, .ro⟩, ⟨5, 5, .w1c⟩, ⟨4, 4, .w1c⟩, ⟨3, 3, .w1c⟩, ⟨2, 2, .w1c⟩, ⟨1, 1, .w1c⟩, ⟨0, 0, .w1c⟩]⟩,
  ⟨0x4014, [], 0x0, [⟨31, 8, .ro⟩, ⟨7, 0, .rw⟩]⟩,
  ⟨0x4018, [], 0x0, [⟨31, 0, .ro⟩]⟩,
  ⟨0x401C, [], 0x0, [⟨31, 0, .ro⟩]⟩,
  ⟨0x5000, [(0x40, 0x40)], 0x0, [⟨31, 0, .rw⟩]⟩,
  ⟨0x5004, [(0x40, 0x40)], 0x0, [⟨31, 0, .rw⟩]⟩,
  ⟨0x5008, [(0x40, 0x40)], 0x0, [⟨31, 0, .rw⟩]⟩,
  ⟨0x500C, [(0x40, 0x40)], 0x0, [⟨31, 0, .rw⟩]⟩,
  ⟨0x5010, [(0x40, 0x40)], 0x0, [⟨31, 24, .ro⟩, ⟨23, 16, .rw⟩, ⟨15, 15, .ro⟩, ⟨14, 12, .rw⟩, ⟨11, 8, .rw⟩, ⟨7, 5, .ro⟩, ⟨4, 4, .rw⟩, ⟨3, 0, .rw⟩]⟩,
  ⟨0x5014, [(0x40, 0x40)], 0x0, [⟨31, 30, .ro⟩, ⟨29, 20, .rw⟩, ⟨19, 18, .ro⟩, ⟨17, 8, .rw⟩, ⟨7, 0, .rw⟩]⟩,
  ⟨0x5018, [(0x40, 0x40)], 0x0, [⟨31, 4, .ro⟩, ⟨3, 0, .wo⟩]⟩,
  ⟨0x501C, [(0x40, 0x40)], 0x0, [⟨31, 13, .ro⟩, ⟨12, 12, .w1c⟩, ⟨11, 8, .ro⟩, ⟨7, 3, .ro⟩, ⟨2, 0, .ro⟩]⟩,
  ⟨0x5020, [(0x40, 0x40)], 0x80000000, [⟨31, 31, .ro⟩, ⟨30, 28, .ro⟩, ⟨27, 16, .ro⟩, ⟨15, 12, .ro⟩, ⟨11, 0, .rw⟩]⟩,
  ⟨0x5024, [(0x40, 0x40)], 0x0, [⟨31, 28, .ro⟩, ⟨27, 16, .ro⟩, ⟨15, 12, .ro⟩, ⟨11, 0, .ro⟩]⟩,
  ⟨0x5028, [(0x40, 0x40)], 0x0, [⟨31, 16, .ro⟩, ⟨15, 12, .ro⟩, ⟨11, 0, .ro⟩]⟩,
  ⟨0x6000, [(0x100, 0x10)], 0x0, [⟨31, 2, .rw⟩, ⟨1, 0, .ro⟩]⟩,
  ⟨0x6004, [(0x100, 0x10)], 0x0, [⟨31, 0, .rw⟩]⟩,
  ⟨0x6008, [(0x100, 0x10)], 0x0, [⟨31, 0, .rw⟩]⟩,
  ⟨0x600C, [(0x100, 0x10)], 0x1, [⟨31, 1, .ro⟩, ⟨0, 0, .rw⟩]⟩,
  ⟨0x7000, [(0x8, 0x4)], 0x0, [⟨31, 0, .ro⟩]⟩]

/-- The registers of the hif range of R42. -/
def hifRows : List RegDesc := hifRows0

def tbRows0 : List RegDesc := [
  ⟨0x8000, [], 0x0, [⟨31, 3, .ro⟩, ⟨2, 2, .wo⟩, ⟨1, 1, .rw⟩, ⟨0, 0, .rw⟩]⟩,
  ⟨0x8004, [], 0x1, [⟨31, 3, .ro⟩, ⟨2, 0, .rwl⟩]⟩,
  ⟨0x8008, [], 0x0, [⟨31, 5, .ro⟩, ⟨4, 4, .w1c⟩, ⟨3, 3, .w1c⟩, ⟨2, 2, .w1c⟩, ⟨1, 1, .ro⟩, ⟨0, 0, .ro⟩]⟩,
  ⟨0x8010, [], 0x0, [⟨31, 0, .ro⟩]⟩,
  ⟨0x8014, [], 0x0, [⟨31, 0, .ro⟩]⟩,
  ⟨0x8018, [], 0x0, [⟨31, 0, .ro⟩]⟩,
  ⟨0x8020, [], 0x0, [⟨31, 0, .rw⟩]⟩,
  ⟨0x8024, [], 0x0, [⟨31, 0, .rw⟩]⟩,
  ⟨0x8030, [], 0x0, [⟨31, 0, .rw⟩]⟩,
  ⟨0x8034, [], 0x4, [⟨31, 4, .ro⟩, ⟨3, 0, .rw⟩]⟩,
  ⟨0x8040, [], 0x28C8100C, [⟨31, 25, .rw⟩, ⟨24, 16, .rw⟩, ⟨15, 13, .ro⟩, ⟨12, 8, .rw⟩, ⟨7, 5, .ro⟩, ⟨4, 0, .rw⟩]⟩,
  ⟨0x8044, [], 0x0, [⟨31, 0, .ro⟩]⟩,
  ⟨0x8048, [], 0x0, [⟨31, 0, .ro⟩]⟩,
  ⟨0x8100, [(0x4, 0x20)], 0x0, [⟨31, 5, .ro⟩, ⟨4, 3, .rw⟩, ⟨2, 2, .ro⟩, ⟨1, 1, .rw⟩, ⟨0, 0, .rw⟩]⟩,
  ⟨0x8104, [(0x4, 0x20)], 0x0, [⟨31, 0, .rw⟩]⟩,
  ⟨0x8108, [(0x4, 0x20)], 0x0, [⟨31, 0, .rw⟩]⟩,
  ⟨0x810C, [(0x4, 0x20)], 0x0, [⟨31, 0, .rw⟩]⟩,
  ⟨0x8110, [(0x4, 0x20)], 0x0, [⟨31, 0, .rw⟩]⟩,
  ⟨0x8114, [(0x4, 0x20)], 0x0, [⟨31, 16, .rc⟩, ⟨15, 2, .ro⟩, ⟨1, 1, .w1c⟩, ⟨0, 0, .w1c⟩]⟩,
  ⟨0x8200, [(0x4, 0x20)], 0x0, [⟨31, 3, .ro⟩, ⟨2, 2, .rw⟩, ⟨1, 1, .rw⟩, ⟨0, 0, .rw⟩]⟩,
  ⟨0x8204, [(0x4, 0x20)], 0x0, [⟨31, 16, .rc⟩, ⟨15, 9, .ro⟩, ⟨8, 8, .ro⟩, ⟨7, 4, .ro⟩, ⟨3, 0, .ro⟩]⟩,
  ⟨0x8208, [(0x4, 0x20)], 0x0, [⟨31, 0, .ro⟩]⟩,
  ⟨0x820C, [(0x4, 0x20)], 0x0, [⟨31, 0, .ro⟩]⟩]

/-- The registers of the tb range of R42. -/
def tbRows : List RegDesc := tbRows0

def netRows0 : List RegDesc := [
  ⟨0xA100, [(0x2, 0x100)], 0x30009, [⟨31, 31, .ro⟩, ⟨30, 24, .ro⟩, ⟨23, 20, .rw⟩, ⟨19, 16, .rw⟩, ⟨15, 13, .ro⟩, ⟨12, 12, .rw⟩, ⟨11, 11, .rw⟩, ⟨10, 8, .rw⟩, ⟨7, 7, .ro⟩, ⟨6, 5, .rwd⟩, ⟨4, 4, .rwd⟩, ⟨3, 3, .rw⟩, ⟨2, 2, .rw⟩, ⟨1, 1, .rw⟩, ⟨0, 0, .rw⟩]⟩,
  ⟨0xA300, [], 0x30001, [⟨31, 31, .ro⟩, ⟨30, 24, .ro⟩, ⟨23, 20, .rw⟩, ⟨19, 16, .rw⟩, ⟨15, 13, .ro⟩, ⟨12, 12, .rw⟩, ⟨11, 11, .rw⟩, ⟨10, 8, .rw⟩, ⟨7, 7, .ro⟩, ⟨6, 5, .rwd⟩, ⟨4, 4, .rwd⟩, ⟨3, 3, .rw⟩, ⟨2, 2, .rw⟩, ⟨1, 1, .rw⟩, ⟨0, 0, .rw⟩]⟩,
  ⟨0xA104, [(0x2, 0x100)], 0, [⟨31, 16, .rw⟩, ⟨15, 0, .rw⟩]⟩,
  ⟨0xA304, [], 0x0, [⟨31, 16, .rw⟩, ⟨15, 0, .rw⟩]⟩,
  ⟨0xA108, [(0x2, 0x100)], 0, [⟨31, 16, .rw⟩, ⟨15, 0, .rw⟩]⟩,
  ⟨0xA308, [], 0x0, [⟨31, 16, .rw⟩, ⟨15, 0, .rw⟩]⟩,
  ⟨0xA10C, [(0x3, 0x100)], 0x0, [⟨31, 0, .ro⟩]⟩,
  ⟨0xA140, [(0x3, 0x100)], 0x1FF, [⟨31, 16, .rwd⟩, ⟨15, 9, .ro⟩, ⟨8, 8, .rwd⟩, ⟨7, 0, .rwd⟩]⟩,
  ⟨0xA144, [(0x3, 0x100), (0xF, 0x4)], 0x0, [⟨31, 16, .rwd⟩, ⟨15, 9, .ro⟩, ⟨8, 8, .rwd⟩, ⟨7, 0, .rwd⟩]⟩,
  ⟨0xA020, [], 0x0, [⟨31, 20, .ro⟩, ⟨19, 16, .rw⟩, ⟨15, 8, .rw⟩, ⟨7, 4, .ro⟩, ⟨3, 3, .rw⟩, ⟨2, 2, .rw⟩, ⟨1, 0, .rw⟩]⟩,
  ⟨0xA024, [], 0x0, [⟨31, 0, .rw⟩]⟩,
  ⟨0xA028, [], 0x0, [⟨31, 0, .rw⟩]⟩,
  ⟨0xA000, [], 0x0, [⟨31, 28, .ro⟩, ⟨27, 22, .rwl⟩, ⟨21, 16, .rwl⟩, ⟨15, 12, .rwl⟩, ⟨11, 0, .rwl⟩]⟩,
  ⟨0xA004, [], 0x7E088B5, [⟨31, 27, .ro⟩, ⟨26, 24, .rwl⟩, ⟨23, 21, .rwl⟩, ⟨20, 20, .rwl⟩, ⟨19, 17, .rwl⟩, ⟨16, 16, .rwl⟩, ⟨15, 0, .rwl⟩]⟩,
  ⟨0xA008, [], 0x2018000, [⟨31, 29, .ro⟩, ⟨28, 28, .rwl⟩, ⟨27, 20, .rwl⟩, ⟨19, 12, .rwl⟩, ⟨11, 0, .rwl⟩]⟩,
  ⟨0xA00C, [], 0x0, [⟨31, 28, .wo⟩, ⟨27, 9, .ro⟩, ⟨8, 8, .w1c⟩, ⟨7, 3, .ro⟩, ⟨2, 0, .ro⟩]⟩,
  ⟨0xA010, [], 0x0, [⟨31, 24, .rc⟩, ⟨23, 16, .rc⟩, ⟨15, 8, .rc⟩, ⟨7, 0, .rc⟩]⟩,
  ⟨0xA014, [], 0x0, [⟨31, 0, .rwl⟩]⟩,
  ⟨0xA018, [], 0x0, [⟨31, 16, .ro⟩, ⟨15, 0, .rwl⟩]⟩,
  ⟨0xA030, [], 0x0, [⟨31, 28, .wo⟩, ⟨27, 26, .wo⟩, ⟨25, 24, .wo⟩, ⟨23, 16, .wo⟩, ⟨15, 0, .wo⟩]⟩,
  ⟨0xA034, [], 0x0, [⟨31, 0, .rw⟩]⟩,
  ⟨0xA038, [], 0x0, [⟨31, 0, .rw⟩]⟩,
  ⟨0xA03C, [], 0x0, [⟨31, 31, .ro⟩, ⟨30, 30, .ro⟩, ⟨29, 29, .ro⟩, ⟨28, 24, .ro⟩, ⟨23, 17, .ro⟩, ⟨16, 16, .ro⟩, ⟨15, 0, .ro⟩]⟩,
  ⟨0xA040, [(0x4, 0x4)], 0x0, [⟨31, 31, .rwl⟩, ⟨30, 10, .ro⟩, ⟨9, 0, .rwl⟩]⟩]

def netRows1 : List RegDesc := [
  ⟨0xA400, [(0x10, 0x8)], 0x0, [⟨31, 31, .rwl⟩, ⟨30, 10, .ro⟩, ⟨9, 0, .rwl⟩]⟩,
  ⟨0xA404, [(0x10, 0x8)], 0x0, [⟨31, 28, .ro⟩, ⟨27, 16, .ro⟩, ⟨15, 8, .rc⟩, ⟨7, 2, .ro⟩, ⟨1, 0, .ro⟩]⟩,
  ⟨0xA500, [(0x40, 0x4)], 0x0, [⟨31, 31, .rwl⟩, ⟨30, 30, .rwl⟩, ⟨29, 28, .ro⟩, ⟨27, 24, .ro⟩, ⟨23, 16, .ro⟩, ⟨15, 12, .ro⟩, ⟨11, 0, .rwl⟩]⟩,
  ⟨0xA800, [(0x40, 0x10)], 0x0, [⟨31, 0, .rwl⟩]⟩,
  ⟨0xA804, [(0x40, 0x10)], 0x10000000, [⟨31, 31, .rwl⟩, ⟨30, 30, .ro⟩, ⟨29, 26, .rwl⟩, ⟨25, 24, .rwl⟩, ⟨23, 22, .ro⟩, ⟨21, 16, .rwl⟩, ⟨15, 0, .rwl⟩]⟩,
  ⟨0xA808, [(0x40, 0x10)], 0x0, [⟨31, 24, .ro⟩, ⟨23, 16, .ro⟩, ⟨15, 10, .ro⟩, ⟨9, 9, .w1c⟩, ⟨8, 8, .ro⟩, ⟨7, 3, .ro⟩, ⟨2, 0, .ro⟩]⟩]

/-- The registers of the net range of R42. -/
def netRows : List RegDesc := netRows0 ++ netRows1

def canRows0 : List RegDesc := [
  ⟨0xC000, [(0x4, 0x400)], 0x0, [⟨31, 9, .ro⟩, ⟨8, 8, .rw⟩, ⟨7, 7, .rw⟩, ⟨6, 6, .rw⟩, ⟨5, 5, .rw⟩, ⟨4, 4, .rw⟩, ⟨3, 2, .ro⟩, ⟨1, 0, .rw⟩]⟩,
  ⟨0xC004, [(0x4, 0x400)], 0xF0F3E01, [⟨31, 31, .ro⟩, ⟨30, 24, .rw⟩, ⟨23, 23, .ro⟩, ⟨22, 16, .rw⟩, ⟨15, 8, .rw⟩, ⟨7, 0, .rw⟩]⟩,
  ⟨0xC008, [(0x4, 0x400)], 0x4040D00, [⟨31, 28, .ro⟩, ⟨27, 24, .rw⟩, ⟨23, 20, .ro⟩, ⟨19, 16, .rw⟩, ⟨15, 13, .ro⟩, ⟨12, 8, .rw⟩, ⟨7, 5, .ro⟩, ⟨4, 0, .rw⟩]⟩,
  ⟨0xC00C, [(0x4, 0x400)], 0x10F, [⟨31, 23, .ro⟩, ⟨22, 16, .ro⟩, ⟨15, 9, .ro⟩, ⟨8, 8, .rw⟩, ⟨7, 7, .ro⟩, ⟨6, 0, .rw⟩]⟩,
  ⟨0xC010, [(0x4, 0x400)], 0x30000, [⟨31, 27, .ro⟩, ⟨26, 24, .ro⟩, ⟨23, 21, .ro⟩, ⟨20, 20, .w1c⟩, ⟨19, 19, .w1c⟩, ⟨18, 18, .w1c⟩, ⟨17, 16, .ro⟩, ⟨15, 15, .ro⟩, ⟨14, 8, .ro⟩, ⟨7, 0, .ro⟩]⟩,
  ⟨0xC014, [(0x4, 0x400)], 0x0, [⟨31, 16, .rc⟩, ⟨15, 0, .rc⟩]⟩,
  ⟨0xC018, [(0x4, 0x400)], 0x0, [⟨31, 28, .wo⟩, ⟨27, 0, .ro⟩]⟩,
  ⟨0xC040, [(0x4, 0x400), (0x3, 0x80)], 0x0, [⟨31, 0, .rw⟩]⟩,
  ⟨0xC044, [(0x4, 0x400), (0x3, 0x80)], 0x0, [⟨31, 8, .ro⟩, ⟨7, 7, .rw⟩, ⟨6, 6, .rw⟩, ⟨5, 5, .rw⟩, ⟨4, 4, .rw⟩, ⟨3, 0, .rw⟩]⟩,
  ⟨0xC048, [(0x4, 0x400), (0x3, 0x80)], 0x0, [⟨31, 28, .wo⟩, ⟨27, 0, .ro⟩]⟩,
  ⟨0xC04C, [(0x4, 0x400), (0x3, 0x80)], 0x0, [⟨31, 16, .ro⟩, ⟨15, 8, .rc⟩, ⟨7, 6, .ro⟩, ⟨5, 5, .w1c⟩, ⟨4, 4, .w1c⟩, ⟨3, 3, .w1c⟩, ⟨2, 2, .w1c⟩, ⟨1, 1, .w1c⟩, ⟨0, 0, .ro⟩]⟩,
  ⟨0xC050, [(0x4, 0x400), (0x3, 0x80)], 0x0, [⟨31, 0, .ro⟩]⟩,
  ⟨0xC054, [(0x4, 0x400), (0x3, 0x80)], 0x0, [⟨31, 0, .ro⟩]⟩,
  ⟨0xC080, [(0x4, 0x400), (0x3, 0x80), (0x10, 0x4)], 0x0, [⟨31, 0, .rw⟩]⟩]

/-- The registers of the can range of R42. -/
def canRows : List RegDesc := canRows0

def wpuRows0 : List RegDesc := [
  ⟨0x10000, [], 0x0, [⟨31, 2, .ro⟩, ⟨1, 1, .w1c⟩, ⟨0, 0, .ro⟩]⟩,
  ⟨0x10010, [], 0x0, [⟨31, 0, .rw⟩]⟩,
  ⟨0x10014, [], 0x0, [⟨31, 28, .wo⟩, ⟨27, 1, .ro⟩, ⟨0, 0, .rw⟩]⟩,
  ⟨0x10018, [], 0x0, [⟨31, 0, .rw⟩]⟩,
  ⟨0x1001C, [], 0x0, [⟨31, 0, .rw⟩]⟩,
  ⟨0x10100, [(0x4, 0x80)], 0x80003, [⟨31, 20, .ro⟩, ⟨19, 19, .rwl⟩, ⟨18, 18, .rwl⟩, ⟨17, 12, .rwl⟩, ⟨11, 10, .rwl⟩, ⟨9, 4, .rwl⟩, ⟨3, 3, .ro⟩, ⟨2, 2, .rwl⟩, ⟨1, 0, .rwl⟩]⟩,
  ⟨0x10104, [(0x4, 0x80)], 0x0, [⟨31, 0, .rwl⟩]⟩,
  ⟨0x10108, [(0x4, 0x80)], 0x64, [⟨31, 0, .rwl⟩]⟩,
  ⟨0x1010C, [(0x4, 0x80)], 0x0, [⟨31, 0, .rwl⟩]⟩,
  ⟨0x10110, [(0x4, 0x80)], 0x0, [⟨31, 0, .rwl⟩]⟩,
  ⟨0x10114, [(0x4, 0x80)], 0x103003E8, [⟨31, 24, .rwl⟩, ⟨23, 20, .rwl⟩, ⟨19, 16, .ro⟩, ⟨15, 0, .rwl⟩]⟩,
  ⟨0x10118, [(0x4, 0x80)], 0x3E8, [⟨31, 20, .ro⟩, ⟨19, 0, .rwl⟩]⟩,
  ⟨0x1011C, [(0x4, 0x80)], 0x0, [⟨31, 0, .rwl⟩]⟩,
  ⟨0x10120, [(0x4, 0x80)], 0x1, [⟨31, 0, .rwl⟩]⟩,
  ⟨0x10124, [(0x4, 0x80)], 0x0, [⟨31, 0, .rwl⟩]⟩,
  ⟨0x10128, [(0x4, 0x80)], 0x4, [⟨31, 0, .rwl⟩]⟩,
  ⟨0x1012C, [(0x4, 0x80)], 0x0, [⟨31, 0, .rw⟩]⟩,
  ⟨0x10130, [(0x4, 0x80)], 0x0, [⟨31, 0, .rw⟩]⟩,
  ⟨0x10134, [(0x4, 0x80)], 0x0, [⟨31, 0, .rw⟩]⟩,
  ⟨0x10138, [(0x4, 0x80)], 0x1, [⟨31, 0, .rw⟩]⟩,
  ⟨0x1013C, [(0x4, 0x80)], 0x0, [⟨31, 28, .wo⟩, ⟨27, 0, .ro⟩]⟩,
  ⟨0x10140, [(0x4, 0x80)], 0x0, [⟨31, 12, .ro⟩, ⟨11, 11, .w1c⟩, ⟨10, 10, .w1c⟩, ⟨9, 9, .w1c⟩, ⟨8, 8, .w1c⟩, ⟨7, 6, .ro⟩, ⟨5, 5, .ro⟩, ⟨4, 4, .ro⟩, ⟨3, 3, .ro⟩, ⟨2, 2, .ro⟩, ⟨1, 1, .ro⟩, ⟨0, 0, .ro⟩]⟩,
  ⟨0x10144, [(0x4, 0x80)], 0x0, [⟨31, 0, .ro⟩]⟩,
  ⟨0x10148, [(0x4, 0x80)], 0x0, [⟨31, 0, .ro⟩]⟩]

def wpuRows1 : List RegDesc := [
  ⟨0x1014C, [(0x4, 0x80)], 0x0, [⟨31, 0, .ro⟩]⟩,
  ⟨0x10150, [(0x4, 0x80)], 0x0, [⟨31, 0, .ro⟩]⟩,
  ⟨0x10154, [(0x4, 0x80)], 0x0, [⟨31, 0, .ro⟩]⟩,
  ⟨0x10158, [(0x4, 0x80)], 0x0, [⟨31, 0, .ro⟩]⟩,
  ⟨0x1015C, [(0x4, 0x80)], 0x0, [⟨31, 0, .ro⟩]⟩,
  ⟨0x10160, [(0x4, 0x80)], 0x0, [⟨31, 16, .rc⟩, ⟨15, 0, .rc⟩]⟩,
  ⟨0x10164, [(0x4, 0x80)], 0x0, [⟨31, 0, .ro⟩]⟩,
  ⟨0x10168, [(0x4, 0x80)], 0x0, [⟨31, 0, .ro⟩]⟩,
  ⟨0x11000, [(0x20, 0x40)], 0x640000, [⟨31, 25, .ro⟩, ⟨24, 16, .rwd⟩, ⟨15, 11, .ro⟩, ⟨10, 8, .rw⟩, ⟨7, 7, .ro⟩, ⟨6, 6, .rw⟩, ⟨5, 5, .rw⟩, ⟨4, 4, .rw⟩, ⟨3, 3, .rwd⟩, ⟨2, 2, .rwd⟩, ⟨1, 0, .rwl⟩]⟩,
  ⟨0x11004, [(0x20, 0x40)], 0x0, [⟨31, 0, .rwd⟩]⟩,
  ⟨0x11008, [(0x20, 0x40)], 0x0, [⟨31, 0, .rwd⟩]⟩,
  ⟨0x1100C, [(0x20, 0x40)], 0x0, [⟨31, 0, .rwd⟩]⟩,
  ⟨0x11010, [(0x20, 0x40)], 0x0, [⟨31, 0, .rw⟩]⟩,
  ⟨0x11014, [(0x20, 0x40)], 0x0, [⟨31, 0, .rw⟩]⟩,
  ⟨0x11018, [(0x20, 0x40)], 0x0, [⟨31, 0, .rw⟩]⟩,
  ⟨0x1101C, [(0x20, 0x40)], 0x0, [⟨31, 0, .ro⟩]⟩,
  ⟨0x11020, [(0x20, 0x40)], 0x0, [⟨31, 0, .ro⟩]⟩,
  ⟨0x11024, [(0x20, 0x40)], 0x0, [⟨31, 0, .ro⟩]⟩,
  ⟨0x11028, [(0x20, 0x40)], 0x0, [⟨31, 0, .ro⟩]⟩,
  ⟨0x1102C, [(0x20, 0x40)], 0x0, [⟨31, 0, .ro⟩]⟩,
  ⟨0x11030, [(0x20, 0x40)], 0x0, [⟨31, 0, .ro⟩]⟩,
  ⟨0x11034, [(0x20, 0x40)], 0x0, [⟨31, 0, .ro⟩]⟩,
  ⟨0x11038, [(0x20, 0x40)], 0x0, [⟨31, 0, .ro⟩]⟩,
  ⟨0x1103C, [(0x20, 0x40)], 0x0, [⟨31, 16, .rc⟩, ⟨15, 0, .rc⟩]⟩]

def wpuRows2 : List RegDesc := [
  ⟨0x11800, [(0x20, 0x10)], 0x0, [⟨31, 16, .ro⟩, ⟨15, 11, .ro⟩, ⟨10, 10, .w1c⟩, ⟨9, 9, .w1c⟩, ⟨8, 8, .w1c⟩, ⟨7, 3, .ro⟩, ⟨2, 2, .ro⟩, ⟨1, 1, .ro⟩, ⟨0, 0, .ro⟩]⟩,
  ⟨0x11804, [(0x20, 0x10)], 0x0, [⟨31, 3, .ro⟩, ⟨2, 0, .ro⟩]⟩,
  ⟨0x11808, [(0x20, 0x10)], 0x0, [⟨31, 0, .ro⟩]⟩,
  ⟨0x1180C, [(0x20, 0x10)], 0x0, [⟨31, 0, .ro⟩]⟩]

/-- The registers of the wpu range of R42. -/
def wpuRows : List RegDesc := wpuRows0 ++ wpuRows1 ++ wpuRows2

def fbkRows0 : List RegDesc := [
  ⟨0x18000, [(0x30, 0x80)], 0x40300, [⟨31, 29, .ro⟩, ⟨28, 25, .rwl⟩, ⟨24, 24, .rwl⟩, ⟨23, 20, .rwl⟩, ⟨19, 16, .rwl⟩, ⟨15, 14, .rwl⟩, ⟨13, 8, .rwl⟩, ⟨7, 7, .ro⟩, ⟨6, 6, .rwl⟩, ⟨5, 5, .rwl⟩, ⟨4, 4, .rwl⟩, ⟨3, 2, .rwl⟩, ⟨1, 0, .rwl⟩]⟩,
  ⟨0x18004, [(0x30, 0x80)], 0x0, [⟨31, 8, .ro⟩, ⟨7, 7, .rwl⟩, ⟨6, 6, .rwl⟩, ⟨5, 5, .rwl⟩, ⟨4, 4, .rwl⟩, ⟨3, 3, .rwl⟩, ⟨2, 2, .rwl⟩, ⟨1, 0, .rwl⟩]⟩,
  ⟨0x18008, [(0x30, 0x80)], 0x0, [⟨31, 0, .rw⟩]⟩,
  ⟨0x1800C, [(0x30, 0x80)], 0x0, [⟨31, 0, .rw⟩]⟩,
  ⟨0x18010, [(0x30, 0x80)], 0x0, [⟨31, 28, .wo⟩, ⟨27, 0, .ro⟩]⟩,
  ⟨0x18014, [(0x30, 0x80)], 0x630818, [⟨31, 28, .rwl⟩, ⟨27, 16, .rwl⟩, ⟨15, 14, .ro⟩, ⟨13, 12, .rwl⟩, ⟨11, 11, .rwl⟩, ⟨10, 9, .rwl⟩, ⟨8, 6, .rwl⟩, ⟨5, 0, .rwl⟩]⟩,
  ⟨0x18018, [(0x30, 0x80)], 0x0, [⟨31, 28, .rwl⟩, ⟨27, 16, .rwl⟩, ⟨15, 12, .ro⟩, ⟨11, 0, .rwl⟩]⟩,
  ⟨0x1801C, [(0x30, 0x80)], 0x0, [⟨31, 0, .ro⟩]⟩,
  ⟨0x18020, [(0x30, 0x80)], 0x0, [⟨31, 27, .ro⟩, ⟨26, 24, .ro⟩, ⟨23, 16, .ro⟩, ⟨15, 0, .ro⟩]⟩,
  ⟨0x18024, [(0x30, 0x80)], 0x0, [⟨31, 0, .ro⟩]⟩,
  ⟨0x18028, [(0x30, 0x80)], 0x0, [⟨31, 0, .ro⟩]⟩,
  ⟨0x1802C, [(0x30, 0x80)], 0x0, [⟨31, 0, .ro⟩]⟩,
  ⟨0x18030, [(0x30, 0x80)], 0x0, [⟨31, 0, .ro⟩]⟩,
  ⟨0x18034, [(0x30, 0x80)], 0x0, [⟨31, 0, .ro⟩]⟩,
  ⟨0x18038, [(0x30, 0x80)], 0x0, [⟨31, 0, .ro⟩]⟩,
  ⟨0x1803C, [(0x30, 0x80)], 0x0, [⟨31, 0, .ro⟩]⟩,
  ⟨0x18040, [(0x30, 0x80)], 0x0, [⟨31, 0, .ro⟩]⟩,
  ⟨0x18044, [(0x30, 0x80)], 0x0, [⟨31, 0, .ro⟩]⟩,
  ⟨0x18050, [(0x30, 0x80)], 0x0, [⟨31, 0, .ro⟩]⟩,
  ⟨0x18054, [(0x30, 0x80)], 0x0, [⟨31, 0, .ro⟩]⟩,
  ⟨0x18048, [(0x30, 0x80)], 0x7, [⟨31, 15, .ro⟩, ⟨14, 14, .ro⟩, ⟨13, 13, .w1c⟩, ⟨12, 12, .w1c⟩, ⟨11, 11, .w1c⟩, ⟨10, 10, .w1c⟩, ⟨9, 9, .w1c⟩, ⟨8, 8, .w1c⟩, ⟨7, 7, .ro⟩, ⟨6, 6, .ro⟩, ⟨5, 5, .ro⟩, ⟨4, 4, .ro⟩, ⟨3, 3, .ro⟩, ⟨2, 0, .ro⟩]⟩,
  ⟨0x1804C, [(0x30, 0x80)], 0x0, [⟨31, 24, .rc⟩, ⟨23, 16, .rc⟩, ⟨15, 0, .rc⟩]⟩,
  ⟨0x18060, [(0x8, 0x80)], 0x50000, [⟨31, 24, .ro⟩, ⟨23, 16, .rwl⟩, ⟨15, 11, .ro⟩, ⟨10, 10, .rwl⟩, ⟨9, 8, .rwl⟩, ⟨7, 6, .ro⟩, ⟨5, 0, .rwl⟩]⟩,
  ⟨0x18064, [(0x8, 0x80)], 0x10001, [⟨31, 16, .rwl⟩, ⟨15, 0, .rwl⟩]⟩]

def fbkRows1 : List RegDesc := [
  ⟨0x18068, [(0x8, 0x80)], 0x0, [⟨31, 24, .ro⟩, ⟨23, 0, .rwl⟩]⟩,
  ⟨0x1806C, [(0x8, 0x80)], 0x0, [⟨31, 0, .ro⟩]⟩,
  ⟨0x18070, [(0x8, 0x80)], 0x0, [⟨31, 0, .ro⟩]⟩]

/-- The registers of the fbk range of R42. -/
def fbkRows : List RegDesc := fbkRows0 ++ fbkRows1

def mpgRows0 : List RegDesc := [
  ⟨0x1C000, [(0x40, 0x100)], 0x0, [⟨31, 28, .ro⟩, ⟨27, 24, .rwl⟩, ⟨23, 22, .ro⟩, ⟨21, 20, .rwl⟩, ⟨19, 18, .ro⟩, ⟨17, 16, .rwl⟩, ⟨15, 14, .ro⟩, ⟨13, 13, .rwd⟩, ⟨12, 8, .rwl⟩, ⟨7, 6, .ro⟩, ⟨5, 4, .rwl⟩, ⟨3, 3, .ro⟩, ⟨2, 0, .rwd⟩]⟩,
  ⟨0x1C004, [(0x40, 0x100)], 0x0, [⟨31, 28, .wo⟩, ⟨27, 0, .ro⟩]⟩,
  ⟨0x1C008, [(0x40, 0x100)], 0x0, [⟨31, 0, .rw⟩]⟩,
  ⟨0x1C00C, [(0x40, 0x100)], 0x0, [⟨31, 0, .rw⟩]⟩,
  ⟨0x1C010, [(0x40, 0x100)], 0x0, [⟨31, 0, .rw⟩]⟩,
  ⟨0x1C014, [(0x40, 0x100)], 0x0, [⟨31, 0, .rw⟩]⟩,
  ⟨0x1C018, [(0x40, 0x100)], 0x0, [⟨31, 0, .rw⟩]⟩,
  ⟨0x1C01C, [(0x40, 0x100)], 0x0, [⟨31, 0, .rw⟩]⟩,
  ⟨0x1C020, [(0x40, 0x100)], 0x0, [⟨31, 0, .rw⟩]⟩,
  ⟨0x1C024, [(0x40, 0x100)], 0x0, [⟨31, 0, .rw⟩]⟩,
  ⟨0x1C088, [(0x40, 0x100)], 0x0, [⟨31, 0, .rw⟩]⟩,
  ⟨0x1C08C, [(0x40, 0x100)], 0x0, [⟨31, 0, .rw⟩]⟩,
  ⟨0x1C028, [(0x40, 0x100)], 0x1, [⟨31, 0, .rwd⟩]⟩,
  ⟨0x1C02C, [(0x40, 0x100)], 0x1, [⟨31, 0, .rwd⟩]⟩,
  ⟨0x1C030, [(0x40, 0x100)], 0x4, [⟨31, 8, .ro⟩, ⟨7, 0, .rwl⟩]⟩,
  ⟨0x1C040, [(0x40, 0x100)], 0x0, [⟨31, 0, .rwd⟩]⟩,
  ⟨0x1C044, [(0x40, 0x100)], 0x0, [⟨31, 0, .rwd⟩]⟩,
  ⟨0x1C048, [(0x40, 0x100)], 0x0, [⟨31, 0, .rwd⟩]⟩,
  ⟨0x1C04C, [(0x40, 0x100)], 0x0, [⟨31, 0, .rwd⟩]⟩,
  ⟨0x1C050, [(0x40, 0x100)], 0x0, [⟨31, 0, .rwd⟩]⟩,
  ⟨0x1C054, [(0x40, 0x100)], 0x400, [⟨31, 0, .rwd⟩]⟩,
  ⟨0x1C058, [(0x40, 0x100)], 0x0, [⟨31, 0, .rwd⟩]⟩,
  ⟨0x1C05C, [(0x40, 0x100)], 0x0, [⟨31, 0, .rwd⟩]⟩,
  ⟨0x1C060, [(0x40, 0x100)], 0x0, [⟨31, 0, .rwd⟩]⟩]

def mpgRows1 : List RegDesc := [
  ⟨0x1C064, [(0x40, 0x100)], 0x0, [⟨31, 0, .rwd⟩]⟩,
  ⟨0x1C068, [(0x40, 0x100)], 0x0, [⟨31, 0, .rwd⟩]⟩,
  ⟨0x1C06C, [(0x40, 0x100)], 0x1000, [⟨31, 0, .rwd⟩]⟩,
  ⟨0x1C070, [(0x40, 0x100)], 0x0, [⟨31, 0, .rwd⟩]⟩,
  ⟨0x1C074, [(0x40, 0x100)], 0x1000, [⟨31, 0, .rwd⟩]⟩,
  ⟨0x1C078, [(0x40, 0x100)], 0x0, [⟨31, 0, .rwd⟩]⟩,
  ⟨0x1C07C, [(0x40, 0x100)], 0x0, [⟨31, 0, .rwd⟩]⟩,
  ⟨0x1C080, [(0x40, 0x100)], 0x0, [⟨31, 0, .rwd⟩]⟩,
  ⟨0x1C084, [(0x40, 0x100)], 0x1000, [⟨31, 0, .rwd⟩]⟩,
  ⟨0x1C0A0, [(0x40, 0x100)], 0x4000, [⟨31, 16, .ro⟩, ⟨15, 15, .ro⟩, ⟨14, 14, .ro⟩, ⟨13, 13, .ro⟩, ⟨12, 12, .ro⟩, ⟨11, 8, .ro⟩, ⟨7, 7, .w1c⟩, ⟨6, 6, .w1c⟩, ⟨5, 5, .w1c⟩, ⟨4, 4, .w1c⟩, ⟨3, 3, .ro⟩, ⟨2, 0, .ro⟩]⟩,
  ⟨0x1C0A4, [(0x40, 0x100)], 0x0, [⟨31, 16, .rc⟩, ⟨15, 0, .rc⟩]⟩,
  ⟨0x1C0A8, [(0x40, 0x100)], 0x0, [⟨31, 0, .ro⟩]⟩,
  ⟨0x1C0AC, [(0x40, 0x100)], 0x0, [⟨31, 0, .ro⟩]⟩,
  ⟨0x1C0B0, [(0x40, 0x100)], 0x0, [⟨31, 0, .ro⟩]⟩,
  ⟨0x1C0B4, [(0x40, 0x100)], 0x0, [⟨31, 0, .ro⟩]⟩,
  ⟨0x1C0B8, [(0x40, 0x100)], 0x0, [⟨31, 0, .ro⟩]⟩,
  ⟨0x1C0BC, [(0x40, 0x100)], 0x0, [⟨31, 0, .ro⟩]⟩,
  ⟨0x1C0C0, [(0x40, 0x100)], 0x0, [⟨31, 0, .ro⟩]⟩,
  ⟨0x1C0C4, [(0x40, 0x100)], 0x0, [⟨31, 0, .ro⟩]⟩,
  ⟨0x1C0C8, [(0x40, 0x100)], 0x0, [⟨31, 0, .ro⟩]⟩,
  ⟨0x1C0CC, [(0x40, 0x100)], 0x0, [⟨31, 0, .ro⟩]⟩]

/-- The registers of the mpg range of R42. -/
def mpgRows : List RegDesc := mpgRows0 ++ mpgRows1

def stpRows0 : List RegDesc := [
  ⟨0x20000, [(0x20, 0x100)], 0x0, [⟨31, 24, .ro⟩, ⟨23, 16, .rwl⟩, ⟨15, 8, .rwl⟩, ⟨7, 6, .ro⟩, ⟨5, 5, .rwl⟩, ⟨4, 4, .rwl⟩, ⟨3, 1, .rwl⟩, ⟨0, 0, .rwl⟩]⟩,
  ⟨0x20004, [(0x20, 0x100)], 0x0, [⟨31, 27, .ro⟩, ⟨26, 16, .rw⟩, ⟨15, 11, .ro⟩, ⟨10, 0, .rw⟩]⟩,
  ⟨0x20008, [(0x20, 0x100)], 0xA1000139, [⟨31, 26, .rwl⟩, ⟨25, 20, .rwl⟩, ⟨19, 10, .rwl⟩, ⟨9, 0, .rwl⟩]⟩,
  ⟨0x2000C, [(0x20, 0x100)], 0x80040000, [⟨31, 20, .rwl⟩, ⟨19, 16, .rwl⟩, ⟨15, 15, .ro⟩, ⟨14, 8, .rwl⟩, ⟨7, 7, .ro⟩, ⟨6, 0, .rwl⟩]⟩,
  ⟨0x20010, [(0x20, 0x100)], 0x7D0, [⟨31, 24, .ro⟩, ⟨23, 16, .rwl⟩, ⟨15, 11, .ro⟩, ⟨10, 0, .rwl⟩]⟩,
  ⟨0x20014, [(0x20, 0x100)], 0xF4240, [⟨31, 24, .ro⟩, ⟨23, 0, .rwl⟩]⟩,
  ⟨0x20018, [(0x20, 0x100)], 0xB504, [⟨31, 16, .ro⟩, ⟨15, 0, .rwl⟩]⟩,
  ⟨0x2001C, [(0x20, 0x100)], 0x0, [⟨31, 28, .wo⟩, ⟨27, 10, .ro⟩, ⟨9, 0, .wo⟩]⟩,
  ⟨0x20020, [(0x20, 0x100)], 0x8000, [⟨31, 20, .ro⟩, ⟨19, 19, .w1c⟩, ⟨18, 18, .w1c⟩, ⟨17, 17, .ro⟩, ⟨16, 16, .ro⟩, ⟨15, 12, .ro⟩, ⟨11, 10, .ro⟩, ⟨9, 0, .ro⟩]⟩,
  ⟨0x20024, [(0x20, 0x100)], 0x0, [⟨31, 16, .ro⟩, ⟨15, 0, .rc⟩]⟩,
  ⟨0x20028, [(0x20, 0x100)], 0x0, [⟨31, 16, .ro⟩, ⟨15, 0, .ro⟩]⟩,
  ⟨0x2002C, [(0x20, 0x100)], 0x0, [⟨31, 16, .ro⟩, ⟨15, 0, .ro⟩]⟩,
  ⟨0x20030, [(0x20, 0x100)], 0x0, [⟨31, 11, .ro⟩, ⟨10, 0, .ro⟩]⟩]

/-- The registers of the stp range of R42. -/
def stpRows : List RegDesc := stpRows0

def pwmRows0 : List RegDesc := [
  ⟨0x24000, [(0x30, 0x40)], 0x300, [⟨31, 24, .rwl⟩, ⟨23, 18, .ro⟩, ⟨17, 16, .rwl⟩, ⟨15, 15, .ro⟩, ⟨14, 12, .rwl⟩, ⟨11, 11, .rwl⟩, ⟨10, 10, .rwl⟩, ⟨9, 9, .rwl⟩, ⟨8, 8, .rwl⟩, ⟨7, 7, .rwl⟩, ⟨6, 6, .rwd⟩, ⟨5, 5, .rwd⟩, ⟨4, 4, .rwl⟩, ⟨3, 3, .rwl⟩, ⟨2, 0, .rwd⟩]⟩,
  ⟨0x24004, [(0x30, 0x40)], 0x0, [⟨31, 20, .ro⟩, ⟨19, 0, .rw⟩]⟩,
  ⟨0x24008, [(0x30, 0x40)], 0x0, [⟨31, 20, .ro⟩, ⟨19, 0, .rw⟩]⟩,
  ⟨0x2400C, [(0x30, 0x40)], 0x0, [⟨31, 26, .ro⟩, ⟨25, 16, .rwl⟩, ⟨15, 10, .ro⟩, ⟨9, 0, .rwl⟩]⟩,
  ⟨0x24010, [(0x30, 0x40)], 0x1, [⟨31, 20, .ro⟩, ⟨19, 0, .rwl⟩]⟩,
  ⟨0x24014, [(0x30, 0x40)], 0x0, [⟨31, 20, .ro⟩, ⟨19, 0, .rwl⟩]⟩,
  ⟨0x24018, [(0x30, 0x40)], 0xFFFFF, [⟨31, 20, .ro⟩, ⟨19, 0, .rwl⟩]⟩,
  ⟨0x2401C, [(0x30, 0x40)], 0x0, [⟨31, 20, .ro⟩, ⟨19, 0, .rwl⟩]⟩,
  ⟨0x24020, [(0x30, 0x40)], 0x0, [⟨31, 5, .ro⟩, ⟨4, 4, .ro⟩, ⟨3, 3, .w1c⟩, ⟨2, 2, .w1c⟩, ⟨1, 1, .w1c⟩, ⟨0, 0, .ro⟩]⟩,
  ⟨0x24024, [(0x30, 0x40)], 0x0, [⟨31, 16, .rc⟩, ⟨15, 0, .rc⟩]⟩,
  ⟨0x24028, [(0x30, 0x40)], 0x0, [⟨31, 20, .ro⟩, ⟨19, 0, .ro⟩]⟩,
  ⟨0x2402C, [(0x30, 0x40)], 0x0, [⟨31, 20, .ro⟩, ⟨19, 0, .ro⟩]⟩,
  ⟨0x24C00, [(0x8, 0x4)], 0x0, [⟨31, 10, .ro⟩, ⟨9, 9, .rwl⟩, ⟨8, 8, .rwl⟩, ⟨7, 0, .rwl⟩]⟩,
  ⟨0x24C20, [], 0x0, [⟨31, 16, .ro⟩, ⟨15, 8, .w1c⟩, ⟨7, 0, .ro⟩]⟩]

/-- The registers of the pwm range of R42. -/
def pwmRows : List RegDesc := pwmRows0

def lpeRows0 : List RegDesc := [
  ⟨0x28000, [], 0x0, [⟨31, 16, .ro⟩, ⟨15, 0, .ro⟩]⟩,
  ⟨0x28100, [(0x20, 0x4)], 0x0, [⟨31, 0, .ro⟩]⟩,
  ⟨0x28180, [(0x20, 0x4)], 0x0, [⟨31, 0, .w1c⟩]⟩,
  ⟨0x28800, [(0x100, 0x4)], 0x0, [⟨31, 0, .rw⟩]⟩,
  ⟨0x29000, [(0x400, 0x4)], 0x0, [⟨31, 0, .ro⟩]⟩,
  ⟨0x2A000, [(0x400, 0x4)], 0x0, [⟨31, 0, .ro⟩]⟩,
  ⟨0x2B000, [(0x400, 0x4)], 0x0, [⟨31, 0, .ro⟩]⟩,
  ⟨0x28200, [(0x10, 0x20)], 0x0, [⟨31, 31, .rw⟩, ⟨30, 28, .ro⟩, ⟨27, 26, .rw⟩, ⟨25, 16, .rw⟩, ⟨15, 0, .rw⟩]⟩,
  ⟨0x28204, [(0x10, 0x20)], 0x30000000, [⟨31, 0, .rw⟩]⟩,
  ⟨0x28208, [(0x10, 0x20)], 0xA00000, [⟨31, 28, .wo⟩, ⟨27, 25, .ro⟩, ⟨24, 20, .rw⟩, ⟨19, 0, .rw⟩]⟩,
  ⟨0x2820C, [(0x10, 0x20)], 0x0, [⟨31, 31, .ro⟩, ⟨30, 30, .ro⟩, ⟨29, 29, .ro⟩, ⟨28, 28, .w1c⟩, ⟨27, 16, .ro⟩, ⟨15, 0, .rc⟩]⟩,
  ⟨0x28210, [(0x10, 0x20)], 0x0, [⟨31, 0, .ro⟩]⟩,
  ⟨0x28214, [(0x10, 0x20)], 0x0, [⟨31, 0, .ro⟩]⟩]

/-- The registers of the lpe range of R42. -/
def lpeRows : List RegDesc := lpeRows0

def adcRows0 : List RegDesc := [
  ⟨0x2C000, [], 0x0, [⟨31, 26, .ro⟩, ⟨25, 25, .w1c⟩, ⟨24, 24, .w1c⟩, ⟨23, 21, .ro⟩, ⟨20, 16, .w1c⟩, ⟨15, 13, .ro⟩, ⟨12, 8, .ro⟩, ⟨7, 1, .ro⟩, ⟨0, 0, .ro⟩]⟩,
  ⟨0x2C004, [], 0x0, [⟨31, 28, .wo⟩, ⟨27, 5, .ro⟩, ⟨4, 0, .rw⟩]⟩,
  ⟨0x2C100, [(0x10, 0x40)], 0x0, [⟨31, 31, .rwl⟩, ⟨30, 30, .rwl⟩, ⟨29, 3, .ro⟩, ⟨2, 0, .rwl⟩]⟩,
  ⟨0x2C104, [(0x10, 0x40), (0x4, 0x4)], 0x0, [⟨31, 31, .rwl⟩, ⟨30, 30, .rwl⟩, ⟨29, 29, .rwl⟩, ⟨28, 22, .ro⟩, ⟨21, 16, .rwl⟩, ⟨15, 4, .rwl⟩, ⟨3, 3, .ro⟩, ⟨2, 0, .rwl⟩]⟩,
  ⟨0x2C114, [(0x10, 0x40), (0x6, 0x4)], 0x0, [⟨31, 31, .rwl⟩, ⟨30, 30, .rwl⟩, ⟨29, 12, .ro⟩, ⟨11, 8, .rwl⟩, ⟨7, 4, .rwl⟩, ⟨3, 3, .ro⟩, ⟨2, 0, .rwl⟩]⟩,
  ⟨0x2C12C, [(0x10, 0x40)], 0x0, [⟨31, 31, .wo⟩, ⟨30, 30, .ro⟩, ⟨29, 29, .w1c⟩, ⟨28, 28, .w1c⟩, ⟨27, 12, .ro⟩, ⟨11, 8, .rw⟩, ⟨7, 4, .rw⟩, ⟨3, 3, .ro⟩, ⟨2, 0, .rw⟩]⟩,
  ⟨0x2C130, [(0x10, 0x40)], 0x0, [⟨31, 28, .ro⟩, ⟨27, 24, .ro⟩, ⟨23, 16, .rc⟩, ⟨15, 0, .rc⟩]⟩,
  ⟨0x2C800, [(0x60, 0x8)], 0x0, [⟨31, 31, .rc⟩, ⟨30, 30, .ro⟩, ⟨29, 28, .ro⟩, ⟨27, 20, .ro⟩, ⟨19, 0, .ro⟩]⟩,
  ⟨0x2C804, [(0x60, 0x8)], 0x0, [⟨31, 0, .ro⟩]⟩,
  ⟨0x2CC00, [(0x60, 0x4)], 0x0, [⟨31, 8, .ro⟩, ⟨7, 0, .rwl⟩]⟩,
  ⟨0x2D000, [(0x8, 0x20)], 0x0, [⟨31, 31, .rwl⟩, ⟨30, 30, .rwl⟩, ⟨29, 16, .ro⟩, ⟨15, 8, .rwl⟩, ⟨7, 4, .ro⟩, ⟨3, 0, .rwl⟩]⟩,
  ⟨0x2D004, [(0x8, 0x20)], 0x0, [⟨31, 0, .ro⟩]⟩,
  ⟨0x2D00C, [(0x8, 0x20)], 0x0, [⟨31, 0, .ro⟩]⟩,
  ⟨0x2D008, [(0x8, 0x20)], 0x0, [⟨31, 3, .ro⟩, ⟨2, 2, .w1c⟩, ⟨1, 1, .ro⟩, ⟨0, 0, .rc⟩]⟩,
  ⟨0x2D200, [(0x5, 0x4)], 0x0, [⟨31, 31, .rw⟩, ⟨30, 30, .rw⟩, ⟨29, 21, .ro⟩, ⟨20, 16, .rw⟩, ⟨15, 10, .ro⟩, ⟨9, 0, .rw⟩]⟩]

/-- The registers of the adc range of R42. -/
def adcRows : List RegDesc := adcRows0

def acqRows0 : List RegDesc := [
  ⟨0x2E000, [(0x8, 0x400)], 0xC0004, [⟨31, 21, .ro⟩, ⟨20, 16, .rwl⟩, ⟨15, 6, .ro⟩, ⟨5, 4, .rwl⟩, ⟨3, 3, .rwl⟩, ⟨2, 2, .rwl⟩, ⟨1, 1, .ro⟩, ⟨0, 0, .rwl⟩]⟩,
  ⟨0x2E004, [(0x8, 0x400)], 0x30000000, [⟨31, 0, .rwl⟩]⟩,
  ⟨0x2E008, [(0x8, 0x400)], 0x0, [⟨31, 28, .wo⟩, ⟨27, 0, .ro⟩]⟩,
  ⟨0x2E00C, [(0x8, 0x400)], 0x0, [⟨31, 31, .ro⟩, ⟨30, 30, .ro⟩, ⟨29, 29, .ro⟩, ⟨28, 28, .w1c⟩, ⟨27, 27, .ro⟩, ⟨26, 26, .ro⟩, ⟨25, 4, .ro⟩, ⟨3, 3, .ro⟩, ⟨2, 0, .ro⟩]⟩,
  ⟨0x2E010, [(0x8, 0x400)], 0x0, [⟨31, 0, .ro⟩]⟩,
  ⟨0x2E014, [(0x8, 0x400)], 0x0, [⟨31, 0, .rw⟩]⟩,
  ⟨0x2E018, [(0x8, 0x400)], 0x0, [⟨31, 0, .ro⟩]⟩,
  ⟨0x2E01C, [(0x8, 0x400)], 0x0, [⟨31, 0, .rc⟩]⟩,
  ⟨0x2E020, [(0x8, 0x400)], 0x0, [⟨31, 16, .ro⟩, ⟨15, 0, .ro⟩]⟩,
  ⟨0x2E024, [(0x8, 0x400)], 0x0, [⟨31, 16, .rwl⟩, ⟨15, 0, .rwl⟩]⟩,
  ⟨0x2E028, [(0x8, 0x400)], 0x0, [⟨31, 0, .rwl⟩]⟩,
  ⟨0x2E02C, [(0x8, 0x400)], 0x0, [⟨31, 0, .rwl⟩]⟩,
  ⟨0x2E030, [(0x8, 0x400)], 0x0, [⟨31, 0, .rwl⟩]⟩,
  ⟨0x2E040, [(0x8, 0x400), (0x2, 0x20)], 0x0, [⟨31, 31, .rwl⟩, ⟨30, 30, .rwl⟩, ⟨29, 28, .rwl⟩, ⟨27, 0, .ro⟩]⟩,
  ⟨0x2E044, [(0x8, 0x400), (0x2, 0x20)], 0x0, [⟨31, 0, .rwl⟩]⟩,
  ⟨0x2E048, [(0x8, 0x400), (0x2, 0x20)], 0x0, [⟨31, 0, .rwl⟩]⟩,
  ⟨0x2E04C, [(0x8, 0x400), (0x2, 0x20)], 0x0, [⟨31, 0, .rwl⟩]⟩,
  ⟨0x2E050, [(0x8, 0x400), (0x2, 0x20)], 0x0, [⟨31, 0, .rwl⟩]⟩,
  ⟨0x2E080, [(0x8, 0x400), (0x8, 0x8)], 0x0, [⟨31, 28, .rwl⟩, ⟨27, 24, .rwl⟩, ⟨23, 21, .rwl⟩, ⟨20, 20, .rwl⟩, ⟨19, 19, .rwl⟩, ⟨18, 18, .rwl⟩, ⟨17, 16, .rwl⟩, ⟨15, 14, .rwl⟩, ⟨13, 0, .ro⟩]⟩,
  ⟨0x2E084, [(0x8, 0x400), (0x8, 0x8)], 0x0, [⟨31, 28, .rwl⟩, ⟨27, 24, .rwl⟩, ⟨23, 21, .rwl⟩, ⟨20, 20, .rwl⟩, ⟨19, 19, .rwl⟩, ⟨18, 18, .rwl⟩, ⟨17, 16, .rwl⟩, ⟨15, 14, .rwl⟩, ⟨13, 0, .ro⟩]⟩,
  ⟨0x2E100, [(0x8, 0x400), (0x10, 0x10)], 0x0, [⟨31, 31, .rwl⟩, ⟨30, 28, .rwl⟩, ⟨27, 27, .rwl⟩, ⟨26, 26, .rwl⟩, ⟨25, 24, .ro⟩, ⟨23, 16, .rwl⟩, ⟨15, 12, .rwl⟩, ⟨11, 7, .ro⟩, ⟨6, 0, .rwl⟩]⟩,
  ⟨0x2E104, [(0x8, 0x400), (0x10, 0x10)], 0x0, [⟨31, 0, .rwl⟩]⟩,
  ⟨0x2E108, [(0x8, 0x400), (0x10, 0x10)], 0x0, [⟨31, 30, .rwl⟩, ⟨29, 24, .rwl⟩, ⟨23, 12, .ro⟩, ⟨11, 0, .rwl⟩]⟩,
  ⟨0x2E10C, [(0x8, 0x400), (0x10, 0x10)], 0x0, [⟨31, 0, .rwl⟩]⟩]

/-- The registers of the acq range of R42. -/
def acqRows : List RegDesc := acqRows0

def schRows0 : List RegDesc := [
  ⟨0x30000, [], 0x4000800, [⟨31, 28, .ro⟩, ⟨27, 16, .rwl⟩, ⟨15, 14, .ro⟩, ⟨13, 0, .rwl⟩]⟩,
  ⟨0x30004, [], 0x0, [⟨31, 30, .ro⟩, ⟨29, 16, .ro⟩, ⟨15, 13, .rc⟩, ⟨12, 0, .ro⟩]⟩,
  ⟨0x30008, [], 0x0, [⟨31, 7, .ro⟩, ⟨6, 6, .w1c⟩, ⟨5, 5, .w1c⟩, ⟨4, 4, .w1c⟩, ⟨3, 3, .w1c⟩, ⟨2, 2, .w1c⟩, ⟨1, 1, .w1c⟩, ⟨0, 0, .w1c⟩]⟩,
  ⟨0x3000C, [], 0x0, [⟨31, 16, .rc⟩, ⟨15, 0, .rc⟩]⟩,
  ⟨0x30010, [], 0x340000, [⟨31, 24, .ro⟩, ⟨23, 20, .rw⟩, ⟨19, 16, .rw⟩, ⟨15, 0, .rw⟩]⟩,
  ⟨0x30014, [], 0x7364, [⟨31, 16, .ro⟩, ⟨15, 8, .rw⟩, ⟨7, 0, .rw⟩]⟩,
  ⟨0x30018, [], 0x0, [⟨31, 16, .ro⟩, ⟨15, 0, .ro⟩]⟩,
  ⟨0x3001C, [], 0x34282422, [⟨31, 24, .rw⟩, ⟨23, 16, .rw⟩, ⟨15, 8, .rw⟩, ⟨7, 0, .rw⟩]⟩,
  ⟨0x30020, [], 0x960, [⟨31, 16, .ro⟩, ⟨15, 0, .rw⟩]⟩,
  ⟨0x30034, [], 0x0, [⟨31, 8, .ro⟩, ⟨7, 0, .rw⟩]⟩,
  ⟨0x30024, [], 0x0, [⟨31, 16, .rc⟩, ⟨15, 0, .rc⟩]⟩,
  ⟨0x30028, [], 0x0, [⟨31, 0, .rwl⟩]⟩,
  ⟨0x3002C, [], 0x0, [⟨31, 0, .rwl⟩]⟩,
  ⟨0x30030, [], 0x0, [⟨31, 0, .rwl⟩]⟩,
  ⟨0x30040, [], 0x0, [⟨31, 0, .rw⟩]⟩,
  ⟨0x30044, [], 0x0, [⟨31, 0, .wo⟩]⟩,
  ⟨0x30048, [], 0x0, [⟨31, 0, .wo⟩]⟩,
  ⟨0x30050, [], 0x0, [⟨31, 16, .ro⟩, ⟨15, 0, .rw⟩]⟩,
  ⟨0x30054, [], 0x0, [⟨31, 16, .rc⟩, ⟨15, 0, .ro⟩]⟩,
  ⟨0x30400, [(0x100, 0x4)], 0x0, [⟨31, 28, .wo⟩, ⟨27, 2, .ro⟩, ⟨1, 1, .rwl⟩, ⟨0, 0, .rwl⟩]⟩,
  ⟨0x30800, [(0x100, 0x4)], 0x0, [⟨31, 31, .ro⟩, ⟨30, 28, .ro⟩, ⟨27, 16, .ro⟩, ⟨15, 0, .ro⟩]⟩,
  ⟨0x30C00, [(0x40, 0x4)], 0x0, [⟨31, 26, .ro⟩, ⟨25, 24, .rw⟩, ⟨23, 0, .rw⟩]⟩,
  ⟨0x31000, [(0x10, 0x80)], 0x17, [⟨31, 9, .ro⟩, ⟨8, 8, .rwl⟩, ⟨7, 5, .ro⟩, ⟨4, 4, .rwl⟩, ⟨3, 3, .ro⟩, ⟨2, 0, .rwl⟩]⟩,
  ⟨0x31004, [(0x10, 0x80)], 0x0, [⟨31, 0, .rw⟩]⟩]

def schRows1 : List RegDesc := [
  ⟨0x31008, [(0x10, 0x80)], 0x0, [⟨31, 28, .wo⟩, ⟨27, 0, .ro⟩]⟩,
  ⟨0x3100C, [(0x10, 0x80)], 0x0, [⟨31, 13, .ro⟩, ⟨12, 8, .ro⟩, ⟨7, 7, .w1c⟩, ⟨6, 6, .ro⟩, ⟨5, 4, .ro⟩, ⟨3, 2, .ro⟩, ⟨1, 0, .ro⟩]⟩,
  ⟨0x31010, [(0x10, 0x80)], 0x0, [⟨31, 31, .rc⟩, ⟨30, 30, .ro⟩, ⟨29, 29, .ro⟩, ⟨28, 26, .ro⟩, ⟨25, 24, .ro⟩, ⟨23, 22, .ro⟩, ⟨21, 21, .ro⟩, ⟨20, 12, .ro⟩, ⟨11, 0, .ro⟩]⟩,
  ⟨0x31014, [(0x10, 0x80)], 0x0, [⟨31, 0, .ro⟩]⟩,
  ⟨0x31018, [(0x10, 0x80)], 0x0, [⟨31, 0, .ro⟩]⟩,
  ⟨0x3101C, [(0x10, 0x80)], 0x0, [⟨31, 0, .ro⟩]⟩,
  ⟨0x31020, [(0x10, 0x80)], 0x0, [⟨31, 0, .ro⟩]⟩,
  ⟨0x31024, [(0x10, 0x80)], 0x0, [⟨31, 0, .ro⟩]⟩,
  ⟨0x31050, [(0x10, 0x80)], 0x0, [⟨31, 0, .ro⟩]⟩,
  ⟨0x3104C, [(0x10, 0x80)], 0x0, [⟨31, 0, .ro⟩]⟩,
  ⟨0x31048, [(0x10, 0x80)], 0x0, [⟨31, 31, .ro⟩, ⟨30, 23, .ro⟩, ⟨22, 16, .ro⟩, ⟨15, 12, .ro⟩, ⟨11, 0, .ro⟩]⟩,
  ⟨0x31028, [(0x10, 0x80)], 0x0, [⟨31, 0, .rw⟩]⟩,
  ⟨0x3102C, [(0x10, 0x80)], 0x0, [⟨31, 1, .ro⟩, ⟨0, 0, .wo⟩]⟩,
  ⟨0x31030, [(0x10, 0x80)], 0x0, [⟨31, 0, .rw⟩]⟩,
  ⟨0x31034, [(0x10, 0x80)], 0x0, [⟨31, 0, .wo⟩]⟩,
  ⟨0x31038, [(0x10, 0x80)], 0xFFFFFFFF, [⟨31, 0, .rw⟩]⟩,
  ⟨0x3103C, [(0x10, 0x80)], 0xFFFFFFFF, [⟨31, 0, .rw⟩]⟩,
  ⟨0x31040, [(0x10, 0x80)], 0x0, [⟨31, 1, .ro⟩, ⟨0, 0, .rw⟩]⟩,
  ⟨0x31044, [(0x10, 0x80)], 0x0, [⟨31, 0, .wo⟩]⟩]

/-- The registers of the sch range of R42. -/
def schRows : List RegDesc := schRows0 ++ schRows1

def scnRows0 : List RegDesc := [
  ⟨0x34000, [], 0x50003E8, [⟨31, 30, .ro⟩, ⟨29, 29, .rwl⟩, ⟨28, 28, .rwl⟩, ⟨27, 27, .ro⟩, ⟨26, 20, .rwl⟩, ⟨19, 0, .rwl⟩]⟩,
  ⟨0x34004, [], 0xA04, [⟨31, 16, .ro⟩, ⟨15, 8, .rwl⟩, ⟨7, 0, .rwl⟩]⟩,
  ⟨0x34010, [], 0x1, [⟨31, 17, .ro⟩, ⟨16, 0, .rwd⟩]⟩,
  ⟨0x34014, [], 0x0, [⟨31, 26, .ro⟩, ⟨25, 16, .rwd⟩, ⟨15, 13, .ro⟩, ⟨12, 0, .rwd⟩]⟩,
  ⟨0x34018, [], 0x0, [⟨31, 26, .ro⟩, ⟨25, 16, .rwd⟩, ⟨15, 11, .ro⟩, ⟨10, 0, .rwd⟩]⟩,
  ⟨0x34020, [], 0x0, [⟨31, 8, .ro⟩, ⟨7, 7, .w1c⟩, ⟨6, 6, .w1c⟩, ⟨5, 5, .w1c⟩, ⟨4, 4, .w1c⟩, ⟨3, 3, .ro⟩, ⟨2, 2, .ro⟩, ⟨1, 1, .ro⟩, ⟨0, 0, .ro⟩]⟩,
  ⟨0x34024, [], 0x0, [⟨31, 0, .ro⟩]⟩,
  ⟨0x34028, [], 0x0, [⟨31, 0, .ro⟩]⟩,
  ⟨0x3402C, [], 0x0, [⟨31, 20, .ro⟩, ⟨19, 0, .ro⟩]⟩,
  ⟨0x34030, [], 0x0, [⟨31, 20, .ro⟩, ⟨19, 0, .ro⟩]⟩,
  ⟨0x34034, [], 0x0, [⟨31, 16, .rc⟩, ⟨15, 0, .rc⟩]⟩,
  ⟨0x34038, [], 0x0, [⟨31, 16, .rc⟩, ⟨15, 2, .ro⟩, ⟨1, 1, .ro⟩, ⟨0, 0, .ro⟩]⟩,
  ⟨0x3403C, [], 0x0, [⟨31, 16, .ro⟩, ⟨15, 8, .ro⟩, ⟨7, 0, .ro⟩]⟩,
  ⟨0x34040, [], 0x0, [⟨31, 20, .ro⟩, ⟨19, 16, .rw⟩, ⟨15, 6, .ro⟩, ⟨5, 0, .rw⟩]⟩,
  ⟨0x34100, [(0x40, 0x8)], 0x0, [⟨31, 31, .rw⟩, ⟨30, 26, .ro⟩, ⟨25, 22, .rw⟩, ⟨21, 16, .ro⟩, ⟨15, 0, .rw⟩]⟩,
  ⟨0x34104, [(0x40, 0x8)], 0x0, [⟨31, 0, .rw⟩]⟩]

/-- The registers of the scn range of R42. -/
def scnRows : List RegDesc := scnRows0

def flkRows0 : List RegDesc := [
  ⟨0x36000, [(0x8, 0x40)], 0x20030200, [⟨31, 24, .rwl⟩, ⟨23, 20, .ro⟩, ⟨19, 16, .rwl⟩, ⟨15, 12, .ro⟩, ⟨11, 8, .rwl⟩, ⟨7, 4, .ro⟩, ⟨3, 0, .rwl⟩]⟩,
  ⟨0x36004, [(0x8, 0x40)], 0x0, [⟨31, 28, .wo⟩, ⟨27, 4, .ro⟩, ⟨3, 0, .wo⟩]⟩,
  ⟨0x36008, [(0x8, 0x40)], 0x0, [⟨31, 28, .ro⟩, ⟨27, 24, .ro⟩, ⟨23, 22, .ro⟩, ⟨21, 21, .w1c⟩, ⟨20, 20, .w1c⟩, ⟨19, 19, .w1c⟩, ⟨18, 18, .ro⟩, ⟨17, 17, .ro⟩, ⟨16, 16, .ro⟩, ⟨15, 12, .ro⟩, ⟨11, 8, .ro⟩, ⟨7, 4, .ro⟩, ⟨3, 0, .ro⟩]⟩,
  ⟨0x3600C, [(0x8, 0x40)], 0x0, [⟨31, 16, .rc⟩, ⟨15, 0, .rc⟩]⟩,
  ⟨0x36010, [(0x8, 0x40)], 0x0, [⟨31, 0, .ro⟩]⟩,
  ⟨0x36014, [(0x8, 0x40)], 0x0, [⟨31, 0, .ro⟩]⟩,
  ⟨0x36800, [(0x200, 0x8)], 0x0, [⟨31, 29, .rwl⟩, ⟨28, 28, .rwl⟩, ⟨27, 25, .rwl⟩, ⟨24, 24, .rwl⟩, ⟨23, 12, .rwl⟩, ⟨11, 0, .rwl⟩]⟩,
  ⟨0x36804, [(0x200, 0x8)], 0x0, [⟨31, 0, .ro⟩]⟩,
  ⟨0x37800, [(0x200, 0x4)], 0x0, [⟨31, 6, .ro⟩, ⟨5, 5, .w1c⟩, ⟨4, 4, .ro⟩, ⟨3, 0, .ro⟩]⟩]

/-- The registers of the flk range of R42. -/
def flkRows : List RegDesc := flkRows0

def safRows0 : List RegDesc := [
  ⟨0x38000, [], 0x0, [⟨31, 24, .ro⟩, ⟨23, 16, .ro⟩, ⟨15, 8, .ro⟩, ⟨7, 6, .ro⟩, ⟨5, 5, .ro⟩, ⟨4, 4, .ro⟩, ⟨3, 3, .ro⟩, ⟨2, 0, .ro⟩]⟩,
  ⟨0x38020, [], 0x0, [⟨31, 0, .ro⟩]⟩,
  ⟨0x38004, [], 0x0, [⟨31, 0, .ro⟩]⟩,
  ⟨0x38008, [], 0x0, [⟨31, 0, .ro⟩]⟩,
  ⟨0x3800C, [], 0x0, [⟨31, 0, .ro⟩]⟩,
  ⟨0x38010, [], 0x0, [⟨31, 0, .ro⟩]⟩,
  ⟨0x38014, [], 0x0, [⟨31, 0, .ro⟩]⟩,
  ⟨0x38018, [], 0x0, [⟨31, 0, .ro⟩]⟩,
  ⟨0x3801C, [], 0x0, [⟨31, 0, .ro⟩]⟩]

/-- The registers of the saf range of R42. -/
def safRows : List RegDesc := safRows0

def twnRows0 : List RegDesc := [
  ⟨0x3A000, [], 0x0, [⟨31, 17, .ro⟩, ⟨16, 8, .rwl⟩, ⟨7, 2, .ro⟩, ⟨1, 1, .rwl⟩, ⟨0, 0, .rwl⟩]⟩,
  ⟨0x3A004, [], 0x0, [⟨31, 28, .wo⟩, ⟨27, 0, .ro⟩]⟩,
  ⟨0x3A008, [], 0x0, [⟨31, 24, .ro⟩, ⟨23, 16, .ro⟩, ⟨15, 8, .ro⟩, ⟨7, 7, .w1c⟩, ⟨6, 6, .w1c⟩, ⟨5, 5, .w1c⟩, ⟨4, 4, .w1c⟩, ⟨3, 3, .ro⟩, ⟨2, 2, .ro⟩, ⟨1, 0, .ro⟩]⟩,
  ⟨0x3A00C, [], 0x0, [⟨31, 16, .rc⟩, ⟨15, 0, .rc⟩]⟩,
  ⟨0x3A010, [], 0x0, [⟨31, 0, .ro⟩]⟩]

/-- The registers of the twn range of R42. -/
def twnRows : List RegDesc := twnRows0

def evrRows0 : List RegDesc := [
  ⟨0x3C000, [], 0x0, [⟨31, 28, .wo⟩, ⟨27, 0, .ro⟩]⟩,
  ⟨0x3C004, [], 0x0, [⟨31, 0, .wo⟩]⟩,
  ⟨0x3C008, [], 0x0, [⟨31, 0, .wo⟩]⟩,
  ⟨0x3C00C, [], 0x0, [⟨31, 24, .rc⟩, ⟨23, 23, .w1c⟩, ⟨22, 22, .ro⟩, ⟨21, 21, .ro⟩, ⟨20, 15, .ro⟩, ⟨14, 0, .ro⟩]⟩,
  ⟨0x3C010, [], 0x0, [⟨31, 0, .rc⟩]⟩,
  ⟨0x3C014, [], 0x0, [⟨31, 0, .ro⟩]⟩,
  ⟨0x3C018, [], 0x0, [⟨31, 0, .ro⟩]⟩,
  ⟨0x3C01C, [], 0x0, [⟨31, 0, .ro⟩]⟩,
  ⟨0x3C020, [], 0x0, [⟨31, 0, .rw⟩]⟩,
  ⟨0x3C024, [], 0x0, [⟨31, 3, .ro⟩, ⟨2, 2, .ro⟩, ⟨1, 1, .ro⟩, ⟨0, 0, .ro⟩]⟩,
  ⟨0x3C040, [(0xE, 0x4)], 0x0, [⟨31, 31, .rwl⟩, ⟨30, 20, .ro⟩, ⟨19, 0, .rwl⟩]⟩,
  ⟨0x3C100, [(0x20, 0x4)], 0x0, [⟨31, 0, .ro⟩]⟩]

/-- The registers of the evr range of R42. -/
def evrRows : List RegDesc := evrRows0

def mfpRows0 : List RegDesc := [
  ⟨0x3E000, [(0x120, 0x4)], 0x450, [⟨31, 31, .ro⟩, ⟨30, 16, .ro⟩, ⟨15, 12, .rwl⟩, ⟨11, 11, .rwl⟩, ⟨10, 10, .rwl⟩, ⟨9, 9, .rwl⟩, ⟨8, 8, .rwl⟩, ⟨7, 6, .rwl⟩, ⟨5, 4, .rwl⟩, ⟨3, 3, .ro⟩, ⟨2, 0, .rwl⟩]⟩,
  ⟨0x3E900, [(0x9, 0x10)], 0x0, [⟨31, 0, .ro⟩]⟩,
  ⟨0x3E904, [(0x9, 0x10)], 0x0, [⟨31, 0, .rw⟩]⟩,
  ⟨0x3E908, [(0x9, 0x10)], 0x0, [⟨31, 0, .rw⟩]⟩,
  ⟨0x3E800, [], 0x0, [⟨31, 18, .ro⟩, ⟨17, 16, .rwl⟩, ⟨15, 14, .rwl⟩, ⟨13, 12, .rwl⟩, ⟨11, 10, .rwl⟩, ⟨9, 8, .rwl⟩, ⟨7, 6, .rwl⟩, ⟨5, 4, .rwl⟩, ⟨3, 2, .rwl⟩, ⟨1, 0, .rwl⟩]⟩,
  ⟨0x3E804, [], 0x0, [⟨31, 27, .ro⟩, ⟨26, 26, .w1c⟩, ⟨25, 25, .w1c⟩, ⟨24, 24, .w1c⟩, ⟨23, 23, .w1c⟩, ⟨22, 22, .w1c⟩, ⟨21, 21, .w1c⟩, ⟨20, 20, .w1c⟩, ⟨19, 19, .w1c⟩, ⟨18, 18, .w1c⟩, ⟨17, 16, .ro⟩, ⟨15, 14, .ro⟩, ⟨13, 12, .ro⟩, ⟨11, 10, .ro⟩, ⟨9, 8, .ro⟩, ⟨7, 6, .ro⟩, ⟨5, 4, .ro⟩, ⟨3, 2, .ro⟩, ⟨1, 0, .ro⟩]⟩,
  ⟨0x3E808, [], 0x0, [⟨31, 25, .ro⟩, ⟨24, 16, .ro⟩, ⟨15, 2, .ro⟩, ⟨1, 1, .w1c⟩, ⟨0, 0, .w1c⟩]⟩]

/-- The registers of the mfp range of R42. -/
def mfpRows : List RegDesc := mfpRows0

def slotRows0 : List RegDesc := [
  ⟨0x40000, [(0x400, 0x80)], 0x0, [⟨31, 24, .rwd⟩, ⟨23, 22, .rwd⟩, ⟨21, 21, .rwd⟩, ⟨20, 20, .rwd⟩, ⟨19, 19, .rwl⟩, ⟨18, 16, .rwl⟩, ⟨15, 8, .rwl⟩, ⟨7, 4, .ro⟩, ⟨3, 0, .rwl⟩]⟩,
  ⟨0x40004, [(0x400, 0x80)], 0x0, [⟨31, 28, .rwl⟩, ⟨27, 24, .rwl⟩, ⟨23, 10, .ro⟩, ⟨9, 0, .rwl⟩]⟩,
  ⟨0x40008, [(0x400, 0x80)], 0x0, [⟨31, 28, .rwl⟩, ⟨27, 24, .rwl⟩, ⟨23, 10, .ro⟩, ⟨9, 0, .rwl⟩]⟩,
  ⟨0x4000C, [(0x400, 0x80)], 0x0, [⟨31, 28, .rwl⟩, ⟨27, 24, .rwl⟩, ⟨23, 10, .ro⟩, ⟨9, 0, .rwl⟩]⟩,
  ⟨0x40010, [(0x400, 0x80)], 0x0, [⟨31, 28, .rwl⟩, ⟨27, 10, .ro⟩, ⟨9, 0, .rwl⟩]⟩,
  ⟨0x40014, [(0x400, 0x80)], 0x0, [⟨31, 28, .wo⟩, ⟨27, 1, .ro⟩, ⟨0, 0, .rw⟩]⟩,
  ⟨0x40018, [(0x400, 0x80)], 0x0, [⟨31, 0, .rwd⟩]⟩,
  ⟨0x4001C, [(0x400, 0x80)], 0x0, [⟨31, 0, .rwd⟩]⟩,
  ⟨0x40020, [(0x400, 0x80)], 0x0, [⟨31, 0, .rwd⟩]⟩,
  ⟨0x40024, [(0x400, 0x80)], 0x0, [⟨31, 0, .rwd⟩]⟩,
  ⟨0x40028, [(0x400, 0x80)], 0x0, [⟨31, 0, .rwd⟩]⟩,
  ⟨0x4002C, [(0x400, 0x80)], 0x3F800000, [⟨31, 0, .rwd⟩]⟩,
  ⟨0x40030, [(0x400, 0x80)], 0x0, [⟨31, 0, .rwd⟩]⟩,
  ⟨0x40034, [(0x400, 0x80)], 0x0, [⟨31, 0, .rwd⟩]⟩,
  ⟨0x40038, [(0x400, 0x80)], 0x0, [⟨31, 0, .rwd⟩]⟩,
  ⟨0x4003C, [(0x400, 0x80)], 0x0, [⟨31, 0, .rwd⟩]⟩,
  ⟨0x40040, [(0x400, 0x80)], 0x3F800000, [⟨31, 0, .rwd⟩]⟩,
  ⟨0x40044, [(0x400, 0x80)], 0x0, [⟨31, 0, .rwd⟩]⟩,
  ⟨0x40048, [(0x400, 0x80)], 0x0, [⟨31, 0, .rwd⟩]⟩,
  ⟨0x40054, [(0x400, 0x80)], 0x0, [⟨31, 0, .rwd⟩]⟩,
  ⟨0x40058, [(0x400, 0x80)], 0x0, [⟨31, 0, .rwd⟩]⟩,
  ⟨0x4005C, [(0x400, 0x80)], 0x0, [⟨31, 0, .rwd⟩]⟩,
  ⟨0x40060, [(0x400, 0x80)], 0x0, [⟨31, 0, .rwd⟩]⟩,
  ⟨0x40064, [(0x400, 0x80)], 0x0, [⟨31, 0, .rwd⟩]⟩]

def slotRows1 : List RegDesc := [
  ⟨0x4004C, [(0x400, 0x80)], 0x0, [⟨31, 24, .ro⟩, ⟨23, 16, .rwd⟩, ⟨15, 15, .rwd⟩, ⟨14, 14, .ro⟩, ⟨13, 12, .rwd⟩, ⟨11, 11, .ro⟩, ⟨10, 10, .rwd⟩, ⟨9, 9, .rwd⟩, ⟨8, 8, .rwd⟩, ⟨7, 0, .rwd⟩]⟩,
  ⟨0x40050, [(0x400, 0x80)], 0x0, [⟨31, 16, .ro⟩, ⟨15, 8, .rwd⟩, ⟨7, 7, .ro⟩, ⟨6, 6, .rwd⟩, ⟨5, 4, .rwd⟩, ⟨3, 2, .rwd⟩, ⟨1, 0, .rwd⟩]⟩,
  ⟨0x40068, [(0x400, 0x80)], 0x0, [⟨31, 0, .rw⟩]⟩,
  ⟨0x4006C, [(0x400, 0x80)], 0x0, [⟨31, 0, .rw⟩]⟩,
  ⟨0x40070, [(0x400, 0x80)], 0x0, [⟨31, 24, .ro⟩, ⟨23, 16, .rc⟩, ⟨15, 10, .ro⟩, ⟨9, 9, .w1c⟩, ⟨8, 8, .w1c⟩, ⟨7, 7, .w1c⟩, ⟨6, 6, .ro⟩, ⟨5, 5, .ro⟩, ⟨4, 4, .ro⟩, ⟨3, 3, .ro⟩, ⟨2, 2, .ro⟩, ⟨1, 1, .ro⟩, ⟨0, 0, .ro⟩]⟩,
  ⟨0x40074, [(0x400, 0x80)], 0x0, [⟨31, 0, .ro⟩]⟩,
  ⟨0x40078, [(0x400, 0x80)], 0x0, [⟨31, 0, .ro⟩]⟩,
  ⟨0x4007C, [(0x400, 0x80)], 0x0, [⟨31, 0, .ro⟩]⟩]

/-- The registers of the slot range of R42. -/
def slotRows : List RegDesc := slotRows0 ++ slotRows1

def tblRows0 : List RegDesc := [
  ⟨0x7E000, [(0x8, 0x400), (0x100, 0x4)], 0, [⟨31, 16, .rwd⟩, ⟨15, 0, .rwd⟩]⟩,
  ⟨0x60000, [(0x100, 0x100), (0x21, 0x4)], 0x3F800000, [⟨31, 0, .rwd⟩]⟩,
  ⟨0x60084, [(0x100, 0x100)], 0x3F800000, [⟨31, 0, .rwd⟩]⟩]

/-- The registers of the tbl range of R42. -/
def tblRows : List RegDesc := tblRows0

/-- The table of the block whose range of R42 holds a BAR0 offset. -/
def rowsOf (off : Nat) : List RegDesc :=
  if off < 0x1000 then sysRows else
  if off < 0x2000 then pwrRows else
  if off < 0x4000 then cfgRows else
  if off < 0x8000 then hifRows else
  if off < 0xA000 then tbRows else
  if off < 0xC000 then netRows else
  if off < 0x10000 then canRows else
  if off < 0x18000 then wpuRows else
  if off < 0x1C000 then fbkRows else
  if off < 0x20000 then mpgRows else
  if off < 0x24000 then stpRows else
  if off < 0x28000 then pwmRows else
  if off < 0x2C000 then lpeRows else
  if off < 0x2E000 then adcRows else
  if off < 0x30000 then acqRows else
  if off < 0x34000 then schRows else
  if off < 0x36000 then scnRows else
  if off < 0x38000 then flkRows else
  if off < 0x3A000 then safRows else
  if off < 0x3C000 then twnRows else
  if off < 0x3E000 then evrRows else
  if off < 0x40000 then mfpRows else
  if off < 0x60000 then slotRows else
  if off < 0x80000 then tblRows else
  []

end Sys2Proof.Reg
end

