-- ==== Sys2Proof/Machine/Units.lean ====
section
/-! DEFINITION. What the units hold beside the registers of the register map: the state of the functions (R97), of the
commands in progress, of queues and engines. A unit's numbers of the spec are plain numbers; each field cites its rule. -/
namespace Sys2Proof.Machine
open Sys2Proof

/-! ### Function states (R97, R98) -/

/-- A command written to CFG_FSTATE_x. -/
inductive FnCmd
  | enable | disable | clearFault
  deriving DecidableEq, Repr, Inhabited

/-! ### Time and ticks (R26, R28, R544) -/

/-- Where the present tick stands: TB has not started (R58), the tick is not started because of a time step (R544), or its
last phase boundary was the tick start, the COMPUTE start or the COMMIT instant (R28). -/
inductive Phase
  | none | skipped | sample | compute | commit
  deriving DecidableEq, Repr, Inhabited

/-! ### System registers and reset (R88..R96) -/

/-- A software reset that was requested and not yet started (R93). -/
inductive SoftReset
  | cold | warm
  deriving DecidableEq, Repr, Inhabited

structure SysState where
  /-- the value sampled under R63, kept in the always-on domain (R510) -/
  bootsel : Nat := 0
  /-- a valid write to SYS_RST_CTRL whose reset has not started, and TB time of its acceptance (R93) -/
  rstReq : Option SoftReset := none
  rstAt : Nat := 0
  /-- the level of RSTOUT_N (R91) -/
  rstoutHigh : Bool := false
  /-- PERST_N is low and holds the endpoint in reset (R65) -/
  perstLow : Bool := false
  /-- single-bit ECC errors corrected and counted (R48) -/
  eccCount : Nat := 0
  /-- units that reported ready and whose functions still wait for a COMMIT instant (R98) -/
  newReady : List Nat := []
  /-- the last tick in which SYS_TICK_LATE counted (a tick counts once) -/
  lateTick : Option Nat := none
  deriving DecidableEq, Repr, Inhabited

/-! ### Configuration, arming, swap (R102..R123) -/

/-- CFG_STAT.STATE. -/
inductive CfgState
  | empty | loading | loaded | incomplete | arming | armed | disarming
  deriving DecidableEq, Repr, Inhabited

/-- What stage one of a load found (R107, R112), and the image it read, which stage two applies. -/
structure LoadResult where
  /-- the code of stage one, 0 for a pass, and the index of the failing section -/
  code : Nat := 0
  section_ : Nat := 0xFFFF
  /-- the bytes of the image -/
  image : List Byte := []
  /-- 1 MRAM image, 2 QSPI primary, 3 QSPI secondary, 0 none (CFG_STAT.BOOT_RESULT) -/
  source : Nat := 0
  deriving DecidableEq, Repr, Inhabited

/-- The CFG_CTRL command that runs while CFG_STAT.BUSY is 1 (R111). -/
inductive Job
  /-- a load: the state at acceptance; is it a boot action; what stage one found -/
  | load (prior : CfgState) (boot : Bool) (r : LoadResult)
  | armChecks
  /-- the arming swap comes at the COMMIT instant of the tick after this one, in which the checks ended -/
  | armSwap (tick : Nat)
  /-- a controlled disarm; has it acted at a COMMIT instant? -/
  | disarm (acted : Bool)
  | disarmNow
  | store (image : List Byte)
  | eraseStore
  | draftSync (classes : List Nat)
  deriving DecidableEq, Repr, Inhabited

/-- A PENDING swap: the values captured at REQUEST (R117) and the outcome of its checks. -/
structure SwapReq where
  web : Bool
  mask : Nat
  master : Nat
  timeout : Nat
  pt : Int
  tickA : Nat
  checked : Bool := false
  code : Nat := 0
  info : Nat := 0
  deriving DecidableEq, Repr, Inhabited

structure CfgUnit where
  state : CfgState := .empty
  /-- the payload of the SAFETY section of the loaded image (R477) -/
  safety : Option (List Byte) := none
  /-- the command, load or verification in progress (R111), and the swap that is PENDING (R117) -/
  job : Option Job := none
  swap : Option SwapReq := none
  /-- the boot action of this cold reset is still to come (R108) -/
  bootPending : Bool := true
  deriving DecidableEq, Repr, Inhabited

/-! ### Power states (R506..R517) -/

inductive PwrState
  | gale | breeze | lull | calm
  /-- held in reset after a thermal shutdown (R517) -/
  | shutdown
  /-- held in reset while PORST_N is low or a rail that GALE needs is out of tolerance (R70) -/
  | held
  deriving DecidableEq, Repr, Inhabited

structure PwrUnit where
  state : PwrState := .gale
  /-- an entry in progress and its target (R510) -/
  entry : Option PwrState := none
  /-- operating time in TB time units, and the whole seconds stored in MRAM (R515) -/
  opTime : Nat := 0
  opSecStored : Nat := 0
  pcyc : Nat := 0
  /-- the coarse time keeper in TB time units, and does TB time start from it at the next start (R513, R514) -/
  keeper : Nat := 0
  keeperOn : Bool := false
  /-- WAKE_N is driven low (R513) -/
  wakeNLow : Bool := false
  /-- a wake event held while a GALE rail is out of tolerance: its cause (R512) -/
  heldWake : Option Nat := none
  /-- the reset was held for a rail, not for PORST_N alone (R71) -/
  railLow : Bool := false
  /-- consecutive readings at or above 150 °C, by sensor (R517) -/
  hotRuns : List Nat := [0, 0, 0, 0, 0, 0, 0, 0]
  /-- doorbells stored in BREEZE and acted on after the exit: ring, is it CQ_HEAD, value (R511) -/
  storedBells : List (Nat × Bool × Word) := []
  deriving DecidableEq, Repr, Inhabited

/-! ### Event recorder (R518..R523) -/

/-- A trigger that waits for the copies of its tick (R519). -/
structure Trig where
  code : Nat
  src : Nat
  detail : List Word
  /-- TB ns of the trigger -/
  ns : Nat
  deriving DecidableEq, Repr, Inhabited

structure EvrUnit where
  wait : List Trig := []
  /-- captured records without SEQ and CRC: words 1..30 of R521 -/
  queue : List (List Word) := []
  lost : Nat := 0
  lostFirst : Nat := 0
  lostLast : Nat := 0
  /-- the copies made at the last COMMIT instant: the four FIXED words and SEL0..SEL13, and their tick (R519) -/
  copies : List Word := []
  copyTick : Nat := 0
  /-- SEQ of the next record written -/
  nextSeq : Nat := 0
  /-- the store, oldest record first: words 0..31 of each (R521, R522) -/
  store : List (List Word) := []
  auth : Option Word := none
  clears : Nat := 0
  /-- TB ns of the last failed CLEAR -/
  lastFail : Option Nat := none
  erasing : Bool := false
  arg : Word := 0
  /-- an accepted CLEAR: its record before and after the copies of its tick, not yet written -/
  clr : Option Trig := none
  clrRec : Option (List Word) := none
  deriving DecidableEq, Repr, Inhabited

/-! ### Host rings (R132..R166) -/

/-- How a descriptor completed: STATUS, RESULT and INFO of its completion entry, TB ns of the completion, and its place in
completion order (R147, R151). -/
structure DescDone where
  status : Nat
  result : Word
  info : Nat
  ns : Nat
  seq : Nat
  deriving DecidableEq, Repr, Inhabited

/-- What a started descriptor waits for. -/
inductive DescWait
  | nothing
  /-- a FENCE: the descriptors of its scope (R153) -/
  | scope
  /-- a LIVE FENCE whose scope has been satisfied since this TB time: the first COMMIT instant after it (R154) -/
  | commit (since : Nat)
  /-- a CFG_CMD: the end of its command (R145) -/
  | cfg
  deriving DecidableEq, Repr, Inhabited

/-- A fetched descriptor that has not completed, or has completed and waits for its CQ entry. -/
structure FDesc where
  /-- its SQ index -/
  idx : Nat
  desc : Desc
  /-- its place in the fetch order over all rings (R153) -/
  stamp : Nat
  started : Bool := false
  wait : DescWait := .nothing
  done : Option DescDone := none
  /-- RX_BUFFER: posted for the producer; bytes filled; a loss before its first record; TB ns of the last record (R156, R157) -/
  posted : Bool := false
  fill : Nat := 0
  gap : Bool := false
  lastNs : Nat := 0
  deriving DecidableEq, Repr, Inhabited

structure Ring where
  q : List FDesc := []
  /-- entries written since the last signal, TB ns of the oldest of them, and when its age makes the ring signal, by the COAL in force
  for the last entry (R159, R166) -/
  unsig : Nat := 0
  oldest : Nat := 0
  due : Nat := 0
  /-- records lost since the last buffer (R157) -/
  gap : Bool := false
  deriving DecidableEq, Repr, Inhabited

/-- What the configuration space holds beside the Bus Master Enable that HIF_LINK shows and the MSI-X enables (R124..R126): Memory Space
Enable, the bases of BAR0 and BAR2, D3hot, the codes of Max Payload Size and Max Read Request Size, the AER status of uncorrectable
errors (PRESUMED from the PCI Express Base Specification: log entry 235). -/
structure CfgSpace where
  mse : Bool := false
  bar0 : Nat := 0
  bar2 : Nat := 0
  d3hot : Bool := false
  mps : Nat := 0
  mrrs : Nat := 2
  aer : Nat := 0
  deriving DecidableEq, Repr, Inhabited

structure HifUnit where
  rings : SMap Ring := []
  /-- descriptors fetched (R153) and completed (R151) so far -/
  fetches : Nat := 0
  dones : Nat := 0
  /-- within one step: the host refuses the endpoint's writes (HOST_WR_ERR, CQ_WRITE_ERR) -/
  wrRefused : Bool := false
  /-- configuration-space enables of MSI-X and the endpoint state -/
  msixEnable : Bool := false
  msixFnMask : Bool := false
  space : CfgSpace := {}
  deriving DecidableEq, Repr, Inhabited

/-! ### Timebase (R167..R179) -/

/-- A pulse schedule in force (R176). -/
structure PulseSched where
  periodic : Bool
  web : Bool
  master : Nat
  start : Int
  period : Nat
  width : Nat
  /-- number j of the next edge, none when the schedule is over -/
  next : Option Nat
  deriving DecidableEq, Repr, Inhabited

structure Pulse where
  sched : Option PulseSched := none
  high : Bool := false
  /-- TB time at which the pulse in progress ends -/
  fallAt : Nat := 0
  deriving DecidableEq, Repr, Inhabited

/-- A capture entry: TB ns and edge direction (R179). -/
structure CapEntry where
  ns : Nat
  rise : Bool
  deriving DecidableEq, Repr, Inhabited

structure TbUnit where
  pulses : SMap Pulse := []
  caps : SMap (List CapEntry) := []
  /-- servo state I and C of R171, and consecutive measurements within LOCK_NS (R173) -/
  servoI : Int := 0
  servoC : Int := 0
  good : Nat := 0
  /-- an accepted STEP and an accepted change of period that act at the next TBCLK edge: the TB time to load (2^-32 ns), the
  PERIOD still in force (R170, R175) -/
  stepTo : Option Nat := none
  oldPeriod : Option Nat := none
  deriving DecidableEq, Repr, Inhabited


/-! ### Scheduler and cores (R388..R416) -/

/-- Where a work item stands. -/
inductive ItemSt
  /-- a standing item -/
  | standing
  /-- a one-shot item that lacks an operand or its release point -/
  | waiting
  /-- ready, not dispatched -/
  | ready
  /-- on a core's stack -/
  | running (core : Nat)
  /-- DONE written, held for its flow's order -/
  | held
  deriving DecidableEq, Repr, Inhabited

/-- An operand copy held for an item: index of its key, VALUE, tick of the post, whether it takes a reserved entry. -/
structure OpCopy where
  key : Nat
  value : Word
  tick : Nat
  reserved : Bool
  deriving DecidableEq, Repr, Inhabited

/-- A work item in its slot (R393). -/
structure Item where
  cls : Nat
  maxInst : Nat
  flow : Nat
  prio : Nat
  plane : Nat
  commit : Bool
  latest : Bool
  relMode : Nat
  master : Nat
  entry : Word
  arg : Word
  coreMask : Nat
  outKey : Nat
  keys : List Nat
  release : Nat
  st : ItemSt
  /-- its slot is one of the CTRL_SLOTS reserve (R395) -/
  reserved : Bool := false
  copies : List OpCopy := []
  relReached : Bool := false
  /-- TB time of readiness, and the deadline of a COMMIT-bound item (R408) -/
  readyAt : Nat := 0
  deadline : Option Nat := none
  late : Bool := false
  seq : Option Nat := none
  /-- the standing item it was spawned from -/
  parent : Option Nat := none
  ops : List Word := []
  delayed : Bool := false
  spawnWait : Bool := false
  relq : List (Nat × Word) := []
  relErr : Bool := false
  doneVal : Word := 0
  level : Nat := 0
  /-- the core that it was dispatched to last -/
  core : Nat := 0
  preempted : Bool := false
  resumed : Bool := false
  /-- core cycles used, in units of 2^-34 cycle -/
  qcycles : Nat := 0
  deriving DecidableEq, Repr, Inhabited

structure Core where
  /-- slots held, the top item first -/
  stack : List Nat := []
  /-- the dispatch interrupt (machine external interrupt) is asserted -/
  irq : Bool := false
  /-- the core runs machine-mode code from the address it was released at -/
  pc : Word := 0
  machineMode : Bool := true
  /-- TB time up to which the cycles of its top item are counted -/
  since : Nat := 0
  deriving DecidableEq, Repr, Inhabited

/-- What a flow holds beside its register: the next number to give, the aborted positions not yet passed (R405, R407). -/
structure Flow where
  nextSeq : Nat := 0
  gone : List Nat := []
  /-- the position whose abort halted the flow (R407) -/
  haltAt : Nat := 0
  deriving DecidableEq, Repr, Inhabited

structure SchUnit where
  items : SMap Item := []
  cores : SMap Core := []
  flows : SMap Flow := []
  /-- release pairs of items that were released and are still to be issued, in order (R404) -/
  relOut : List (Nat × Word) := []
  /-- the power window in progress: counts of R409 and the TB time since which it lasts -/
  winStart : Nat := 0
  loopSteps : Nat := 0
  fires : Nat := 0
  scanInstr : Nat := 0
  dispatches : Nat := 0
  ctrlDispatches : Nat := 0
  /-- core cycles of this window by level F0..F3, in units of 2^-34 cycle: all items, and control-plane items -/
  cyc : List Nat := [0, 0, 0, 0]
  ctrlCyc : List Nat := [0, 0, 0, 0]
  /-- the control-plane part of the last window's measured power, mW (R411) -/
  ctrlMw : Nat := 0
  /-- eddy records not yet written, and records lost since the last GAP record (R415) -/
  eddy : List (List Byte) := []
  eddyLost : Nat := 0
  deriving DecidableEq, Repr, Inhabited


/-! ### Celivo: streams, stop requests, joining (R189..R207) -/

/-- The last accepted MASTER_POS frame of a stream (R192..R194); position, velocity and acceleration as the frame's numbers. -/
structure MpStream where
  src : Nat
  epoch : Nat
  seq : Nat
  validAt : Nat
  pos : Int
  vel : Int
  acc : Int
  still : Bool
  rev : Bool
  deriving DecidableEq, Repr, Inhabited

/-- The last accepted frame of a SETPOINT or DRIVE_STATUS stream (R194, R201). -/
structure DrvStream where
  epoch : Nat
  seq : Nat
  validAt : Nat
  state : Nat := 0
  echo : Nat := 0
  pos : Int := 0
  vel : Word := 0
  trq : Word := 0
  deriving DecidableEq, Repr, Inhabited

/-- A stop request (R197); `safe` is its safety data (R490). -/
structure StopReq where
  src : Nat
  epoch : Nat
  req : Nat
  kind : Nat
  scope : Nat
  target : Nat
  origin : Nat
  reason : Nat := 0
  issuedAt : Nat := 0
  decel : Nat := 0
  safe : List Byte := []
  deriving DecidableEq, Repr, Inhabited

/-- What was accepted and acts at the first COMMIT instant at least 500 ns later (R198, R200). -/
inductive StopEvt
  | put (r : StopReq)
  | lift (src epoch req origin : Nat)
  | forceAll
  deriving DecidableEq, Repr, Inhabited

/-- A stop request issued here: how often it was sent, is it a RELEASE, the tick of its last frame (R199, R200). -/
structure Issued where
  r : StopReq
  release : Bool := false
  sends : Nat := 0
  last : Nat := 0
  stands : Bool := true
  deriving DecidableEq, Repr, Inhabited

/-- An offer in force at this receiver (R193 step 4, R207). -/
structure Offer where
  sponsor : Nat
  joiner : Nat
  newEpoch : Nat
  joinAt : Nat
  /-- the MAC address of its sender, to which JOIN_ACK goes -/
  mac : Nat := 0
  deriving DecidableEq, Repr, Inhabited

/-- What is known of a watched station: the tick of its last LINE_STATE, the keys of its LIST, its STOP_OVF (R199, R204). -/
structure WatchSt where
  lastTick : Nat := 0
  heard : Bool := false
  list : List (Nat × Nat × Nat) := []
  ovf : Bool := false
  deriving DecidableEq, Repr, Inhabited

/-- An offer made by this device as sponsor (R206 steps 2, 3). -/
structure Made where
  joiner : Nat
  newEpoch : Nat
  joinAt : Nat
  acked : Bool := false
  deriving DecidableEq, Repr, Inhabited

/-- The set-point stream to an external drive (R201, R203). -/
structure SptSt where
  seq : Nat := 0
  lastEcho : Option Nat := none
  lag : Nat := 0
  /-- ticks for which the status stream has been STALE -/
  staleTicks : Nat := 0
  deriving DecidableEq, Repr, Inhabited

/-- A Celivo frame that was formed: CLASS, destination (none: the group address), payload (R189, R191). -/
structure CelTx where
  cls : Nat
  dst : Option Nat := none
  payload : List Byte
  deriving DecidableEq, Repr, Inhabited

/-- A frame of the join to form in the coming COMMIT phase (R191, R206, R207). -/
inductive CelTodo
  /-- JOIN_OFFER to a joiner with its NEW_EPOCH and a RESULT of 0 or 1 -/
  | answer (joiner newEpoch result : Nat)
  /-- JOIN_ACK to the sponsor of the offer taken -/
  | ack
  /-- JOIN_OFFER with RESULT 3 -/
  | withdraw (joiner newEpoch joinAt : Nat)
  deriving DecidableEq, Repr, Inhabited

structure CelUnit where
  streams : SMap MpStream := []
  /-- key: (class × 4096 + SRC_ID) × 64 + DRIVE -/
  drives : SMap DrvStream := []
  epochs : SMap Nat := []
  offers : List Offer := []
  stops : List StopReq := []
  /-- the overflow stop: its KIND, and does it include ORIGIN = 1 (R200) -/
  ovf : Option (Nat × Bool) := none
  /-- accepted and not yet acted, with TB time of acceptance, oldest first -/
  pend : List (StopEvt × Nat) := []
  /-- keys that have acted (R198) -/
  seen : List (Nat × Nat × Nat) := []
  ackSrc : Nat := 0
  ackReq : Nat := 0
  issued : List Issued := []
  nextReq : Nat := 1
  watch : SMap WatchSt := []
  seqs : SMap Nat := []
  /-- joins since the last cold reset (R205) -/
  joins : Nat := 0
  attempt : Nat := 0
  /-- tick of the last JOIN_REQ -/
  reqTick : Nat := 0
  taken : Option Offer := none
  forceJoin : Bool := false
  leaving : Bool := false
  joinedNow : Bool := false
  made : List Made := []
  spt : SMap SptSt := []
  todo : List CelTodo := []
  /-- frames formed in this tick and queued at the start of the next (R191) -/
  formed : List CelTx := []
  /-- STREAM_SEQ of the last frame of the published masters -/
  mpSeq : SMap Nat := []
  deriving DecidableEq, Repr, Inhabited

/-! ### Web phase unit (R208..R244); lengths in units of 2^-32 nm -/

/-- The state of an encoder source (R212..R216). -/
structure EncTrk where
  /-- the count at the last event used, before INVERT -/
  cnt : Int := 0
  /-- timestamps (ns) and counts of the events in the present direction, newest first -/
  evs : List (Nat × Int) := []
  te : Nat := 0
  rev : Bool := false
  v : Int := 0
  still : Bool := true
  /-- no edge has been counted since the channel tracks the source -/
  fresh : Bool := true
  acc : Int := 0
  vPrev : Int := 0
  wasStill : Bool := true
  /-- counted edges on their way: (TB ns timestamp, count change), used 24 ns after the timestamp -/
  inbox : List (Nat × Int) := []
  deriving DecidableEq, Repr, Inhabited

/-- The state of a Celivo source (R217, R218). -/
structure CelTrk where
  some_ : Bool := false
  pos : Int := 0
  vel : Int := 0
  acc : Int := 0
  t0 : Nat := 0
  still : Bool := false
  rev : Bool := false
  /-- the blend in progress: e and t_a (TB time) -/
  blend : Option (Int × Nat) := none
  deriving DecidableEq, Repr, Inhabited

/-- The synthetic generator of a channel (R219): position and velocity from TB time `since` on. -/
structure Gen where
  pos : Int := 0
  vel : Int := 0
  acc : Int := 0
  since : Nat := 0
  deriving DecidableEq, Repr, Inhabited

structure Chan where
  encA : EncTrk := {}
  encB : EncTrk := {}
  celA : CelTrk := {}
  celB : CelTrk := {}
  gen : Gen := {}
  /-- the constant of R221 -/
  konst : Int := 0
  /-- USE_A (false) or USE_B written, and transferred at a COMMIT instant (R220) -/
  use : Option Bool := none
  judge : Option Bool := none
  /-- the deceleration of R222 -/
  lost : Bool := false
  /-- the generator carries the output (a deceleration, or FAULTED) -/
  carried : Bool := false
  /-- the target stays 0 until SYN_VEL is written (R224) -/
  stopHold : Bool := false
  /-- the values latched at the last SAMPLE instant -/
  pos : Int := 0
  vel : Int := 0
  acc : Int := 0
  /-- jumps since the last SAMPLE instant, and the change of the latched POS by those that entered its latch (R282) -/
  jump : Int := 0
  jumpIn : Int := 0
  deriving DecidableEq, Repr, Inhabited

structure Bar where
  x : Int := 0
  k : Nat := 0
  ep : Nat := 0
  offset : Int := 0
  stretch : Int := 0
  upd : Option BarUpd := none
  /-- the stretch that a loop slot has delivered last, ppb (R332) -/
  held : Option Int := none
  /-- the RWD values that govern fire k (R238) -/
  width : Nat := 100
  skew : Int := 0
  late : Bool := false
  stopFire : Bool := false
  /-- leading edge of the last committed fire, ps of TB time -/
  lead : Option Nat := none
  /-- committed pulses that have not ended: leading and trailing edge, ps of TB time, oldest first -/
  pulses : List (Nat × Nat) := []
  /-- the last committed fire was a late one -/
  lastLate : Bool := false
  deriving DecidableEq, Repr, Inhabited

/-- A record of a bar for an acquisition unit (R242). -/
structure BarRec where
  acq : Nat
  kind : Nat
  bar : Nat
  k : Nat
  ps : Nat
  x : Int
  deriving DecidableEq, Repr, Inhabited

structure WpuUnit where
  chans : SMap Chan := []
  /-- states of a channel that were in force until a TB time, newest first, with its active source and without the lists of
  events: for positions at instants that have passed (R373) -/
  hist : SMap (List (Nat × Bool × Chan)) := []
  bars : SMap Bar := []
  recs : List BarRec := []
  /-- channels whose position jumped or that became RUNNING: their users look for events behind (R225) -/
  look : List Nat := []
  /-- a stop request was in force at the last COMMIT instant (R224) -/
  stopWas : Bool := false
  deriving DecidableEq, Repr, Inhabited

/-! ### Feedback interfaces and encoder emulation (R245..R270) -/

structure Fbk where
  /-- decoder state (A, B) or the Hall code, and the counted state of R253 -/
  lines : Nat := 0
  counted : Nat := 0
  z : Bool := false
  qual : Bool := false
  cnt : Int := 0
  rev : Bool := false
  /-- a held edge: timestamp, its count change, the state before it (R250) -/
  held : Option (Nat × Int × Nat) := none
  /-- events for the speed after the last reversal: (TB ns, count without loads), newest first (R263) -/
  evs : List (Nat × Int) := []
  travel : Int := 0
  tLast : Option Nat := none
  edgeSeen : Bool := false
  /-- the speed of the previous latch, a quotient -/
  vNum : Int := 0
  vDen : Nat := 1
  /-- errors in the present window of 16 ticks, and the window (R251) -/
  errWin : Nat := 0
  errs : Nat := 0
  /-- TB time of the edge of the last SET_COUNT, and the count before it (R255, R257) -/
  absorb : Option (Nat × Int) := none
  /-- SSI: a frame in progress with START failed; frames since ENABLE; consecutive failures -/
  busy : Bool := false
  /-- TB time of the start of the frame in progress or last started -/
  t0 : Nat := 0
  startFail : Bool := false
  first : Bool := true
  bLast : Nat := 0
  fails : Nat := 0
  lastOk : Bool := false
  /-- valid frames since ENABLE: (TB time of t0, sum of changes of the decoded value), newest first -/
  frames : List (Nat × Int) := []
  lastVal : Int := 0
  deriving DecidableEq, Repr, Inhabited

structure Emu where
  acc : Int := 0
  backlog : Int := 0
  out : Int := 0
  /-- the A/B state: its place in the sequence 00, 10, 11, 01 -/
  ab : Nat := 0
  last : Option Nat := none
  /-- Z of Z_MODE 1: an index waits for a step slot; TB ns until which Z is high -/
  zWait : Bool := false
  zUntil : Nat := 0
  deriving DecidableEq, Repr, Inhabited

structure FbkUnit where
  fb : SMap Fbk := []
  emu : SMap Emu := []
  deriving DecidableEq, Repr, Inhabited


/-! ### Motion profile generators (R271..R294): positions in 2^-32 count, velocities in 2^-40 count per tick -/

/-- A state computed in COMPUTE, with what its COMMIT instant shows. -/
structure MpgNext where
  p : Int
  v : Int
  phase : Nat := 0
  lag : Int := 0
  limited : Bool := false
  limTick : Bool := false
  reversed : Bool := false
  done : Bool := false
  decOvr : Bool := false
  rest : Bool := false
  /-- STANDSTILL clears at this COMMIT instant -/
  clearStill : Bool := false
  deriving DecidableEq, Repr, Inhabited

/-- The anchors of GEAR, and whether a tick since the engagement was locked (R282). -/
structure Anchor where
  m : Int
  a : Int
  locked : Bool
  deriving DecidableEq, Repr, Inhabited

structure Mpg where
  p : Int := 0
  v : Int := 0
  next : Option MpgNext := none
  latch : Bool := false
  overshoot : Bool := false
  newTarget : Bool := false
  held : Bool := false
  /-- HELD by HALT; a stop ramp of a stop request has started (R286, R287) -/
  halted : Bool := false
  byStop : Bool := false
  /-- the fault reaction in progress and its code (R289) -/
  fault : Option Nat := none
  anchor : Option Anchor := none
  /-- the mode of the last COMPUTE -/
  mode : Nat := 0
  /-- STREAM: a set-point has transferred; ticks since; ticks that count for STREAM_STALE; transferred since the fault -/
  sSeen : Bool := false
  sAge : Nat := 0
  sIdle : Nat := 0
  sSince : Bool := false
  rests : Nat := 0
  /-- a command written and not yet transferred (R286) -/
  cmd : Option Nat := none
  /-- the step output: states a and b of the present tick, floor(q) (R290) -/
  segA : Int := 0
  segB : Int := 0
  outPos : Int := 0
  /-- TB ns of the last step emitted (R291) -/
  stepNs : Nat := 0
  deriving DecidableEq, Repr, Inhabited

structure MpgUnit where
  gens : SMap Mpg := []
  deriving DecidableEq, Repr, Inhabited

/-! ### Stepper channels and PWM pairs (R295..R317) -/

/-- The phase of a coil's chopper: stopped, ON since TB time with the sign of its drive and the end if it is known, OFF since
TB time with the sign of the drive before it (R302, R303). -/
inductive CoilPhase
  | stopped
  | on (since : Nat) (pos : Bool) (stop : Option Nat)
  | off (since : Nat) (fast : Option Bool)
  deriving DecidableEq, Repr, Inhabited

structure Coil where
  tgt : Int := 0
  phase : CoilPhase := .stopped
  /-- previous sample of this ON phase: current toward the target, TB ns -/
  prev : Option (Int × Nat) := none
  last : Int := 0
  opens : Nat := 0
  deriving DecidableEq, Repr, Inhabited

structure Stp where
  a : Coil := {}
  b : Coil := {}
  /-- |steps emitted in this tick| and in the previous one (R299) -/
  steps : Nat := 0
  lastSteps : Nat := 0
  amp : Nat := 0
  /-- the loop fraction of R300 applied to the run amplitude -/
  frac : Option Word := none
  rest : Bool := true
  restK : Nat := 0
  restFrom : Nat := 0
  stopK : Nat := 0
  stopFrom : Nat := 0
  /-- the tick from whose start on AMP is 0 -/
  zeroFrom : Option Nat := none
  deriving DecidableEq, Repr, Inhabited

structure Pwm where
  /-- TB time at which the first period starts -/
  start : Option Nat := none
  run : Bool := false
  t0 : Nat := 0
  /-- the mode, the length (TBCLK periods) and the compare of the period in progress; the peak reload is still to come -/
  mode : Nat := 0
  len : Nat := 0
  cmp : Nat := 0
  peak : Bool := false
  /-- a closed set (PER, CMP) that waits for a reload instant after this TB time -/
  pend : Option (Nat × Nat × Nat) := none
  /-- a closed set that waits for its COMMIT instant (R310) -/
  shadow : Option (Nat × Nat) := none
  /-- REF, the TB time of its last change, and its edges to come in this period: TBCLK periods from its start, level, does a short pulse
  begin here (R312); a swallowed pulse leaves an edge that changes nothing -/
  ref : Bool := false
  refAt : Nat := 0
  edges : List (Nat × Bool × Bool) := []
  /-- REF keeps a level into the following period; the interval in progress was counted as short; the low interval in progress is swallowed
  (R312) -/
  carry : Option (Bool × Nat) := none
  judged : Bool := false
  gap : Bool := false
  /-- the duty fraction that the pair's loop slot delivered last (R308, R332) -/
  duty : Option Word := none
  /-- outputs: active or not; instants of rises that a dead time delays; TB time of the last falls (R311, R313) -/
  a : Bool := false
  b : Bool := false
  aRise : Option Nat := none
  bRise : Option Nat := none
  /-- the periods that have started, with their lengths (TB time), newest first: as far back as a TRG entry's DELAY reaches (R354) -/
  starts : List (Nat × Nat) := []
  aFell : Nat := 0
  bFell : Nat := 0
  /-- FLT_STATE is driven; held as FAULTED (R313) -/
  flt : Bool := false
  deriving DecidableEq, Repr, Inhabited

structure StpUnit where
  ch : SMap Stp := []
  pwm : SMap Pwm := []
  /-- fault inputs that were active when they were last looked at (R313) -/
  fltOn : List Nat := []
  deriving DecidableEq, Repr, Inhabited


/-! ### Loop engine (R318..R347); values are binary32 bits -/

/-- What a step leaves for its COMMIT instant. -/
structure SlotOut where
  u : Word
  i : Word := 0
  rlim : Word := 0
  y : Word := 0
  yhat : Word := 0
  e : Word := 0
  satHi : Bool := false
  satLo : Bool := false
  manual : Bool := false
  track : Bool := false
  handover : Bool := false
  stale : Bool := false
  iClamp : Bool := false
  trip : Bool := false
  cnt : Nat := 0
  /-- a law step (a step of a stop ramp has no status) -/
  law : Bool := true
  /-- nodes 0..13 of R344 -/
  nodes : List Word := []
  deriving DecidableEq, Repr, Inhabited

structure Slot where
  i : Word := 0
  dd : Word := 0
  rlim : Word := 0
  vlim : Word := 0
  yhat : Word := 0
  cnt : Nat := 0
  ePrev : Word := 0
  yPrev : Word := 0
  /-- the exact previous measurement of position kind (R324) -/
  yExact : Int := 0
  /-- the delivered value -/
  u : Word := 0
  first : Bool := true
  manual : Bool := false
  track : Bool := false
  lawChanged : Bool := false
  /-- the handover ramp: steps left, its length, its residual (R336) -/
  hcnt : Nat := 0
  hlen : Nat := 0
  delta : Word := 0
  /-- the stop ramp: its steps done and its start (R338) -/
  stopJ : Nat := 0
  stopU : Word := 0
  resetSup : Bool := false
  resetStaged : Bool := false
  /-- the tick at whose COMMIT instant the value of FLT_OUT was delivered (R341) -/
  fltTick : Option Nat := none
  out : Option SlotOut := none
  deriving DecidableEq, Repr, Inhabited

structure Trc where
  /-- what is in force: CFG, BASE, SIZE_LOG2 and POST -/
  cfg : Word := 0
  base : Nat := 0x30000000
  size : Nat := 10
  post : Nat := 0
  dirty : Bool := false
  trigger : Bool := false
  rearm : Bool := false
  /-- records still to come after the trigger -/
  left : Nat := 0
  deriving DecidableEq, Repr, Inhabited

/-- The values of a drive latched at offset 0: ACT_POS, ACT_VEL, ACT_TRQ, stale (R322). -/
structure DrvIn where
  pos : Int
  vel : Word
  trq : Word
  stale : Bool
  deriving DecidableEq, Repr, Inhabited

structure LpeUnit where
  slots : SMap Slot := []
  trc : SMap Trc := []
  /-- inputs latched in SAMPLE: value and staleness (R28, R322) -/
  sarIn : SMap (Int × Bool) := []
  sdIn : SMap (Int × Bool) := []
  flkIn : SMap (Int × Bool) := []
  drvIn : SMap DrvIn := []
  mboxIn : SMap Word := []
  /-- the trace units whose records of this tick the data plane does not write before the next COMMIT instant (R344) -/
  late : List Nat := []
  deriving DecidableEq, Repr, Inhabited


/-! ### Switch and PTP engine (R180..R188) -/

/-- A gate list in force: enabled, the cycle exponent, the entries up to LAST (R183). -/
structure GateList where
  en : Bool := false
  cyc : Nat := 0
  entries : List Word := [0x000001FF#32]
  deriving DecidableEq, Repr, Inhabited

/-- What waits at an egress port. -/
inductive NetItem
  /-- a frame; does it cut through; the port at which a transparent clock took its ingress time -/
  | frame (f : EthFrame) (cut : Bool) (ing : Option Nat)
  /-- a message of the PTP engine: its messageType, and the correction to which what is measured as it leaves is added (2^-16 ns) -/
  | ptp (type : Nat) (m : PtpMsg) (base : Int)
  deriving DecidableEq, Repr, Inhabited

structure NetPort where
  /-- what waits for its gate: class, item -/
  queue : List (Nat × NetItem) := []
  /-- the list of before the last swap and the TB time until which it is in force -/
  old : Option (GateList × Nat) := none
  /-- PTP: sequence numbers of Sync, Delay_Req and Pdelay_Req -/
  syncSeq : Nat := 0
  reqSeq : Nat := 0
  pSeq : Nat := 0
  /-- a two-step Sync that waits for its Follow_Up: the message, its receive time (2^-16 ns) -/
  wait : Option (PtpMsg × Int) := none
  /-- t2 − t1 of the last measurement without its correction, and t3 of the Delay_Req in progress -/
  diff : Int := 0
  t3 : Option Int := none
  meanPath : Int := 0
  /-- t1 of the Pdelay_Req in progress, by its transport (UDP?); the two-step Pdelay_Resp received, its t4 -/
  pT1 : List (Bool × Int) := []
  pWait : Option (PtpMsg × Int) := none
  deriving DecidableEq, Repr, Inhabited

structure NetUnit where
  ports : SMap NetPort := []
  /-- learnt addresses: address, port, TB ns of the last frame -/
  fdb : List (Nat × Nat × Nat) := []
  /-- TB ns of the last offset measurement (R173) -/
  lastMeas : Int := 0
  deriving DecidableEq, Repr, Inhabited


/-! ### Acquisition units (R370..R387) -/

structure AcqCh where
  /-- results since the run started (R371) -/
  count : Nat := 0
  /-- MARK: level state; the previous code of the input and its effective instant (R373) -/
  high : Bool := false
  prev : Option (Int × Nat) := none
  deriving DecidableEq, Repr, Inhabited

/-- An event of a unit's sequencer (R377), or the record of a print bar, which is none. -/
inductive SeqEvent
  | bound
  | timer (w : Nat)
  | sample (c : Nat) (value : Int)
  | mark (c : Nat) (rise : Bool)
  | force
  | fire
  deriving DecidableEq, Repr, Inhabited

/-- An event that has arrived: its instant in 1/256 ns, does the instant lie inside W0 and W1, its record with the SRC of its header, the
operand of a MARK edge (key and value), does its record come while 64 are in flight (R377, R380..R382). -/
structure AcqEv where
  t256 : Nat
  ev : SeqEvent
  win0 : Bool := false
  win1 : Bool := false
  src : Nat := 0
  bytes : Option (List Byte) := none
  post : Option (Nat × Word) := none
  tooMany : Bool := false
  deriving DecidableEq, Repr, Inhabited

/-- A record of one instant (1/256 ns) that is formed; FIRE records, then ascending SRC, is the order of `place` (R381). -/
structure AcqRec where
  place : Nat
  t256 : Nat
  bytes : List Byte
  deriving DecidableEq, Repr, Inhabited

structure Acq where
  chans : SMap AcqCh := []
  /-- events that have arrived and wait for those of an earlier instant, in the order of R377: key and event -/
  wait : List (Nat × AcqEv) := []
  /-- the records of the instant in progress -/
  made : List (Nat × AcqRec) := []
  /-- expiry of the timers, TB ns (R379) -/
  tmr0 : Option Nat := none
  tmr1 : Option Nat := none
  /-- the next interval bound of each window: 2k starts interval k, 2k + 1 ends it; none before it is known (R375) -/
  bound0 : Option Nat := none
  bound1 : Option Nat := none
  /-- the gap in progress: records lost, instants of the first and the last one (R382) -/
  gap : Option (Nat × Nat × Nat) := none
  /-- SNAPSHOT: the trigger instant while its first record is still to come; records still to be written -/
  trigAt : Option Nat := none
  left : Nat := 0
  /-- STREAM: the records between RPTR and WPTR: offset, bytes, is it a GAP record -/
  fifo : List (Nat × List Byte × Bool) := []
  deriving DecidableEq, Repr, Inhabited

/-! ### Converters (R348..R366) -/

/-- What a SAR converter converts for (R351). -/
inductive SarReq
  | tick
  /-- the coil with number i on the converter (R352) -/
  | slot (i : Nat)
  | pwm (e : Nat)
  | req
  | bg (e : Nat)
  deriving DecidableEq, Repr, Inhabited

/-- A conversion in progress: its input, TB time of its start, is it injected, has its reference failed. -/
structure SarConv where
  kind : SarReq
  mux : Nat
  ts : Nat
  inj : Bool
  dead : Bool
  /-- its code is unsettled: within 5 µs after a write of the test DAC (R364) -/
  unsettled : Bool := false
  /-- the code that its test DAC gives it in internal mode, in place of the pin (R364) -/
  dac : Option Nat := none
  deriving DecidableEq, Repr, Inhabited

/-- An averaged result in progress (R356). -/
structure SarSum where
  n : Nat := 0
  sum : Nat := 0
  ts : Nat := 0
  inj : Bool := false
  deriving DecidableEq, Repr, Inhabited

structure Sar where
  conv : Option SarConv := none
  bg : SarSum := {}
  /-- the BG entry whose set is in progress or comes next -/
  bgEntry : Nat := 0
  req : SarSum := {}
  /-- AVG, SHIFT and MUX of the request in progress -/
  reqSet : Nat × Nat × Nat := (0, 0, 0)
  deferred : List Nat := []
  /-- TB time of the last instant taken of each TRG entry -/
  trgLast : SMap Nat := []
  deriving DecidableEq, Repr, Inhabited

/-- The newest result of an input or sigma-delta channel: completion (TB time), is it since arming, value, injected. -/
structure AdcRes where
  done : Nat := 0
  fresh : Bool := false
  value : Int := 0
  inj : Bool := false
  deriving DecidableEq, Repr, Inhabited

structure Sd where
  res : AdcRes := {}
  /-- boundaries since arming, and the last boundary (TB time) -/
  seen : Nat := 0
  last : Option Nat := none
  deriving DecidableEq, Repr, Inhabited

structure AdcUnit where
  sars : SMap Sar := []
  ains : SMap AdcRes := []
  sds : SMap Sd := []
  /-- TB time of the last write of each test DAC -/
  tdacAt : SMap Nat := []
  /-- the input (or sigma-delta channel) that each test DAC named before that write -/
  tdacWas : SMap Nat := []
  deriving DecidableEq, Repr, Inhabited


/-! ### Twin pairs (R493..R505) -/

/-- The STATE of a tick as it arrives: its chunk numbers, the number of its last chunk, its content. -/
structure TwnTick where
  got : List Nat := []
  last : Option Nat := none
  items : List TwnItem := []
  deriving DecidableEq, Repr

structure TwnUnit where
  peer : Option TwnHello := none
  /-- this device lost its ownership (R501) and has not paired since -/
  demoted : Bool := false
  txSeq : Nat := 0
  states : SMap TwnTick := []
  /-- the shadow's own committed state of the last ticks -/
  own : SMap (List TwnItem) := []
  /-- the tick of the last discrete mismatch -/
  lastBad : Option Nat := none
  /-- TB ns of receipt of a FAULT frame; TB ns of the loss of both lanes -/
  faultAt : Option Nat := none
  lanesAt : Option Nat := none
  /-- the handover in progress: AT, the new TOKEN, acknowledged -/
  ho : Option (Nat × Nat × Bool) := none
  /-- mirrored writes that wait for the owner's transfer tick -/
  writes : List (Nat × Word × Nat) := []
  /-- a SYNC was requested: the scan areas (false) or everything (true) -/
  sync : Option Bool := none
  /-- the bulk transfer has arrived -/
  synced : Bool := false
  /-- own SCAN_CRC values: cycle number and CRC, newest first -/
  crcs : List (Nat × Nat) := []
  /-- the owner's SCAN_CRC values whose cycle has not ended here yet -/
  theirs : List (Nat × Nat) := []
  ownPin : Bool := false
  deriving DecidableEq, Repr

/-! ### Field link (R441..R460) -/

/-- A parameter of an expander: channel none for the whole expander (PSEL ALL). -/
structure FlkParam where
  e : Nat
  c : Option Nat
  pid : Nat
  val : Nat
  deriving DecidableEq, Repr, Inhabited

/-- What a CNT point keeps beside its value: the last 12-bit counter, the count, and its count is set to 0 at the first valid
block (R449). -/
structure FlkCnt where
  prev : Option Nat := none
  count : Nat := 0
  zero : Bool := false
  deriving DecidableEq, Repr, Inhabited

structure FlkPort where
  /-- TB ns of the start of the frame that is open, and of the last frame; frames sent so far -/
  open_ : Option Nat := none
  last : Option Nat := none
  sent : Nat := 0
  seq : Nat := 0
  /-- the valid blocks of the open frame; missed blocks in succession, by expander -/
  blocks : SMap (List Byte) := []
  /-- frames in succession that carried OWNER = 1 (R501) -/
  owned : Nat := 0
  /-- expanders whose block of the open frame was discarded (R442) -/
  bad : List Nat := []
  missed : SMap Nat := []
  /-- frames in succession without a valid block from an included expander -/
  dead : Nat := 0
  /-- expanders that report UV -/
  uv : Nat := 0
  clr : Nat := 0
  /-- the parameters still to send, and those sent, with the number of the frame that carried them (R455) -/
  queue : List FlkParam := []
  flight : List (FlkParam × Nat) := []
  nak : Bool := false
  loaded : Bool := false
  /-- the port stops; TB ns of the start of the first frame with OUT_EN = 0 (R457) -/
  stopF : Option Nat := none
  deriving DecidableEq, Repr, Inhabited

structure FlkUnit where
  ports : SMap FlkPort := []
  cnts : SMap FlkCnt := []
  /-- the input image latched at SAMPLE, by point (R448) -/
  image : SMap Word := []
  deriving DecidableEq, Repr, Inhabited

/-! ### CAN FD controllers (R461..R467) -/

/-- A transmit buffer offered on the bus: its number, TB ns of its SOF, a CANCEL accepted since (R464). -/
structure CanTx where
  buf : Nat
  sof : Nat
  cancel : Bool := false
  deriving DecidableEq, Repr, Inhabited

structure CanUnit where
  cur : Option CanTx := none
  /-- pending buffers in the order of their REQ -/
  order : List Nat := []
  tec : Nat := 0
  rec_ : Nat := 0
  recovery : Bool := false
  /-- records not yet streamed (32 places), each with whether a loss precedes it, and records lost since the last one written (R466) -/
  fifo : List (List Byte × Bool) := []
  lost : Nat := 0
  deriving DecidableEq, Repr, Inhabited

/-! ### Scan engine (R419..R440) -/

/-- The bank that the engine runs (R437). -/
structure ScnBank where
  code : SMap Word := []
  len : Nat := 1
  tpre : SMap Word := []
  cpre : SMap Word := []
  retDM : Word := 0
  retTC : Word := 0
  deriving DecidableEq, Repr, Inhabited

/-- A cycle in progress: S_k and the start of its next instruction in TB time; the accumulators and the stack, top first. -/
structure ScnCycle where
  start : Nat
  t : Nat
  pc : Nat := 0
  acc : Bool := false
  wa : Int := 0
  stack : List (Bool × Nat) := []
  deriving DecidableEq, Repr, Inhabited

structure ScnUnit where
  /-- the RWD areas: draft and live (R440) -/
  prog : SMap Word := []
  ini : SMap Word := []
  tpre : SMap Word := []
  cpre : SMap Word := []
  progL : SMap Word := []
  iniL : SMap Word := []
  tpreL : SMap Word := []
  cpreL : SMap Word := []
  bank : ScnBank := {}
  swapped : Bool := false
  m : SMap Word := []
  dw : SMap Word := []
  i : SMap Word := []
  q : SMap Word := []
  iw : SMap Word := []
  qw : SMap Word := []
  /-- S0..S63 -/
  sys : Nat := 0
  tmrs : SMap ScnTmr := []
  ctrs : SMap ScnCtr := []
  edges : SMap Bool := []
  cycle : Option ScnCycle := none
  /-- the number k of the next nominal instant -/
  nextK : Option Nat := none
  first : Bool := false
  skipped : Bool := false
  /-- overrunning cycles in succession (R422) -/
  overs : Nat := 0
  retLost : Bool := false
  cycles : Nat := 0
  /-- Q and QW of an END that wait for a COMMIT instant strictly after it (TB time), and what the field link carries -/
  pend : Option (Nat × SMap Word × SMap Word) := none
  outQ : SMap Word := []
  outQW : SMap Word := []
  /-- a snapshot being written: RET_DM, RET_TC and the body (R434) -/
  snap : Option (Word × Word × List Byte) := none
  deriving DecidableEq, Repr

/-! ### Safety island (R468..R492) -/

/-- The filter of one contact: its filtered level, the cycles for which the raw level has differed. -/
structure SafFilt where
  lvl : Bool := true
  n : Nat := 0
  deriving DecidableEq, Repr, Inhabited

/-- A safety input in a channel: R480..R482. -/
structure SafIn where
  a : SafFilt := {}
  b : SafFilt := {}
  demand : Bool := false
  /-- cycles for which the contacts have disagreed; a discrepancy fault; it saw both contacts in demand since; a change of
  the pair is in progress within DISC_MS -/
  differ : Nat := 0
  disc : Bool := false
  discSeen : Bool := false
  /-- RESET: cycles since the press began, none outside a press; the press has reached both contacts -/
  press : Option Nat := none
  both : Bool := false
  bad : Bool := false
  /-- STILL: cycles of uninterrupted standstill -/
  still : Nat := 0
  deriving DecidableEq, Repr, Inhabited

/-- A channel of the island (R468, R469): its evaluations so far; since the partner's last one; of disagreement. -/
structure SafChan where
  n : Nat := 0
  miss : Nat := 0
  disagree : Nat := 0
  ins : SMap SafIn := []
  dead : Bool := false
  /-- cycles for which an acknowledgement seen by this channel still waits for the other one -/
  ack : Nat := 0
  /-- readback mismatch in succession, by output -/
  rbBad : SMap Nat := []
  deriving DecidableEq, Repr, Inhabited

/-- Where a safety output stands (R485). -/
inductive SafOutSt
  | off | on | squall
  deriving DecidableEq, Repr, Inhabited

structure SafOut where
  st : SafOutSt := .off
  /-- it goes to LOCKOUT at its cut -/
  lock : Bool := false
  fault : Bool := false
  /-- evaluations of channels A and B at t_d, and of channel A at the last test -/
  from_ : Nat × Nat := (0, 0)
  tested : Nat := 0
  deriving DecidableEq, Repr, Inhabited

/-- A stop request of the island that stands: its REQ_ID, the outputs of its demand (R489). -/
structure SafReq where
  epoch : Nat
  req : Nat
  outs : List Nat
  deriving DecidableEq, Repr, Inhabited

structure SafUnit where
  chA : SafChan := {}
  chB : SafChan := {}
  outs : SMap SafOut := []
  /-- the switches that channel A and channel B drive on, by output -/
  hs : Nat := 0
  ls : Nat := 0
  /-- the bytes of the configuration in force (R475, R477) -/
  cfg : Option (List Byte) := none
  init : Bool := true
  lockout : Nat := 0
  lockWhat : Nat := 0
  faults : Nat := 0
  intFault : Bool := false
  /-- the seal record (R478): SEALED, CRC_A and SEAL_PATTERN sealed, the counter -/
  sealed : Bool := false
  sealCrc : Nat := 0
  sealPat : Nat := 0
  sealCnt : Nat := 0
  sealLv : Nat := 0
  /-- cycles for which the seal inputs have differed from the sealed pattern, or matched the pattern in force -/
  sealOpen : Nat := 0
  sealMatch : Nat := 0
  tamper : Bool := false
  tamperN : Nat := 0
  tamperDemand : Bool := false
  /-- remote demands: SRC_ID, EPOCH and REQ_ID; SCNT accepted, by SRC_ID and EPOCH (R491) -/
  remote : List (Nat × Nat × Nat) := []
  scnts : SMap Nat := []
  scnt : Nat := 0
  reqs : List SafReq := []
  cause : Nat := 0
  demands : Nat := 0
  testFails : Nat := 0
  rb : Nat := 0
  /-- SAF_STATE as the mirror shows it -/
  shown : Nat := 0
  deriving DecidableEq, Repr, Inhabited

/-! ### Pins (R72..R87) -/

/-- A pad as it is driven from outside (R75, R81). -/
structure Pad where
  /-- the level at the pad, none where nothing outside drives it -/
  raw : Option Bool := none
  /-- TB time since which it has been so, and the filtered level before -/
  since : Nat := 0
  was : Bool := false
  /-- the last level driven from outside: what a bus keeper holds -/
  last : Bool := false
  deriving DecidableEq, Repr, Inhabited

structure MfpUnit where
  pads : SMap Pad := []
  /-- pads at high impedance after a change of FSEL, and the TB time at which they take the new signal (R80) -/
  hiz : SMap Nat := []
  /-- pins that hold the state of R71 since a loss of their bank supply (R86) -/
  held : List Nat := []
  deriving DecidableEq, Repr, Inhabited

end Sys2Proof.Machine
end

