-- ==== Sys2Proof/Machine/State.lean ====
section
/-! DEFINITION. The state of the machine as plain data: the queue of waiting commands, the device, its memory; the reasons a
step can stop; the state right after reset. -/
namespace Sys2Proof.Machine
open Sys2Proof

/-- What the device does to its byte memory in one step; the step applies the list in order (`State.run`). -/
inductive MemOp
  /-- bytes written from an address on -/
  | write (addr : Nat) (bytes : List Byte)
  /-- all SRAM set to zero by a cold reset (R89); MRAM keeps its contents -/
  | clearSram
  deriving DecidableEq, Repr

/-- What the device emits: the model's record of what leaves it, newest first. -/
inductive Out
  /-- a register read returns a value to a master -/
  | read (m : Master) (off : Nat) (v : Word)
  /-- a memory read returns bytes to a master -/
  | mem (m : Master) (addr : Nat) (bytes : List Byte)
  /-- a load access fault to a core, or to the host a completion with Completer Abort status (R48, R128) -/
  | accessFault (m : Master) (addr : Nat)
  /-- a read of BAR2 or of the configuration space returns bytes to the host (R125..R127) -/
  | window (w : HostWindow) (off : Nat) (bytes : List Byte)
  /-- a write of the endpoint to host memory (CQ entries, buffers, read lists), and its Relaxed Ordering attribute (R124, R149) -/
  | hostWrite (addr : Nat) (bytes : List Byte) (relaxed : Bool)
  /-- an MSI-X message (R159..R161) -/
  | msix (vec addr data : Nat)
  /-- a frame leaves an external switch port (R181) -/
  | ethFrame (port : Nat) (f : EthFrame)
  /-- a PTP message of the engine leaves a port (R185); its type by messageType: 0 Sync, 1 Delay_Req, 2 Pdelay_Req,
  3 Pdelay_Resp, 8 Follow_Up, 9 Delay_Resp, 10 Pdelay_Resp_Follow_Up -/
  | ptp (port type : Nat) (m : PtpMsg)
  /-- an interrupt becomes pending at a core: 3 software, 7 timer, 11 external (R390) -/
  | coreIrq (core code : Nat)
  /-- a downstream frame of field-link port p (R444) -/
  | flkFrame (port : Nat) (bytes : List Byte)
  /-- a CAN frame of controller k that completed: its ID register and its CTRL register (R463) -/
  | canFrame (k : Nat) (id ctrl : Word) (data : List Byte)
  /-- a frame of the twin link (R497): CLASS, SEQ, tick, payload -/
  | twnFrame (cls seq tick : Nat) (payload : List Byte)
  /-- a STATE or SYNC frame of the twin link, whose format is internal to the part -/
  | twnState (cls seq tick : Nat) (content : TwnBulk)
  deriving DecidableEq, Repr

/-- The device: every register and every unit. -/
structure Dev where
  /-- what software reads of the registers: the draft of an RWD field, the accepted value of a staged register; an
  offset that is not listed holds its reset value -/
  regs : SMap Word := []
  /-- the live bank of registers with RWD fields (R14, R15) and the value in force of staged registers (R32) -/
  live : SMap Word := []
  /-- staged registers written since the last COMMIT instant (R32..R34), by the offset that completes the quantity -/
  staged : List Nat := []
  /-- low words of two-register quantities written since their high word was last accepted (R34): what they read; `regs` holds the
  quantity that its high word completed -/
  half : SMap Word := []
  /-- the high words latched for a master by a low-word read (R35): key master * 2^20 + offset -/
  latch : SMap Word := []
  /-- the model's record for R16: the register bits that hardware set in the last command, by offset, with what the register held before;
  and those of it that fall on the clock of the access in progress (log entry 4) -/
  sets : SMap (Word × Word) := []
  clash : SMap (Word × Word) := []
  /-- the function states (R97, R98), commands waiting for COMMIT, faults detected, stops completed -/
  fns : SMap Fn := []
  fcmds : SMap FnCmd := []
  ffaults : SMap (Nat × Nat) := []
  fstops : List Nat := []
  /-- the QSPI flash outside the part from which the loader reads (R108, R538): its bytes by address, 0 where not listed; no
  command changes it (log entry 95) -/
  qspi : SMap Byte := []
  /-- TB time in units of 2^-32 ns (R167) -/
  tb : Nat := 0
  phase : Phase := .none
  /-- the number of the tick whose phases run (R26, R28) -/
  tick : Nat := 0
  /-- the model's own count of free values drawn (log entry 21) -/
  draws : Nat := 0
  memq : List MemOp := []
  out : List Out := []
  sys : SysState := {}
  cfg : CfgUnit := {}
  pwr : PwrUnit := {}
  evr : EvrUnit := {}
  hif : HifUnit := {}
  tbu : TbUnit := {}
  sch : SchUnit := {}
  net : NetUnit := {}
  cel : CelUnit := {}
  wpu : WpuUnit := {}
  fbk : FbkUnit := {}
  mpg : MpgUnit := {}
  stp : StpUnit := {}
  lpe : LpeUnit := {}
  acq : SMap Acq := []
  adc : AdcUnit := {}
  twn : TwnUnit := {}
  flk : FlkUnit := {}
  can : SMap CanUnit := []
  scn : ScnUnit := {}
  saf : SafUnit := {}
  mfp : MfpUnit := {}
  deriving DecidableEq, Repr

/-- The machine: commands waiting, first in first out; the device; its byte memory (R44, R49). -/
structure State where
  pending : List Instr
  dev : Dev
  mem : Memory
  deriving DecidableEq, Repr

/-- The machine right after a power-on reset (R88, R89): no command waits; every register reads its reset value, SYS_RST_CAUSE
reads POR (R92); every unit is at reset; the power-cycle count, kept in MRAM (R515), is 1; memory lists nothing (log entry 22). The
clocks have not locked, so no unit is ready and TB time does not run (R91, R94). BOOTSEL was sampled as 0 (log entry 96). -/
def State.reset : State :=
  { pending := [], dev := { regs := [(0x10, 1)], pwr := { pcyc := 1 } }, mem := [] }

/-- Why a step stops with a fault. -/
inductive Fault
  /-- raised by MEMORY_ACCESS for a core data address that R44 does not list; safe: the machine stops where the spec
  gives no memory at all -/
  | noSuchAddress
  deriving DecidableEq, Repr

/-- Why a step is refused. -/
inductive Refusal
  /-- raised by `exec` for a command whose meaning is not written; safe: nothing is claimed of it -/
  | notModelled (mnemonic : String)
  deriving DecidableEq, Repr

end Sys2Proof.Machine
end

