-- ==== Sys2Proof/Machine/Ops.lean ====
section
/-! DEFINITION. The named operations over the device that every unit uses: registers and their fields, the live bank,
TB time and the tick, function states, access errors, interrupts, free values, memory operations. -/
namespace Sys2Proof.Machine
open Sys2Proof Sys2Proof.Reg

/-! ### The register map -/

/-- Is the remainder an instance of the remaining indices of a header? -/
def dimsMatch : List (Nat × Nat) → Nat → Bool
  | [], r => r == 0
  | (n, s) :: t, r => decide (r / s < n) && dimsMatch t (r % s)

/-- Does a header of the map describe the register at this offset? -/
def RegDesc.has (r : RegDesc) (off : Nat) : Bool := decide (r.base ≤ off) && dimsMatch r.dims (off - r.base)

/-- The header of the register at a BAR0 offset, or none where no register lies (R13). -/
def findRow (off : Nat) : Option RegDesc := (rowsOf off).find? (fun r => RegDesc.has r off)

/-- The reset value of a sine table entry (R297). -/
def sineReset (off : Nat) : Word :=
  let i := off % 0x400 / 4
  BitVec.ofNat 32 (romCB i * 65536 + romCA i)

/-- The reset value of the register at an offset; 0 where no register lies (R13). -/
def resetVal (off : Nat) : Word :=
  if 0x7E000 ≤ off ∧ off < 0x80000 then sineReset off
  else if off = NET_PORT_DLY_RX 0 then Config.phyDlyRx 0
  else if off = NET_PORT_DLY_RX 1 then Config.phyDlyRx 1
  else if off = NET_PORT_DLY_TX 0 then Config.phyDlyTx 0
  else if off = NET_PORT_DLY_TX 1 then Config.phyDlyTx 1
  else match findRow off with
    | some r => r.reset
    | none => 0

/-! ### Registers -/

/-- What the map holds for the register at an offset (the draft of RWD fields, the accepted value of staged ones). -/
def rd (d : Dev) (off : Nat) : Word :=
  match smGet d.regs off with
  | some v => v
  | none => resetVal off

/-- The device with the register at an offset holding `v`. -/
def wr (off : Nat) (v : Word) (d : Dev) : Dev :=
  { d with regs := if v = resetVal off then smDel d.regs off else smPut d.regs off v }

/-- The number in a field of a register. -/
def rf (d : Dev) (off : Nat) (f : Fld) : Nat := fget (rd d off) f

/-- Is a one-bit field 1? -/
def rb (d : Dev) (off : Nat) (f : Fld) : Bool := rf d off f == 1

/-- A field of a register that hardware sets, noted for an access on the same clock (R16): what the register held before, the bits. -/
def noteSet (off : Nat) (f : Fld) (n : Nat) (d : Dev) : Dev :=
  if n = 0 then d
  else
    let (was, bits) := match smGet d.sets off with | some x => x | none => (rd d off, 0)
    { d with sets := smPut d.sets off (was, bits ||| fmask f.hi f.lo) }

/-- The device with a field of a register holding `n`. -/
def wf (off : Nat) (f : Fld) (n : Nat) (d : Dev) : Dev := wr off (fset (rd d off) f n) (noteSet off f n d)

/-- The device with a one-bit field set or cleared. -/
def wb (off : Nat) (f : Fld) (b : Bool) (d : Dev) : Dev := wf off f (b2n b) d

/-- A counter field incremented, saturating at its largest value (the RC counters of the chapters saturate). -/
def bump (off : Nat) (f : Fld) (d : Dev) : Dev := wf off f (satNat (2 ^ f.width - 1) (rf d off f + 1)) d

/-- A counter field incremented by `n`, saturating. -/
def bumpBy (off : Nat) (f : Fld) (n : Nat) (d : Dev) : Dev := wf off f (satNat (2 ^ f.width - 1) (rf d off f + n)) d

/-- The 64-bit number in a pair of registers, low word first (R9, R34). -/
def rd64 (d : Dev) (lo hi : Nat) : Nat := (rd d lo).toNat + (rd d hi).toNat * 4294967296

/-- The signed 64-bit number in a pair of registers (R9). -/
def rdI64 (d : Dev) (lo hi : Nat) : Int := sext 64 (rd64 d lo hi)

/-- The device with a 64-bit number in a pair of registers. -/
def wr64 (lo hi : Nat) (v : Nat) (d : Dev) : Dev :=
  wr hi (BitVec.ofNat 32 (v / 4294967296)) (wr lo (BitVec.ofNat 32 v) d)

/-- The device with a signed 64-bit number in a pair of registers. -/
def wrI64 (lo hi : Nat) (v : Int) (d : Dev) : Dev := wr64 lo hi (ofInt 64 v) d

/-! ### The live bank and the values in force -/

/-- The mask of a register's RWD fields (R14). -/
def rwdMask (off : Nat) : Word :=
  match findRow off with
  | some r => r.fields.foldl (fun m f => if f.acc = .rwd then m ||| fmask f.hi f.lo else m) 0
  | none => 0

/-- The class of a register's RWD fields as a bit number of MASK: 0 CONFIG, 1 LOOP, 2 PROFILE, 3 SCAN (R117, the class
lines of the chapters). -/
def classOf (off : Nat) : Nat :=
  if 0x1C000 ≤ off ∧ off < 0x20000 then 2
  else if 0x34000 ≤ off ∧ off < 0x36000 then 3
  else if 0x40000 ≤ off ∧ off < 0x7E000 then 1
  else 0

/-- A register whose accepted value transfers as a whole at the next COMMIT instant (R32; the chapters name them). -/
def isStaged (off : Nat) : Bool :=
  -- WPU_CHc_SYN_VEL and SYN_ACC (R243)
  (decide (0x10100 ≤ off ∧ off < 0x10300) && (let r := (off - 0x10100) % 0x80; decide (0x2C ≤ r ∧ r < 0x3C))) ||
  -- MPGm_TARGET, JOG_V, STREAM_POS, STREAM_VEL and SET_POS (R286)
  (decide (0x1C000 ≤ off ∧ off < 0x20000) && (let r := off % 0x100; decide (8 ≤ r ∧ r < 0x28) || decide (r = 0x88 ∨ r = 0x8C))) ||
  -- STPj_CUR
  (decide (0x20000 ≤ off ∧ off < 0x22000) && decide (off % 0x100 = 4)) ||
  -- LPE_SLOTs_SP_VAL, MAN_OUT and the MODE bit of CTRL
  (decide (0x40000 ≤ off ∧ off < 0x60000) && (let r := off % 0x80; decide (r = 0x68 ∨ r = 0x6C ∨ r = 0x14)))

/-- What the live map holds for an offset: at reset the same as the draft (R15). -/
def liveRaw (d : Dev) (off : Nat) : Word :=
  match smGet d.live off with
  | some v => v
  | none => resetVal off

/-- The value in force: live RWD fields, transferred staged registers, every other field as it reads. -/
def cur (d : Dev) (off : Nat) : Word :=
  if isStaged off then liveRaw d off
  else
    let m := rwdMask off
    if m = 0 then rd d off else (rd d off &&& ~~~m) ||| (liveRaw d off &&& m)

/-- A field of the value in force. -/
def cf (d : Dev) (off : Nat) (f : Fld) : Nat := fget (cur d off) f

/-- Is a one-bit field of the value in force 1? -/
def cb (d : Dev) (off : Nat) (f : Fld) : Bool := cf d off f == 1

/-- A 64-bit quantity in force. -/
def cur64 (d : Dev) (lo hi : Nat) : Nat := (cur d lo).toNat + (cur d hi).toNat * 4294967296

def curI64 (d : Dev) (lo hi : Nat) : Int := sext 64 (cur64 d lo hi)

/-- The device with the live word at an offset. -/
def wrLive (off : Nat) (v : Word) (d : Dev) : Dev :=
  { d with live := if v = resetVal off then smDel d.live off else smPut d.live off v }

/-! ### TB time and the tick (R26..R28, R58, R167, R168, R543) -/

/-- TBCLK time units in one nanosecond: the 32-bit fraction of R167. -/
def nsUnits : Nat := 4294967296

/-- The whole nanoseconds of TB time. -/
def tbNs (d : Dev) : Nat := d.tb / nsUnits

/-- The tick period code in force: PERIOD of TB_TICK_CFG, from the TBCLK edge after its acceptance on (R175). -/
def periodCode (d : Dev) : Nat := match d.tbu.oldPeriod with | some p => p | none => rf d TB_TICK_CFG TB_TICK_CFG_PERIOD

/-- The tick period P in TB time units: 7,812.5 ns × 2^PERIOD (R27). -/
def tickP (d : Dev) : Nat := 15625 * 2 ^ (31 + periodCode d)

/-- The tick period in whole ns, rounded down (exact for every P but 7,812.5 ns). -/
def tickPns (d : Dev) : Nat := tickP d / nsUnits

/-- K_P of R216 in half units: 1 s / P is 128,000 / 2^PERIOD ticks per second. -/
def ticksPerSecond (d : Dev) : Nat := 128000 / 2 ^ periodCode d

/-- Does TB time run: the TB bit of SYS_READY (R58, R94)? -/
def tbRuns (d : Dev) : Bool := rb d SYS_READY SYS_READY_TB

/-- The number of the current tick (R26); 0 until TB runs (R58). -/
def tickNum (d : Dev) : Nat := if tbRuns d then d.tb / tickP d else 0

/-- The effective addend in TB time units (R168): TB_ADDEND, plus the sign-extended TB_SERVO_CORR with SERVO_EN = 1. -/
def effAddend (d : Dev) : Nat :=
  let a := rf d TB_ADDEND_HI TB_ADDEND_HI_NS * nsUnits + (rd d TB_ADDEND_LO).toNat
  if rb d TB_CTRL TB_CTRL_SERVO_EN then ((a : Int) + sext 32 (rd d TB_SERVO_CORR).toNat).toNat else a

/-- The tick at whose COMMIT instant a write accepted now transfers: the first COMMIT instant strictly after it (R32). -/
def transferTick (d : Dev) : Nat :=
  match d.phase with
  | .commit | .skipped => d.tick + 1
  | _ => d.tick

/-- The TB time of the first TBCLK edge at which TB time has reached `t`; the present time where no edge moves it. -/
def edgeAt (d : Dev) (t : Nat) : Nat :=
  let a := effAddend d
  if t ≤ d.tb ∨ a = 0 then d.tb else d.tb + (t - d.tb + a - 1) / a * a

/-- The whole TB ns of the 1 GHz phase on which something given by its TB ns `t` falls, once the clock has moved to the TBCLK edge
that has reached it (R543): the first of the four phases at or after `t`; the edge itself for what came before this period. -/
def phaseNs (d : Dev) (t : Nat) : Nat :=
  let a := effAddend d
  if t * nsUnits + a ≤ d.tb then tbNs d
  else match [1, 2, 3].find? (fun j => decide (4 * t * nsUnits + 4 * a ≤ 4 * d.tb + j * a)) with
    | some j => (4 * d.tb + j * a - 4 * a) / 4 / nsUnits
    | none => tbNs d

/-! ### Free values (log entry 21) -/

/-- The next free value and the device that has drawn it: nothing in the model constrains it. -/
def draw (d : Dev) : Word × Dev := (Config.freeValue d.draws, { d with draws := d.draws + 1 })

/-! ### Emissions and memory operations -/

def emit (o : Out) (d : Dev) : Dev := { d with out := o :: d.out }

/-- Bytes written to memory from an address on; the step applies them when it ends. -/
def memPut (addr : Nat) (bytes : List Byte) (d : Dev) : Dev := { d with memq := d.memq ++ [.write addr bytes] }

/-! ### MSI-X and HIF events (R159..R161) -/

/-- A message on a vector: sent, or marked pending while it is masked or the endpoint may not send (R130, R160). -/
def sendMsix (v : Nat) (d : Dev) : Dev :=
  let v := v % 256
  if d.hif.msixEnable && !d.hif.msixFnMask && !d.hif.space.d3hot && !(rb d (HIF_MSIX_CTRL v) HIF_MSIX_CTRL_MASK) &&
      rb d HIF_LINK HIF_LINK_BME && rb d HIF_LINK HIF_LINK_UP then
    emit (.msix v (rd64 d (HIF_MSIX_ADDR_LO v) (HIF_MSIX_ADDR_HI v)) (rd d (HIF_MSIX_DATA v)).toNat) d
  else wf (HIF_MSIX_PBA (v / 32)) ⟨v % 32, v % 32⟩ 1 d

/-- A HIF event: its bit in HIF_EVT_STAT changing from 0 to 1 signals HIF_EVT_VEC while enabled (R161). -/
def hifEvent (bit : Nat) (d : Dev) : Dev :=
  let f : Fld := ⟨bit, bit⟩
  if rb d HIF_EVT_STAT f then d
  else
    let d' := wf HIF_EVT_STAT f 1 d
    if rb d HIF_EVT_EN f then sendMsix (rf d HIF_EVT_VEC HIF_EVT_VEC_VEC) d' else d'

/-- A flag of HIF_ERR set, with its event. -/
def hifErr (f : Fld) (d : Dev) : Dev := hifEvent 1 (wf HIF_ERR f 1 d)

/-! ### Access errors (R11, R13, R14, R50) -/

/-- The kinds of refused accesses, by their number in SYS_ACCESS_ADDR.KIND and their bit in SYS_ACCESS_ERR. -/
inductive AccKind
  | subword | unmapped | lockedWr | roRegion
  deriving DecidableEq, Repr

def AccKind.num : AccKind → Nat
  | .subword => 0
  | .unmapped => 1
  | .lockedWr => 2
  | .roRegion => 3

/-- A refused access: its flag is set, the first one is captured, a further one sets OVERFLOW (SYS_ACCESS_ERR,
SYS_ACCESS_ADDR); the HIF event ACCESS_ERR occurs. -/
def accessErr (k : AccKind) (m : Master) (off : Nat) (d : Dev) : Dev :=
  let held := rb d SYS_ACCESS_ADDR SYS_ACCESS_ADDR_VALID
  let d1 := wf SYS_ACCESS_ERR ⟨k.num, k.num⟩ 1 d
  let d2 :=
    if held then wf SYS_ACCESS_ERR SYS_ACCESS_ERR_OVERFLOW 1 d1
    else wr SYS_ACCESS_ADDR (BitVec.ofNat 32 (2147483648 + k.num * 33554432 + m.num * 1048576 + off % 1048576)) d1
  hifEvent 2 d2

/-! ### Function states (R97, R98, R541) -/

/-- The function indices that R97 lists. -/
def isFn (x : Nat) : Bool :=
  decide (x < 0x38) || decide (0x40 ≤ x ∧ x < 0xD4) || decide (0xE0 ≤ x ∧ x < 0x509) || decide (0x510 ≤ x ∧ x < 0x518) ||
  decide (x = 0x51C) || decide (0x520 ≤ x ∧ x < 0x528)

/-- The index ranges (first, count) of the functions of a unit, by its SYS_READY bit. -/
def unitFns (bit : Nat) : List (Nat × Nat) :=
  if bit = 9 then [(0, 0x30), (0x30, 8)] else if bit = 10 then [(0x40, 64)] else if bit = 11 then [(0x80, 32)]
  else if bit = 12 then [(0xA0, 48)] else if bit = 8 then [(0xD0, 4), (0xE0, 32)] else if bit = 7 then [(0x100, 1024)]
  else if bit = 14 then [(0x500, 8)] else if bit = 15 then [(0x508, 1)] else if bit = 16 then [(0x510, 8)]
  else if bit = 18 then [(0x51C, 1)] else if bit = 1 then [(0x520, 4), (0x524, 4)] else []

def getFn (d : Dev) (x : Nat) : Fn :=
  match smGet d.fns x with
  | some f => f
  | none => {}

def setFn (x : Nat) (f : Fn) (d : Dev) : Dev :=
  { d with fns := if f = {} then smDel d.fns x else smPut d.fns x f }

/-- Is the state of the configuration ARMING, ARMED or DISARMING (R541)? -/
def cfgActive (d : Dev) : Bool :=
  match d.cfg.state with
  | .arming | .armed | .disarming => true
  | _ => false

/-- Is a function armed in the sense of R541: included in a configuration that is ARMING, ARMED or DISARMING? -/
def armedFn (d : Dev) (x : Nat) : Bool := (getFn d x).included && cfgActive d

/-- Is any function of the index range armed? -/
def anyIncluded (d : Dev) (p : Nat → Bool) : Bool := d.fns.any (fun e => e.2.included && p e.1)

/-- Is an owning function of R169 armed: any function but the acquisition units? -/
def tbOwnerArmed (d : Dev) : Bool := cfgActive d && anyIncluded d (fun x => !(decide (0x500 ≤ x ∧ x < 0x508)))

/-- Is a function in a state? -/
def fnIs (d : Dev) (x : Nat) (s : FnState) : Bool := (getFn d x).state == s

/-- Does a function run its outputs: RUNNING or STOPPING? -/
def fnActive (d : Dev) (x : Nat) : Bool :=
  match (getFn d x).state with
  | .running | .stopping => true
  | _ => false

/-- A fault detected by function x: kept until the COMMIT instant, the first one and, on one clock, the lowest code (R98);
only an ARMED, RUNNING or STOPPING function faults. -/
def detectFault (x code : Nat) (d : Dev) : Dev :=
  match (getFn d x).state with
  | .armed | .running | .stopping =>
    match smGet d.ffaults x with
    | none => { d with ffaults := smPut d.ffaults x (code, d.tb) }
    | some (c, t) => if t = d.tb ∧ code < c then { d with ffaults := smPut d.ffaults x (code, d.tb) } else d
  | _ => d

/-- Has function x a fault detected that it has not yet entered? -/
def faultWaits (d : Dev) (x : Nat) : Bool := (smGet d.ffaults x).isSome

/-- A stop completed, as the chapter of function x defines it (R98): it leaves STOPPING at the next COMMIT instant. -/
def stopDone (x : Nat) (d : Dev) : Dev := if d.fstops.contains x then d else { d with fstops := x :: d.fstops }

/-! ### Running of the clocks (R506) -/

/-- Do the clocks of the control, data and management planes run? -/
def clocked (d : Dev) : Bool := match d.pwr.state with | .gale => true | _ => false

/-- Do the blocks that BREEZE keeps (TB, NET, PWR, SYS, HIF, recorder, safety island) run? -/
def awake (d : Dev) : Bool := match d.pwr.state with | .gale | .breeze => true | _ => false

/-! ### The event recorder's triggers (R518..R520) -/

/-- Insert a trigger after every one that came on an earlier clock, among those of the same clock by ascending CODE. -/
def insertTrig (t : Trig) : List Trig → List Trig
  | [] => [t]
  | u :: r => if u.ns = t.ns ∧ t.code < u.code then t :: u :: r else u :: insertTrig t r

/-- A trigger of a record (R518): it waits for its copies; one that finds the queue full is lost. Before the first record that is
kept after a loss comes one LOST record, for which one of the 32 places is held back (R520). -/
def trigger (code src : Nat) (detail : List Nat) (d : Dev) : Dev :=
  let e := d.evr
  let used := e.wait.length + e.queue.length
  if used < 31 then
    let w := if e.lost = 0 then e.wait else
      e.wait ++ [⟨0xFF, 0x3C, [BitVec.ofNat 32 e.lost, BitVec.ofNat 32 e.lostFirst, BitVec.ofNat 32 e.lostLast], e.lostLast⟩]
    { d with evr := { e with wait := insertTrig ⟨code, src, detail.map (BitVec.ofNat 32), tbNs d⟩ w, lost := 0 } }
  else
    bump EVR_LOST ⟨31, 0⟩ { d with evr := { e with lost := e.lost + 1, lostFirst := if e.lost = 0 then tbNs d else e.lostFirst, lostLast := tbNs d } }

/-- Single-bit errors corrected and counted (R48). -/
def countEcc (n : Nat) (d : Dev) : Dev := { d with sys := { d.sys with eccCount := d.sys.eccCount + n } }

/-- The record of an uncorrectable error that an engine finds in memory of its own (R48), with the engine's block as its SRC
(R518, log entry 122); the address and the master that it shows are not stated for an engine: free values (log entry 21). -/
def eccRecord (src : Nat) (d : Dev) : Dev :=
  let (a, d1) := draw d
  let (m, d2) := draw d1
  trigger 0x03 src [a.toNat, m.toNat] d2

/-- The device with a list of items processed in order. -/
def forEach {α : Type} (xs : List α) (f : α → Dev → Dev) (d : Dev) : Dev := xs.foldl (fun d x => f x d) d

/-- The device with f applied for 0, 1, …, n − 1. -/
def forUpTo (n : Nat) (f : Nat → Dev → Dev) (d : Dev) : Dev := forEach (List.range n) f d

end Sys2Proof.Machine
end

