-- ==== Sys2Proof/Machine/Ring.lean ====
section
/-! DEFINITION. The ring pairs of the host interface (R132..R166): states, fetched descriptors, completion entries, signals,
halts, and the streaming rings' buffers. What a COMMAND descriptor does is in Machine/Descriptor.lean. -/
namespace Sys2Proof.Machine
open Sys2Proof Sys2Proof.Reg

/-! ### States (R162) -/

def ringDisabled : Nat := 0
def ringRunning : Nat := 1
def ringPaused : Nat := 2
def ringDraining : Nat := 3
def ringFlushing : Nat := 4
def ringHalted : Nat := 5

def ringState (d : Dev) (r : Nat) : Nat := rf d (HIF_RING_STAT r) HIF_RING_STAT_STATE

def getRing (d : Dev) (r : Nat) : Ring :=
  match smGet d.hif.rings r with
  | some g => g
  | none => {}

def setRing (r : Nat) (g : Ring) (d : Dev) : Dev := { d with hif := { d.hif with rings := smPut d.hif.rings r g } }

/-- The number of entries of the rings of a pair (R132). -/
def ringSize (d : Dev) (r : Nat) : Nat := 2 ^ rf d (HIF_RING_CFG r) HIF_RING_CFG_SIZE_LOG2

/-- The producer a ring names: SOURCE and SRC_IDX (R155). -/
def ringSource (d : Dev) (r : Nat) : Nat := rf d (HIF_RING_CFG r) HIF_RING_CFG_SOURCE
def ringSrcIdx (d : Dev) (r : Nat) : Nat := rf d (HIF_RING_CFG r) HIF_RING_CFG_SRC_IDX

/-- A streaming ring always behaves as an ordered ring (R156). -/
def ringOrdered (d : Dev) (r : Nat) : Bool := ringSource d r != 0 || rb d (HIF_RING_CFG r) HIF_RING_CFG_ORDERED

/-- A ring enters a state; HIF_HALTED shows the rings in HALTED, and entering it is a HIF event (R161, R162). -/
def setRingState (r st : Nat) (d : Dev) : Dev :=
  let halted : Fld := ⟨r % 32, r % 32⟩
  let reg := if r < 32 then HIF_HALTED_LO else HIF_HALTED_HI
  let d := wf (HIF_RING_STAT r) HIF_RING_STAT_STATE st d
  if st = ringHalted then hifEvent 0 (wf reg halted 1 d) else wf reg halted 0 d

/-- May the endpoint issue memory requests: Bus Master Enable is 1, the link is up (R130), and it is not in D3hot? -/
def mayIssue (d : Dev) : Bool := rb d HIF_LINK HIF_LINK_BME && rb d HIF_LINK HIF_LINK_UP && !d.hif.space.d3hot

/-- Data written to host memory, with the Relaxed Ordering attribute of HIF_CTRL.RO_EN (R124, R149). -/
def hostPut (addr : Nat) (bytes : List Byte) (d : Dev) : Dev :=
  let d1 := emit (.hostWrite addr bytes (rb d HIF_CTRL HIF_CTRL_RO_EN)) d
  if d.hif.wrRefused then hifErr HIF_ERR_HOST_WR_ERR d1 else d1

/-- The CQ is full: the next tail would meet CQ_HEAD (R139). -/
def cqFull (d : Dev) (r : Nat) : Bool :=
  (rf d (HIF_RING_IDX r) HIF_RING_IDX_CQ_TAIL + 1) % ringSize d r == rf d (HIF_RING_DBV r) HIF_RING_DBV_CQ_HEAD

/-! ### Signals (R159) -/

/-- The ring signals its vector and restarts its count and age. -/
def ringSignal (r : Nat) (d : Dev) : Dev :=
  sendMsix (rf d (HIF_RING_CFG r) HIF_RING_CFG_VEC) (setRing r { getRing d r with unsig := 0, oldest := 0, due := 0 } d)

/-- After an entry with the given status and IRQ_NOW flag: count it, and signal when COUNT is reached, when the oldest
entry has its age at once (TIME_US 0, DEDUCED: log entry 31), with IRQ_NOW, or with a status that is not OK. The COAL of this entry
decides until the next one (R166). -/
def ringCount (r : Nat) (irqNow : Bool) (status : Nat) (d : Dev) : Dev :=
  let g := getRing d r
  let n := g.unsig + 1
  let coal := HIF_RING_COAL r
  let t := if g.unsig = 0 then tbNs d else g.oldest
  let d1 := setRing r { g with unsig := n, oldest := t, due := t + rf d coal HIF_RING_COAL_TIME_US * 1000 } d
  let count := rf d coal HIF_RING_COAL_COUNT
  if n ≥ (if count = 0 then 1 else count) || rf d coal HIF_RING_COAL_TIME_US == 0 || irqNow || status != 0 then ringSignal r d1
  else d1

/-! ### Completion entries (R139, R140, R147, R149..R151) -/

/-- The 16 bytes of a completion entry (R147). -/
def cqEntry (tag opcode status phase result sqHead info ns : Nat) : List Byte :=
  leBytes 2 tag ++ leBytes 1 opcode ++ leBytes 1 (status % 128 + phase * 128) ++ leBytes 4 result ++ leBytes 2 sqHead ++
  leBytes 2 info ++ leBytes 4 ns

/-- The place of a fetched descriptor whose entry may be written next: the first in ring order on an ordered ring, the first
in completion order on a relaxed one; a FLUSHED entry of a relaxed ring waits for every started descriptor (R151, R163); on
a NET ring an ETH_TX need not wait for a buffer that stays posted (R158, DEDUCED: log entry 32). -/
def nextEntry (d : Dev) (r : Nat) (q : List FDesc) : Option FDesc :=
  if ringSource d r = 3 then
    q.find? (fun e => e.done.isSome && (q.takeWhile (fun x => x.stamp != e.stamp)).all
      (fun x => x.done.isNone && x.posted && e.desc.opcode == 0x11))
  else if ringOrdered d r then
    match q with
    | e :: _ => if e.done.isSome then some e else none
    | [] => none
  else
    let busy := q.any (fun e => e.started && e.done.isNone)
    let ok := q.filter (fun e => match e.done with | some c => !(c.status == 7 && busy) | none => false)
    ok.foldl (fun best e =>
      match best, e.done with
      | none, _ => some e
      | some b, some c => match b.done with
        | some cb => if c.seq < cb.seq then some e else some b
        | none => some b
      | some b, none => some b) none

/-- The codes of R148 that halt an ordered ring. -/
def haltsOrdered (status : Nat) : Bool := [1, 2, 3, 4, 5, 6, 8, 9, 0x0B].contains status

/-- Mark the fetched descriptors that have not started FLUSHED, in ring order. A buffer that holds data, or behind which a descriptor has
executed, counts as started: it completes as it stands, PARTIAL (DESIGN CHOICE, log entry 236). -/
def flushQueue (ns : Nat) : Nat → List FDesc → List FDesc × Nat
  | seq, [] => ([], seq)
  | seq, e :: t =>
    if e.done.isSome || e.started then
      let (t', s) := flushQueue ns seq t
      (e :: t', s)
    else
      let done : DescDone :=
        if e.fill > 0 || (e.posted && t.any (fun x => x.started || x.done.isSome)) then ⟨0, BitVec.ofNat 32 e.fill, 1 + (if e.gap then 2 else 0), ns, seq⟩
        else ⟨7, 0, 0, ns, seq⟩
      let (t', s) := flushQueue ns (seq + 1) t
      ({ e with done := some done } :: t', s)

/-- Every descriptor that was fetched and has not started completes FLUSHED (R162, R163). -/
def flushUnstarted (r : Nat) (d : Dev) : Dev :=
  let g := getRing d r
  let (q, s) := flushQueue (tbNs d) d.hif.dones g.q
  setRing r { g with q := q } { d with hif := { d.hif with dones := s } }

/-- A ring begins to flush: FLUSHING with the error code, the descriptor at the halt in ERR_DESC, SQ_HEAD at the first flushed descriptor
or at `nextIdx` (R162, R163). -/
def haltMark (r err tag idx nextIdx : Nat) (d : Dev) : Dev :=
  let d1 := setRingState r ringFlushing d
  let d2 := wf (HIF_RING_STAT r) HIF_RING_STAT_ERR err d1
  let d3 := flushUnstarted r (wr (HIF_RING_ERR_DESC r) (BitVec.ofNat 32 (tag % 65536 * 65536 + idx % 4096)) d2)
  let flushed := (getRing d3 r).q.find? (fun e => match e.done with | some c => c.status == 7 | none => false)
  wf (HIF_RING_IDX r) HIF_RING_IDX_SQ_HEAD (match flushed with | some e => e.idx | none => nextIdx) d3

/-- One completion entry written, if one may be: the write to host memory, the tail and PHASE, the signal. A refused write sets
HOST_WR_ERR and halts a RUNNING ring with CQ_WRITE_ERR; its entry is not written again (DESIGN CHOICE, log entry 234). -/
def writeEntry (r : Nat) (d : Dev) : Dev :=
  let g := getRing d r
  if !(mayIssue d) || cqFull d r || ringState d r == ringPaused then d
  else match nextEntry d r g.q with
  | none => d
  | some e =>
    match e.done with
    | none => d
    | some c =>
      let idx := HIF_RING_IDX r
      let tail := rf d idx HIF_RING_IDX_CQ_TAIL
      let phase := rf d idx HIF_RING_IDX_PHASE
      let base := rd64 d (HIF_RING_CQ_BASE_LO r) (HIF_RING_CQ_BASE_HI r)
      let bytes := cqEntry e.desc.tag e.desc.opcode c.status phase c.result.toNat (rf d idx HIF_RING_IDX_SQ_HEAD) c.info c.ns
      let d1 := setRing r { g with q := g.q.filter (fun x => x.stamp != e.stamp) } d
      if d.hif.wrRefused then
        let d2 := hifErr HIF_ERR_HOST_WR_ERR d1
        if ringState d r = ringRunning then haltMark r 4 0 e.idx (rf d idx HIF_RING_IDX_SQ_HEAD) d2 else d2
      else
        let tail' := (tail + 1) % ringSize d r
        let d2 := wf idx HIF_RING_IDX_CQ_TAIL tail' (emit (.hostWrite (base + 16 * tail) bytes false) d1)
        let d3 := if tail' = 0 then wf idx HIF_RING_IDX_PHASE (1 - phase) d2 else d2
        ringCount r (e.desc.flags % 2 == 1) c.status d3

/-- Every entry that may be written is written; a ring that drains or flushes reaches its end state with its last entry. -/
def drainCq : Nat → Nat → Dev → Dev
  | 0, _, d => d
  | n + 1, r, d =>
    let d' := writeEntry r d
    if (getRing d' r).q.length < (getRing d r).q.length then drainCq n r d'
    else if (getRing d' r).q.isEmpty then
      if ringState d' r = ringDraining then setRingState r ringDisabled d'
      else if ringState d' r = ringFlushing then setRingState r ringHalted d'
      else d'
    else d'

/-- All entries of ring r that may be written now. -/
def ringDrain (r : Nat) (d : Dev) : Dev := drainCq ((getRing d r).q.length + 1) r d

/-! ### Completion and halt (R148, R162, R163) -/

/-- A RUNNING ring halts; the entries that may be written follow. -/
def haltRing (r err tag idx nextIdx : Nat) (d : Dev) : Dev := ringDrain r (haltMark r err tag idx nextIdx d)

/-- A descriptor of ring r (by its fetch stamp) completes on the device with a status, result and INFO; a halting status
halts an ordered ring (R148, R149, R162). -/
def completeDesc (r stamp status : Nat) (result : Word) (info : Nat) (d : Dev) : Dev :=
  let g := getRing d r
  let fin : FDesc → FDesc := fun e =>
    if e.stamp = stamp then { e with started := true, wait := .nothing, done := some ⟨status, result, info, tbNs d, d.hif.dones⟩ } else e
  let d1 := setRing r { g with q := g.q.map fin } { d with hif := { d.hif with dones := d.hif.dones + 1 } }
  match g.q.find? (fun e => e.stamp == stamp) with
  | none => d
  | some e =>
    if haltsOrdered status && ringOrdered d r && ringState d r == ringRunning then
      haltRing r 3 e.desc.tag e.idx ((e.idx + 1) % ringSize d r) d1
    else ringDrain r d1

/-- A ring that runs again after a pause: a completion with a halting status that came meanwhile halts an ordered ring now (R130, R162); the
entries that may be written follow. -/
def ringBack (r : Nat) (d : Dev) : Dev :=
  let bad (e : FDesc) : Bool := match e.done with | some c => haltsOrdered c.status | none => false
  match (getRing d r).q.find? bad with
  | some e => if ringOrdered d r then haltRing r 3 e.desc.tag e.idx ((e.idx + 1) % ringSize d r) d else ringDrain r d
  | none => ringDrain r d

/-! ### Ring commands (R140, R162, R164) -/

/-- A CTRL command that the state does not list is discarded and sets CMD_REJECTED. -/
def ringReject (r : Nat) (d : Dev) : Dev := wf (HIF_RING_STAT r) HIF_RING_STAT_CMD_REJECTED 1 d

/-- Is the producer of ring r named by another ring that is not DISABLED (R155)? -/
def producerInUse (d : Dev) (r : Nat) : Bool :=
  ringSource d r != 0 && (List.range 64).any (fun q =>
    q != r && ringState d q != ringDisabled && ringSource d q == ringSource d r && ringSrcIdx d q == ringSrcIdx d r)

/-- Does a ring's configuration allow ENABLE (R132, R155, R162)? -/
def ringConfigOk (d : Dev) (r : Nat) : Bool :=
  let sz := rf d (HIF_RING_CFG r) HIF_RING_CFG_SIZE_LOG2
  let src := ringSource d r
  decide (4 ≤ sz ∧ sz ≤ 12) && (rd d (HIF_RING_SQ_BASE_LO r)).toNat % 64 == 0 && (rd d (HIF_RING_CQ_BASE_LO r)).toNat % 64 == 0 &&
  decide (src ≤ 5) && decide (ringSrcIdx d r < (if src = 1 then 8 else if src = 2 then 4 else if src = 0 then 8 else 1)) &&
  !(producerInUse d r)

/-- ENABLE: DISABLED to RUNNING, or BAD_CFG; ERR is cleared. With Bus Master Enable 0 the ring pauses at once (R130). -/
def ringEnable (r : Nat) (d : Dev) : Dev :=
  if ringState d r = ringDisabled then
    if ringConfigOk d r then
      setRingState r (if rb d HIF_LINK HIF_LINK_BME then ringRunning else ringPaused) (wf (HIF_RING_STAT r) HIF_RING_STAT_ERR 0 d)
    else wf (HIF_RING_STAT r) HIF_RING_STAT_ERR 5 d
  else ringReject r d

/-- DISABLE: RUNNING to DRAINING; descriptors that have not started complete FLUSHED. -/
def ringDisable (r : Nat) (d : Dev) : Dev :=
  if ringState d r = ringRunning then ringDrain r (flushUnstarted r (setRingState r ringDraining d))
  else ringReject r d

/-- RESUME: HALTED to RUNNING; ERR is cleared. -/
def ringResume (r : Nat) (d : Dev) : Dev :=
  if ringState d r = ringHalted then
    setRingState r (if rb d HIF_LINK HIF_LINK_BME then ringRunning else ringPaused) (wf (HIF_RING_STAT r) HIF_RING_STAT_ERR 0 d)
  else ringReject r d

/-- The indices, stored doorbells and PHASE as after RESET (R140, R162). -/
def ringClear (r : Nat) (d : Dev) : Dev :=
  wr (HIF_RING_DBV r) 0 (wr (HIF_RING_IDX r) 0x80000000#32 (setRing r {} d))

/-- RESET: HALTED or DISABLED to DISABLED with cleared indices; ERR is cleared. -/
def ringReset (r : Nat) (d : Dev) : Dev :=
  if ringState d r = ringHalted ∨ ringState d r = ringDisabled then
    ringClear r (setRingState r ringDisabled (wf (HIF_RING_STAT r) HIF_RING_STAT_ERR 0 d))
  else ringReject r d

/-- A write of HIF_RINGr_CTRL.CMD. -/
def ringCtrl (r cmd : Nat) (d : Dev) : Dev :=
  if cmd = 1 then ringEnable r d else if cmd = 2 then ringDisable r d else if cmd = 3 then ringResume r d
  else if cmd = 4 then ringReset r d else d

/-! ### Doorbells (R134, R136) -/

/-- A doorbell value that is out of range: non-zero bits 31:12, or not below the ring size. -/
def badDoorbell (d : Dev) (r : Nat) (v : Word) : Bool := decide (4096 ≤ v.toNat) || decide (ringSize d r ≤ v.toNat)

/-- A BAR2 doorbell of ring r: SQ_TAIL (false) or CQ_HEAD (true). A doorbell to a DISABLED ring is discarded, whatever its value (DESIGN
CHOICE, log entry 233); a value out of range halts a RUNNING ring with BAD_DOORBELL, and in another state sets DB_RANGE and is not stored
(DESIGN CHOICE, log entry 232); otherwise the value is stored, and entries that it frees are written. -/
def doorbell (r : Nat) (cqHead : Bool) (v : Word) (d : Dev) : Dev :=
  if ringState d r = ringDisabled then hifErr HIF_ERR_DB_DISABLED d
  else if badDoorbell d r v then
    let d1 := hifErr HIF_ERR_DB_RANGE d
    if ringState d r = ringRunning then
      haltRing r 2 0 (rf d (HIF_RING_IDX r) HIF_RING_IDX_SQ_HEAD) (rf d (HIF_RING_IDX r) HIF_RING_IDX_SQ_HEAD) d1
    else d1
  else
    ringDrain r (wf (HIF_RING_DBV r) (if cqHead then HIF_RING_DBV_CQ_HEAD else HIF_RING_DBV_SQ_TAIL) v.toNat d)

/-! ### Fetching (R135, R138, R141) -/

/-- The descriptors fetched ahead of the oldest one of ring r that has not completed (R138). -/
def fetchedAhead (d : Dev) (r : Nat) : Nat :=
  match (getRing d r).q.find? (fun e => e.done.isNone) with
  | some e => (rf d (HIF_RING_IDX r) HIF_RING_IDX_SQ_HEAD + ringSize d r - e.idx) % ringSize d r - 1
  | none => 0

/-- Can ring r fetch its next descriptor: RUNNING, not empty, fewer than 16 fetched ahead of the oldest one that has not completed? -/
def canFetch (d : Dev) (r : Nat) : Bool :=
  ringState d r == ringRunning && mayIssue d &&
  rf d (HIF_RING_IDX r) HIF_RING_IDX_SQ_HEAD != rf d (HIF_RING_DBV r) HIF_RING_DBV_SQ_TAIL &&
  decide (fetchedAhead d r < 16)

/-- A descriptor from its 32 bytes (R141). -/
def descOf (b : List Byte) : Desc :=
  let at_ (o n : Nat) : Nat := leNat ((b.drop o).take n)
  { opcode := at_ 0 1, flags := at_ 1 1, tag := at_ 2 2, length := at_ 4 4, hostAddr := at_ 8 8, devAddr := at_ 0x10 4,
    param0 := at_ 0x14 4, param1 := at_ 0x18 8 }

/-- The fetched descriptor joins the ring; SQ_HEAD moves past it. -/
def fetchDesc (r : Nat) (x : Desc) (d : Dev) : Dev :=
  let head := rf d (HIF_RING_IDX r) HIF_RING_IDX_SQ_HEAD
  let g := getRing d r
  let e : FDesc := { idx := head, desc := x, stamp := d.hif.fetches }
  wf (HIF_RING_IDX r) HIF_RING_IDX_SQ_HEAD ((head + 1) % ringSize d r)
    (setRing r { g with q := g.q ++ [e] } { d with hif := { d.hif with fetches := d.hif.fetches + 1 } })

/-- A failed fetch halts the ring with FETCH_ERR (R162). -/
def fetchFailed (r : Nat) (d : Dev) : Dev :=
  let head := rf d (HIF_RING_IDX r) HIF_RING_IDX_SQ_HEAD
  haltRing r 1 0 head head d

/-! ### Starting descriptors (R139, R142, R148, R151, R153, R156) -/

/-- Is an opcode valid on a ring of this SOURCE (R142)? -/
def opcodeValid (src op : Nat) : Bool :=
  op == 0 || op == 5 || (src == 0 && decide (1 ≤ op ∧ op ≤ 7)) || (src != 0 && op == 0x10) || (src == 3 && op == 0x11)

/-- Are the fields that an opcode does not use 0 (R141)? PARAM0 counts the bits beyond the ones in use. -/
def unusedZero (x : Desc) : Bool :=
  x.flags / 2 == 0 &&
  (if x.opcode = 0 then x.hostAddr == 0 && x.devAddr == 0 && x.param0 == 0 && x.param1 == 0
   else if x.opcode = 1 then x.devAddr == 0 && x.param0 == 0 && x.param1 == 0
   else if x.opcode = 2 then x.devAddr == 0 && x.param0 == 0
   else if x.opcode = 3 ∨ x.opcode = 4 then x.param0 == 0 && x.param1 == 0
   else if x.opcode = 5 then x.hostAddr == 0 && x.devAddr == 0 && decide (x.param0 < 4) && x.param1 == 0
   else if x.opcode = 6 then x.hostAddr == 0 && x.devAddr == 0 && decide (x.param0 < 16) && x.param1 == 0
   else if x.opcode = 7 then x.devAddr == 0 && x.param0 == 0 && x.param1 == 0
   else if x.opcode = 0x10 then x.devAddr == 0 && x.param0 == 0 && x.param1 == 0
   else x.devAddr == 0 && decide (x.param0 < 8) && x.param1 == 0)

/-- Is LENGTH within the range of the opcode (R142; a work-item descriptor has 32 bytes, R393)? -/
def lengthOk (x : Desc) : Bool :=
  let l := x.length
  if x.opcode = 1 then decide (8 ≤ l ∧ l ≤ 32768) && l % 8 == 0
  else if x.opcode = 2 then decide (4 ≤ l ∧ l ≤ 16384) && l % 4 == 0
  else if x.opcode = 3 ∨ x.opcode = 4 then decide (4 ≤ l ∧ l ≤ 8388608) && l % 4 == 0
  else if x.opcode = 7 then l == 32
  else if x.opcode = 0x10 then decide (256 ≤ l ∧ l ≤ 65536) && l % 64 == 0
  else if x.opcode = 0x11 then decide (60 ≤ l ∧ l ≤ 1518)
  else l == 0

/-- Does [a, a + l) lie within [lo, hi)? -/
def within (a l lo hi : Nat) : Bool := decide (lo ≤ a ∧ a + l ≤ hi)

/-- May MEM_READ read this range (R144)? -/
def memReadable (a l : Nat) : Bool :=
  within a l 0x10000000 0x10200000 || within a l 0x20000000 0x20800000 || within a l 0x30000000 0x30400000 ||
  within a l 0x60000000 0x60200000

/-- May MEM_WRITE write this range (R144)? -/
def memWritable (a l : Nat) : Bool :=
  within a l 0x10000000 0x10200000 || within a l 0x20000000 0x20800000 || within a l 0x30000000 0x30400000 ||
  within a l 0x60111000 0x60200000

/-- Does the range touch a closed region of the MRAM window (R49, R144)? -/
def touchesClosed (a l : Nat) : Bool := decide (a < 0x60111000 ∧ 0x60000000 < a + l)

/-- The status with which a descriptor completes before it does anything, or none. -/
def descRefused (src : Nat) (x : Desc) : Option Nat :=
  if !(opcodeValid src x.opcode) || !(unusedZero x) then some 1
  else if !(lengthOk x) then some 2
  else if x.opcode = 3 ∧ !(memWritable x.devAddr x.length) then some 3
  else if x.opcode = 4 ∧ !(memReadable x.devAddr x.length) then some 3
  else none

/-- May a descriptor of a streaming ring start while earlier buffers stay posted: a buffer that is posted behind them, or the frame of an
ETH_TX (R156, R158)? -/
def passesPosted (src : Nat) (x : Desc) : Bool :=
  (x.opcode == 0x10 || (src == 3 && x.opcode == 0x11)) && (descRefused src x).isNone

/-- The descriptor of ring r that may start next (R139, R151, R153, R156, R158): the first one that has not started, when every earlier
one has completed (ordered ring, FENCE), or on a streaming ring is a buffer that stays posted, or on a relaxed ring has at least started
with no FENCE outstanding, and the CQ has room. -/
def startable (d : Dev) (r : Nat) : Option FDesc :=
  let q := (getRing d r).q
  let src := ringSource d r
  if ringState d r != ringRunning || cqFull d r then none
  else
    let before := q.takeWhile (fun e => e.done.isSome || e.started || e.posted)
    match q.drop before.length with
    | [] => none
    | e :: _ =>
      let ok (b : FDesc) : Bool :=
        b.done.isSome ||
        (if src ≠ 0 then passesPosted src e.desc && b.posted else !(ringOrdered d r || e.desc.opcode == 5 || b.desc.opcode == 5))
      if before.all ok then some e else none

/-- Descriptors that complete with an error before they do anything, one after the other, as they come to start. -/
def pumpBad : Nat → Nat → Dev → Dev
  | 0, _, d => d
  | n + 1, r, d =>
    match startable d r with
    | none => d
    | some e =>
      match descRefused (ringSource d r) e.desc with
      | none => d
      | some st =>
        let d1 := if st = 3 ∧ e.desc.opcode = 3 ∧ touchesClosed e.desc.devAddr e.desc.length
          then accessErr .roRegion .host e.desc.devAddr d else d
        pumpBad n r (completeDesc r e.stamp st 0 0 d1)

def ringPump (r : Nat) (d : Dev) : Dev := pumpBad ((getRing d r).q.length) r d

/-- Run `f` on the descriptor that ring r may start now, if it has this opcode; then let refused ones behind it complete. -/
def withDesc (r op : Nat) (f : FDesc → Dev → Dev) (d : Dev) : Dev :=
  let d := ringPump r d
  match startable d r with
  | none => d
  | some e => if e.desc.opcode = op then ringPump r (f e d) else d

/-- Mark a descriptor of ring r started and waiting. -/
def startWaiting (r stamp : Nat) (w : DescWait) (d : Dev) : Dev :=
  let g := getRing d r
  setRing r { g with q := g.q.map (fun e => if e.stamp = stamp then { e with started := true, wait := w } else e) } d

/-! ### Fences (R153, R154) -/

/-- Are the descriptors that a FENCE of ring r waits for complete? -/
def fenceMet (d : Dev) (r : Nat) (e : FDesc) : Bool :=
  ((getRing d r).q.all (fun x => decide (e.stamp ≤ x.stamp) || x.done.isSome)) &&
  (e.desc.param0 % 2 == 0 || d.hif.rings.all (fun g => g.1 == r || g.2.q.all (fun x => decide (e.stamp ≤ x.stamp) || x.done.isSome)))

/-- A FENCE whose scope is met completes, or with LIVE = 1 waits for the next COMMIT instant. -/
def fenceStep (r : Nat) (e : FDesc) (d : Dev) : Dev :=
  if e.wait = .scope ∧ fenceMet d r e then
    if e.desc.param0 / 2 % 2 = 1 then startWaiting r e.stamp (.commit d.tb) d
    else ringPump r (completeDesc r e.stamp 0 0 0 d)
  else d

/-- Every ring looked at once: refused descriptors that have come to start, waiting FENCEs. -/
def fencesSettle (d : Dev) : Dev :=
  forEach (smKeys d.hif.rings) (fun r d => ringPump r (forEach ((getRing d r).q) (fun e d => fenceStep r e d) d)) d

/-- At the COMMIT instant of tick n, at TB time `t`, every LIVE fence whose scope was met before it completes with the low word of n
(R154). -/
def fencesCommit (n t : Nat) (d : Dev) : Dev :=
  forEach (smKeys d.hif.rings) (fun r d => forEach ((getRing d r).q) (fun e d =>
    match e.wait with
    | .commit since => if since < t then ringPump r (completeDesc r e.stamp 0 (BitVec.ofNat 32 n) 0 d) else d
    | _ => d) d) d

/-! ### Streaming rings (R155..R158) -/

/-- The ring that names a producer and is not DISABLED. -/
def streamRing (d : Dev) (src idx : Nat) : Option Nat :=
  (List.range 64).find? (fun r => ringState d r != ringDisabled && ringSource d r == src && ringSrcIdx d r == idx)

/-- The posted buffer that a ring fills next; none while the CQ is full or the ring does not run (R139, R156). -/
def fillBuffer (d : Dev) (r : Nat) : Option FDesc :=
  if ringState d r != ringRunning || cqFull d r then none
  else (getRing d r).q.find? (fun e => e.posted && e.done.isNone)

/-- A buffer completes with the bytes filled and its INFO bits. -/
def completeBuffer (r : Nat) (e : FDesc) (status : Nat) (isPartial : Bool) (d : Dev) : Dev :=
  completeDesc r e.stamp status (BitVec.ofNat 32 e.fill) (b2n isPartial + 2 * b2n e.gap) d

/-- Bytes of a record go to the buffer: written to host memory behind what it holds. -/
def fillBytes (r : Nat) (e : FDesc) (bytes : List Byte) (d : Dev) : Dev :=
  let g := getRing d r
  let d1 := setRing r { g with
      gap := false
      q := g.q.map (fun x => if x.stamp = e.stamp then
        { x with fill := x.fill + bytes.length, gap := x.gap || (x.fill == 0 && g.gap), lastNs := tbNs d } else x) } d
  hostPut (e.desc.hostAddr + e.fill) bytes d1

/-- A loss for want of a buffer marks the next buffer (R157). -/
def streamLoss (r : Nat) (d : Dev) : Dev := setRing r { getRing d r with gap := true } d

/-- A record of a producer goes to its ring: into the present buffer, or, when it does not fit, that buffer completes and the record goes
into the next one (R156); `gap`: a loss precedes it (R157). The answer says whether the ring took it (or no ring streams it). -/
def streamTake (src idx : Nat) (gap : Bool) (bytes : List Byte) (d : Dev) : Dev × Bool :=
  match streamRing d src idx with
  | none => (d, true)
  | some r =>
    match fillBuffer d r with
    | none => (d, false)
    | some e =>
      let d1 := if e.fill + bytes.length ≤ e.desc.length then d else completeBuffer r e 0 false d
      match fillBuffer d1 r with
      | some e2 =>
        if e2.fill + bytes.length ≤ e2.desc.length then (fillBytes r e2 bytes (if gap then streamLoss r d1 else d1), true) else (d1, false)
      | none => (d1, false)

/-- A record that is lost where no posted buffer takes it. -/
def streamPush (src idx : Nat) (bytes : List Byte) (d : Dev) : Dev :=
  let (d1, kept) := streamTake src idx false bytes d
  match kept, streamRing d1 src idx with
  | false, some r => streamLoss r d1
  | _, _ => d1

/-- A received frame goes to the next posted buffer of the NET ring, one frame a buffer, cut to its length (R155, R158). -/
def streamFrame (bytes : List Byte) (d : Dev) : Dev :=
  match streamRing d 3 0 with
  | none => d
  | some r =>
    match fillBuffer d r with
    | none => streamLoss r d
    | some e =>
      let kept := bytes.take e.desc.length
      let d1 := fillBytes r e kept d
      match (getRing d1 r).q.find? (fun x => x.stamp == e.stamp) with
      | none => d1
      | some e1 => completeBuffer r e1 (if e.desc.length < bytes.length then 0x0A else 0) false d1

/-- Is a ring enabled for this producer? -/
def streamOn (d : Dev) (src idx : Nat) : Bool := (streamRing d src idx).isSome

end Sys2Proof.Machine
end

