-- ==== Sys2Proof/Machine/Sched.lean ====
section
/-! DEFINITION. The hardware scheduler (R393..R416): work items in slots, the matching store, readiness, dispatch and
pre-emption, ordered release, aborts, power windows and the eddy log. -/
namespace Sys2Proof.Machine
open Sys2Proof Sys2Proof.Reg

/-! ### Items, cores and flows -/

def getItem (d : Dev) (slot : Nat) : Option Item := smGet d.sch.items slot

def setItem (slot : Nat) (i : Item) (d : Dev) : Dev := { d with sch := { d.sch with items := smPut d.sch.items slot i } }

def delItem (slot : Nat) (d : Dev) : Dev := { d with sch := { d.sch with items := smDel d.sch.items slot } }

def getCore (d : Dev) (k : Nat) : Core :=
  match smGet d.sch.cores k with
  | some c => c
  | none => {}

def setCore (k : Nat) (c : Core) (d : Dev) : Dev := { d with sch := { d.sch with cores := smPut d.sch.cores k c } }

def getFlow (d : Dev) (f : Nat) : Flow :=
  match smGet d.sch.flows f with
  | some x => x
  | none => {}

def setFlow (f : Nat) (x : Flow) (d : Dev) : Dev := { d with sch := { d.sch with flows := smPut d.sch.flows f x } }

def coreState (d : Dev) (k : Nat) : Nat := rf d (SCH_CORE_STAT k) SCH_CORE_STAT_STATE

/-- The item at the top of a core's stack. -/
def topItem (d : Dev) (k : Nat) : Option (Nat × Item) :=
  match (getCore d k).stack with
  | [] => none
  | s :: _ => (getItem d s).map (fun i => (s, i))

def flowOrdered (d : Dev) (f : Nat) : Bool := rb d (SCH_FLOW_CFG f) SCH_FLOW_CFG_ORDERED
def flowHalted (d : Dev) (f : Nat) : Bool := rb d (SCH_FLOW_STAT f) SCH_FLOW_STAT_HALTED

/-! ### Eddy log (R414, R415) -/

/-- Is a record a GAP record: KIND 0 in bits 31:28 of its first word (R414)? -/
def eddyGap (rec : List Byte) : Bool := match rec[3]? with | some b => decide (b.toNat < 16) | none => false

/-- Write waiting records to the EDDY ring while it has posted buffers; a GAP record stands for a loss (R157). -/
def eddyDrain : Nat → Dev → Dev
  | 0, d => d
  | n + 1, d =>
    match d.sch.eddy with
    | rec :: rest =>
      if !streamOn d 5 0 then d
      else
        let (d1, taken) := streamTake 5 0 (eddyGap rec) rec d
        if taken then eddyDrain n { d1 with sch := { d1.sch with eddy := rest } } else d1
    | [] => d

/-- The record of a decision of a kind, if its bit in KINDS is set: queued behind a GAP record when records were lost, or
lost when the queue of 256 is full. -/
def eddy (kind core plane prio level reason slot flow seq cls w3 : Nat) (d : Dev) : Dev :=
  if rf d SCH_EDDY_CFG SCH_EDDY_CFG_KINDS / 2 ^ kind % 2 = 0 then d
  else
    let mk (k : Nat) (c p pr l re sl fl sq cl w : Nat) : List Byte :=
      leBytes 4 (k * 268435456 + c % 16 * 16777216 + p % 4 * 4194304 + pr % 8 * 524288 + l % 4 * 131072 + re % 16 * 4096 + sl % 4096) ++
      leBytes 4 (tbNs d) ++ leBytes 4 (fl % 256 * 16777216 + sq % 65536 * 256 + cl % 64) ++ leBytes 4 w
    let s := d.sch
    let gap := if s.eddyLost > 0 then [mk 0 0 0 0 0 0 0 0 0 0 s.eddyLost] else []
    if s.eddy.length + gap.length < 256 then
      eddyDrain 257 { d with sch := { s with eddy := s.eddy ++ gap ++ [mk kind core plane prio level reason slot flow seq cls w3], eddyLost := 0 } }
    else bump SCH_EDDY_STAT SCH_EDDY_STAT_LOST { d with sch := { s with eddyLost := s.eddyLost + 1 } }

/-- The record of a decision about an item. -/
def eddyItem (kind core reason slot : Nat) (i : Item) (w3 : Nat) (d : Dev) : Dev :=
  eddy kind core i.plane i.prio i.level reason slot i.flow (i.seq.getD 0) i.cls w3 d

/-- Whole core cycles of a count in units of 2^-34 cycle. -/
def wholeCycles (q : Nat) : Nat := q / 17179869184

/-! ### Pools (R395) -/

def ctrlSlots (d : Dev) : Nat := rf d SCH_RES SCH_RES_CTRL_SLOTS
def ctrlOps (d : Dev) : Nat := satNat 8192 (rf d SCH_RES SCH_RES_CTRL_OPS)

/-- Slots in use: of the reserve, and of the shared pool. -/
def slotsUsed (d : Dev) (reserved : Bool) : Nat := (d.sch.items.filter (fun e => e.2.reserved == reserved)).length

/-- Store entries in use: of the reserve, and of the shared pool. -/
def opsUsed (d : Dev) (reserved : Bool) : Nat :=
  d.sch.items.foldl (fun n e => n + (e.2.copies.filter (fun c => c.reserved == reserved)).length) 0

/-- Where an item of a plane finds a slot: in the reserve (true), in the shared pool (false), or nowhere. -/
def slotPool (d : Dev) (plane : Nat) : Option Bool :=
  if plane = 0 ∧ slotsUsed d true < ctrlSlots d then some true
  else if slotsUsed d false < 4096 - ctrlSlots d then some false
  else none

/-- Where a copy for an item of a plane finds an entry of the store. -/
def opPool (d : Dev) (plane : Nat) : Option Bool :=
  if plane = 0 ∧ opsUsed d true < ctrlOps d then some true
  else if opsUsed d false < 8192 - ctrlOps d then some false
  else none

/-- A slot number that is free: which one the scheduler takes is open in the spec (a free value, log entry 21). -/
def freeSlot (d : Dev) : Nat × Dev :=
  let free := (List.range 4096).filter (fun s => (getItem d s).isNone)
  let (v, d') := draw d
  (free.getD (v.toNat % free.length) 0, d')

/-! ### Readiness (R399, R400, R408) -/

/-- The deadline of a COMMIT-bound item: the first COMMIT instant at least 1,500 ns after `t` (R408). -/
def commitDeadline (d : Dev) (t : Nat) : Nat :=
  let p := tickP d
  let o := p - 1500 * nsUnits
  let want := t + 1500 * nsUnits
  o + (if want ≤ o then 0 else (want - o + p - 1) / p) * p

/-- An item becomes ready: its time, its flow sequence number (R405) and its deadline (R408). -/
def becomeReady (slot : Nat) (i : Item) (d : Dev) : Dev :=
  let f := getFlow d i.flow
  let ordered := flowOrdered d i.flow
  let i' := { i with st := .ready, readyAt := d.tb, seq := if ordered then some f.nextSeq else none,
                     deadline := if i.plane = 0 ∧ i.commit then some (commitDeadline d d.tb) else none }
  let d1 := setItem slot i' d
  if ordered then setFlow i.flow { f with nextSeq := (f.nextSeq + 1) % 65536 } d1 else d1

/-- Does the item hold at least one copy of every key it names? -/
def matched (i : Item) : Bool :=
  i.keys.all (fun k => decide ((i.keys.filter (· == k)).length ≤ (i.copies.filter (·.key == k)).length))

/-- Take the oldest copy of a key. -/
def takeCopy (k : Nat) : List OpCopy → Option OpCopy × List OpCopy
  | [] => (none, [])
  | c :: t => if c.key = k then (some c, t) else let (x, t') := takeCopy k t; (x, c :: t')

/-- Take one copy of each key, in key order: the operand VALUEs and the copies left. -/
def takeOps : List Nat → List OpCopy → List Word × List OpCopy
  | [], cs => ([], cs)
  | k :: ks, cs =>
    let (c, cs') := takeCopy k cs
    let (vs, cs'') := takeOps ks cs'
    ((match c with | some x => x.value | none => 0) :: vs, cs'')

/-- The instances of a standing item that are outstanding. -/
def outstanding (d : Dev) (slot : Nat) : Nat := (d.sch.items.filter (fun e => e.2.parent == some slot)).length

/-- A standing item spawns instances while its operands match, its instances allow it and a slot is free; a spawn that
waits for a slot writes one SPAWN_WAIT record (R399). -/
def spawn : Nat → Nat → Dev → Dev
  | 0, _, d => d
  | n + 1, slot, d =>
    match getItem d slot with
    | none => d
    | some i =>
      match i.st with
      | .standing =>
        if matched i && decide (outstanding d slot < i.maxInst + 1) then
          match slotPool d i.plane with
          | none =>
            if i.spawnWait then d
            else eddyItem 9 0 0 slot i 0 (setItem slot { i with spawnWait := true } d)
          | some res =>
            let (vals, left) := takeOps i.keys i.copies
            let (s, d1) := freeSlot d
            let d2 := setItem slot { i with copies := left, spawnWait := false } d1
            spawn n slot (becomeReady s { i with st := .ready, reserved := res, parent := some slot, ops := vals, copies := [], spawnWait := false } d2)
        else d
      | _ => d

/-- A waiting one-shot item whose operands and release point are there becomes ready; a standing item spawns. -/
def checkItem (slot : Nat) (d : Dev) : Dev :=
  match getItem d slot with
  | none => d
  | some i =>
    match i.st with
    | .standing => spawn 4 slot d
    | .waiting => if matched i && (i.relMode == 0 || i.relReached) then becomeReady slot i d else d
    | _ => d

/-- After a slot or an instance has gone: every standing item may spawn. -/
def respawn (d : Dev) : Dev :=
  forEach (d.sch.items.filter (fun e => e.2.st == .standing)) (fun e d => spawn 4 e.1 d) d

/-- The release point of an item is reached; `behind` when its event was behind (LATE_REL, R400). -/
def relPoint (slot : Nat) (behind : Bool) (d : Dev) : Dev :=
  match getItem d slot with
  | none => d
  | some i =>
    if i.relReached then d
    else
      let d1 := setItem slot { i with relReached := true } d
      checkItem slot (if behind then bump SCH_OCC SCH_OCC_LATE_REL d1 else d1)

/-! ### Operands (R397, R398) -/

/-- Is a key defined by the key table (R397)? -/
def keyDefined (k : Nat) : Bool :=
  decide (k < 0x834) || decide (0x840 ≤ k ∧ k < 0x8A8) || decide (0x900 ≤ k ∧ k < 0x990) || decide (0x9A0 ≤ k ∧ k < 0x9E8) ||
  decide (k = 0x9F0) || decide (0x8000 ≤ k ∧ k < 0x10000)

/-- Does an item name a key and still wait for operands? -/
def namesKey (i : Item) (k : Nat) : Bool :=
  i.keys.contains k && (match i.st with | .standing | .waiting => true | .ready => i.parent.isNone | _ => false)

/-- One copy of an operand for one item: it replaces the held one with LATEST = 1, else takes an entry of the store, else is
DROPPED. -/
def giveCopy (slot key : Nat) (v : Word) (d : Dev) : Dev :=
  match getItem d slot with
  | none => d
  | some i =>
    if i.latest && i.copies.any (·.key == key) then
      setItem slot { i with copies := i.copies.map (fun c => if c.key = key then { c with value := v, tick := tickNum d } else c) } d
    else
      match opPool d i.plane with
      | some res => checkItem slot (setItem slot { i with copies := i.copies ++ [⟨key, v, tickNum d, res⟩] } d)
      | none => wf SCH_ERR SCH_ERR_FULL_OPS 1 (bump SCH_CNT SCH_CNT_DROPPED d)

/-- An operand is posted: one copy for each item that names its key; UNMATCHED when none does. -/
def postOperand (key : Nat) (v : Word) (d : Dev) : Dev :=
  let named := (d.sch.items.filter (fun e => namesKey e.2 key)).map (·.1)
  if named.isEmpty then bump SCH_CNT SCH_CNT_UNMATCHED d
  else forEach named (fun s d => giveCopy s key v d) d

/-- Copies held for more than OP_AGE ticks are discarded as DROPPED. -/
def ageOperands (d : Dev) : Dev :=
  let age := rf d SCH_OPCFG SCH_OPCFG_OP_AGE
  if age = 0 then d
  else
    let old : OpCopy → Bool := fun c => decide (age < tickNum d - c.tick)
    let n := d.sch.items.foldl (fun n e => n + (e.2.copies.filter old).length) 0
    bumpBy SCH_CNT SCH_CNT_DROPPED n
      { d with sch := { d.sch with items := d.sch.items.map (fun e => (e.1, { e.2 with copies := e.2.copies.filter (fun c => !(old c)) })) } }

/-! ### Submission (R393, R394) -/

/-- A descriptor of 32 bytes as an item, not yet checked. -/
def parseItem (b : List Byte) : Item :=
  let w (o : Nat) : Nat := leNat ((b.drop o).take 4)
  let h (o : Nat) : Nat := leNat ((b.drop o).take 2)
  let c := w 0
  { cls := c % 64, maxInst := c / 64 % 4, flow := c / 256 % 256, prio := c / 65536 % 8, plane := c / 524288 % 4,
    commit := c / 4194304 % 2 == 1, latest := c / 8388608 % 2 == 1, relMode := c / 16777216 % 4, master := c / 67108864 % 4,
    entry := BitVec.ofNat 32 (w 4), arg := BitVec.ofNat 32 (w 8), coreMask := h 12, outKey := h 14,
    keys := ([h 16, h 18, h 20, h 22]).take (c / 268435456 % 8), release := w 24 + w 28 * 4294967296,
    st := if c / 2097152 % 2 = 1 then .standing else .waiting }

/-- The SCH_ERR bit with which a descriptor is refused, or none (R394, in the order of its list). -/
def submitRefusal (d : Dev) (b : List Byte) : Option Nat :=
  let i := parseItem b
  let c := leNat (b.take 4)
  let nkeys := c / 268435456 % 8
  let standing := c / 2097152 % 2 == 1
  let allKeys := (List.range 4).map (fun k => leNat ((b.drop (16 + 2 * k)).take 2))
  if i.plane = 3 ∨ 4 < nkeys ∨ 2147483648 ≤ c ∨ (allKeys.drop nkeys).any (· != 0) ∨ (i.relMode = 0 ∧ i.release ≠ 0) then some 0
  else if !(i.keys.all keyDefined) then some 1
  else if standing && (nkeys == 0 || i.relMode != 0) then some 0
  else if i.commit && i.plane != 0 then some 0
  else if i.relMode = 3 ∨ (i.relMode = 2 ∧ !((getFn d (0xD0 + i.master)).included)) then some 0
  else if i.plane = 0 ∧ d.cfg.state ≠ .armed then some 2
  else if (slotPool d i.plane).isNone then some 3
  else none

/-- A descriptor is submitted: accepted into a free slot, or refused with its bit of SCH_ERR. -/
def submit (b : List Byte) (d : Dev) : Dev × Except Nat Nat :=
  match submitRefusal d b with
  | some e => (wf SCH_ERR ⟨e, e⟩ 1 d, .error e)
  | none =>
    let i := parseItem b
    let (s, d1) := freeSlot d
    let i' := { i with reserved := (slotPool d i.plane).getD false, relReached := i.relMode == 1 && decide (i.release ≤ tbNs d) }
    (checkItem s (setItem s i' d1), .ok s)

/-! ### Power (R409..R411) -/

/-- The hottest sensor, in 1/8 °C (R410, R516). -/
def hottest (d : Dev) : Int := sext 16 (rf d PWR_THERM_STAT PWR_THERM_STAT_HOT)

/-- The effective budget in whole mW; none without a budget (R410). -/
def effBudget (d : Dev) : Option Nat :=
  let b := rf d SCH_BUDGET SCH_BUDGET_BUDGET_MW
  let hard : Int := 8 * rf d SCH_THERM SCH_THERM_T_HARD
  let soft : Int := 8 * rf d SCH_THERM SCH_THERM_T_SOFT
  let t := hottest d
  if b = 0 then none
  else if hard ≤ t then some 0
  else if hard ≤ soft ∨ t < soft then some b
  else some ((b : Int) * (hard - t) / (hard - soft)).toNat

/-- P_L in quarter mW: ECOEF[L] × (4 − L) (R409). -/
def levelPower4 (d : Dev) (l : Nat) : Nat := rf d SCH_ECOEF ⟨8 * l + 7, 8 * l⟩ * (4 - l)

/-- The committed power C in quarter mW (R411). -/
def committed4 (d : Dev) : Nat :=
  (List.range 16).foldl (fun n k =>
    match topItem d k with
    | some (_, i) => if i.plane = 0 then n else n + levelPower4 d i.level
    | none => n) (4 * rf d SCH_BASE SCH_BASE_BASE_MW + 4 * d.sch.ctrlMw)

/-- The fastest level that fits the budget for an item, or none when it is delayed (R22, R403, R411). -/
def fitLevel (d : Dev) (i : Item) : Option Nat :=
  if i.plane = 0 then some 0
  else match effBudget d with
    | none => some 0
    | some eff => (List.range (rf d (SCH_CLASS i.cls) SCH_CLASS_SLOWEST + 1)).find? (fun l => decide (committed4 d + levelPower4 d l ≤ 4 * eff))

/-- REASON of DELAY and SLOW: 1 thermal where the temperature lowers the budget, 0 budget (DEDUCED, log entry 33). -/
def throttleReason (d : Dev) : Nat :=
  if effBudget d = some (rf d SCH_BUDGET SCH_BUDGET_BUDGET_MW) then 0 else 1

/-! ### Cycles and the register window of a core (R403, R409) -/

def addAt (l n : Nat) (xs : List Nat) : List Nat := xs.mapIdx (fun i x => if i = l then x + n else x)

/-- The cycles of a core's top item since they were last counted; the core clock runs (4 − L) / 4 cycles per ns at level L. -/
def accrue (k : Nat) (d : Dev) : Dev :=
  let c := getCore d k
  match topItem d k with
  | none => setCore k { c with since := d.tb } d
  | some (s, i) =>
    let q := (d.tb - c.since) * (4 - i.level)
    let d1 := setCore k { c with since := d.tb } (setItem s { i with qcycles := i.qcycles + q } d)
    { d1 with sch := { d1.sch with cyc := addAt i.level q d1.sch.cyc,
                                   ctrlCyc := if i.plane = 0 then addAt i.level q d1.sch.ctrlCyc else d1.sch.ctrlCyc } }

/-- CUR and its companions show the top item of core k (R403); `isNew` on a dispatch. -/
def refreshCur (k : Nat) (isNew : Bool) (d : Dev) : Dev :=
  let depth := (getCore d k).stack.length
  match topItem d k with
  | none =>
    wf (SCH_CORE_STAT k) SCH_CORE_STAT_RELQ_N 0 (wf (SCH_CORE_STAT k) SCH_CORE_STAT_LEVEL 0 (wr (SCH_CORE_CUR k) 0 d))
  | some (s, i) =>
    let d := if isNew then noteSet (SCH_CORE_CUR k) SCH_CORE_CUR_NEW 1 d else d
    let cur := BitVec.ofNat 32 (b2n isNew * 2147483648 + b2n i.preempted * 1073741824 + b2n i.resumed * 536870912 +
      depth % 8 * 67108864 + i.level * 16777216 + i.plane * 4194304 + 2097152 + s % 4096)
    let op (n : Nat) : Word := i.ops.getD n 0
    wf (SCH_CORE_STAT k) SCH_CORE_STAT_RELQ_N i.relq.length (wf (SCH_CORE_STAT k) SCH_CORE_STAT_LEVEL i.level
      (wr (SCH_CORE_CUR_ENTRY k) i.entry (wr (SCH_CORE_CUR_OP3 k) (op 3) (wr (SCH_CORE_CUR_OP2 k) (op 2) (wr (SCH_CORE_CUR_OP1 k) (op 1)
        (wr (SCH_CORE_CUR_OP0 k) (op 0) (wr (SCH_CORE_CUR_ARG k) i.arg (wr (SCH_CORE_CUR k) cur d))))))))

/-- The cycles of the top item so far (SCH_COREk_CYCLES). -/
def coreCycles (d : Dev) (k : Nat) : Word :=
  match topItem d k with
  | none => 0
  | some (_, i) => BitVec.ofNat 32 (wholeCycles (i.qcycles + (d.tb - (getCore d k).since) * (4 - i.level)))

/-! ### Ranking and dispatch (R401..R403) -/

/-- The rank of a ready item (R401): lower comes first, compared key by key. -/
def rankKey (slot : Nat) (i : Item) : List Nat :=
  [if i.plane = 0 then 0 else 1, 7 - i.prio, if i.plane = 2 then 1 else 0, i.readyAt, i.seq.getD 0, slot]

def lexLt : List Nat → List Nat → Bool
  | a :: as, b :: bs => decide (a < b) || (a == b && lexLt as bs)
  | _, _ => false

/-- The items in rank order (insertion by rank). -/
def rankInsert (x : Nat × Item) : List (Nat × Item) → List (Nat × Item)
  | [] => [x]
  | y :: t => if lexLt (rankKey x.1 x.2) (rankKey y.1 y.2) then x :: y :: t else y :: rankInsert x t

def ranked (xs : List (Nat × Item)) : List (Nat × Item) := xs.foldl (fun acc x => rankInsert x acc) []

/-- May an item run on core k: the core runs, is no checker, takes the plane, and lies in CORE_MASK? -/
def eligible (d : Dev) (i : Item) (k : Nat) : Bool :=
  coreState d k == 1 && rf d (SCH_CORE_CFG k) SCH_CORE_CFG_PLANES / 2 ^ i.plane % 2 == 1 &&
  (i.coreMask == 0 || i.coreMask / 2 ^ k % 2 == 1)

/-- The core that an item goes to: the lowest-numbered idle eligible core. -/
def idleCore (d : Dev) (i : Item) : Option Nat :=
  (List.range 16).find? (fun k => eligible d i k && (getCore d k).stack.isEmpty)

/-- The core that a ready item pre-empts (R402): among the eligible cores below depth 4, the one whose current item has the
lowest rank, when the control plane meets another plane, or within a rank class the priority is higher and PREEMPT is 1. -/
def preemptCore (d : Dev) (i : Item) : Option Nat :=
  let cands := (List.range 16).filterMap (fun k =>
    if eligible d i k && decide ((getCore d k).stack.length < 4) then (topItem d k).map (fun t => (k, t.1, t.2)) else none)
  let worst := cands.foldl (fun best c =>
    match best with
    | none => some c
    | some b => if lexLt (rankKey b.2.1 b.2.2) (rankKey c.2.1 c.2.2) then some c else some b) none
  match worst with
  | none => none
  | some (k, _, y) =>
    if i.plane = 0 ∧ y.plane ≠ 0 then some k
    else if decide ((i.plane = 0) ↔ (y.plane = 0)) && decide (y.prio < i.prio) && rb d (SCH_CORE_CFG k) SCH_CORE_CFG_PREEMPT then some k
    else none

/-- An item is dispatched to a core at a level: its copies become CUR_OP, the dispatch interrupt is asserted (R399, R403). -/
def dispatchTo (k slot : Nat) (i : Item) (l : Nat) (d : Dev) : Dev :=
  let d := accrue k d
  let c := getCore d k
  let pre := !c.stack.isEmpty
  let (vals, left) := if i.parent.isSome then (i.ops, i.copies) else takeOps i.keys i.copies
  let i' := { i with st := .running k, ops := vals, copies := if i.parent.isSome then left else [], level := l, core := k, preempted := pre, resumed := false, relq := [] }
  let d1 := setCore k { c with stack := slot :: c.stack, irq := true } (setItem slot i' d)
  let d2 := { d1 with sch := { d1.sch with dispatches := d1.sch.dispatches + 1,
                                           ctrlDispatches := d1.sch.ctrlDispatches + (if i.plane = 0 then 1 else 0) } }
  let d3 := refreshCur k true (emit (.coreIrq k 11) d2)
  let d4 := if 0 < l then bump SCH_THROTTLE SCH_THROTTLE_SLOWS d3 else d3
  let est := rf d (SCH_CLASS i.cls) SCH_CLASS_C_EST
  if pre then eddyItem 2 k 0 slot i' 0 (eddyItem 1 k 0 slot i' est d4) else eddyItem 1 k 0 slot i' est d4

/-- A ready item that no level fits is delayed: counted and recorded once (R411). -/
def delayItem (slot : Nat) (i : Item) (d : Dev) : Dev :=
  if i.delayed then d
  else eddyItem 6 0 (throttleReason d) slot i (committed4 d / 4)
    (bump SCH_THROTTLE SCH_THROTTLE_DELAYS (setItem slot { i with delayed := true } d))

/-- One dispatch decision over the ready items in rank order; an item that is delayed holds back the items of its plane. -/
def decide1 : List (Nat × Item) → List Nat → Dev → Dev
  | [], _, d => d
  | (s, i) :: t, blocked, d =>
    if blocked.contains i.plane then decide1 t blocked d
    else
      match idleCore d i, preemptCore d i with
      | none, none => decide1 t (if i.delayed && (fitLevel d i).isNone then i.plane :: blocked else blocked) d
      | some k, _ =>
        (match fitLevel d i with
         | some l => dispatchTo k s i l d
         | none => decide1 t (i.plane :: blocked) (delayItem s i d))
      | none, some k =>
        (match fitLevel d i with
         | some l => dispatchTo k s i l d
         | none => decide1 t (i.plane :: blocked) (delayItem s i d))

/-- The scheduler makes one dispatch decision. -/
def dispatch (d : Dev) : Dev :=
  decide1 (ranked (d.sch.items.filter (fun e => e.2.st == .ready))) [] d

/-! ### Release and abort (R404..R408) -/

/-- An item is released: its release pairs are issued, OUT_KEY is posted with DONE_VAL, its slot is free. -/
def releaseItem (slot : Nat) (i : Item) (core : Nat) (d : Dev) : Dev :=
  let d1 := eddyItem 4 core 0 slot i (wholeCycles i.qcycles) (delItem slot { d with sch := { d.sch with relOut := d.sch.relOut ++ i.relq } })
  let d2 := if 0x8000 ≤ i.outKey then postOperand i.outKey i.doneVal d1 else d1
  respawn d2

/-- Release the items of an ordered flow in strictly ascending order, past aborted positions unless the flow is HALTED. -/
def releaseFlow : Nat → Nat → Dev → Dev
  | 0, _, d => d
  | n + 1, f, d =>
    let next := rf d (SCH_FLOW_STAT f) SCH_FLOW_STAT_NEXT_REL
    let fl := getFlow d f
    let adv := wf (SCH_FLOW_STAT f) SCH_FLOW_STAT_NEXT_REL (next + 1)
    if fl.gone.contains next then
      if flowHalted d f then d
      else releaseFlow n f (adv (setFlow f { fl with gone := fl.gone.filter (· != next) } d))
    else
      match d.sch.items.find? (fun e => e.2.flow == f && e.2.st == .held && e.2.seq == some next) with
      | some (s, i) => releaseFlow n f (releaseItem s i i.core (adv d))
      | none => d

/-- An item is aborted for a reason of R406: an ABORT record, its slot is free; in an ordered flow its position is gone, and
with ON_ABORT = 1 the flow halts (R407). -/
def abortItem (slot reason core : Nat) (d : Dev) : Dev :=
  match getItem d slot with
  | none => d
  | some i =>
    let d1 := eddyItem 5 core reason slot i (wholeCycles i.qcycles) (delItem slot d)
    let d2 := match i.seq with
      | none => d1
      | some s =>
        let fl := getFlow d1 i.flow
        let d1 := setFlow i.flow { fl with gone := s :: fl.gone } d1
        let d1 :=
          if rb d1 (SCH_FLOW_CFG i.flow) SCH_FLOW_CFG_ON_ABORT && !(flowHalted d1 i.flow) && reason != 5 then
            eddyItem 8 core reason slot i 0 (wf (SCH_FLOW_STAT i.flow) SCH_FLOW_STAT_HALTED 1
              (setFlow i.flow { getFlow d1 i.flow with haltAt := s } d1))
          else d1
        releaseFlow 4097 i.flow d1
    respawn d2

/-- The top item leaves its core; the item below it resumes at its level, without an interrupt (R403). -/
def popTop (k : Nat) (d : Dev) : Dev :=
  let d := accrue k d
  let c := getCore d k
  let d1 := setCore k { c with stack := c.stack.drop 1, irq := false } d
  match topItem d1 k with
  | none => refreshCur k false d1
  | some (s, i) =>
    let i' := { i with resumed := true, level := if i.plane = 0 then 0 else i.level }
    eddyItem 3 k 0 s i' 0 (refreshCur k false (setItem s i' d1))

/-- The top item of core k is aborted; the item below resumes. -/
def abortTop (k reason : Nat) (d : Dev) : Dev :=
  match (getCore d k).stack with
  | [] => d
  | s :: _ => abortItem s reason k (popTop k d)

/-- Every item of core k is aborted, from the top. -/
def abortAll : Nat → Nat → Nat → Dev → Dev
  | 0, _, _, d => d
  | n + 1, k, reason, d => abortAll n k reason (abortTop k reason d)

/-- The class estimate after a DONE with STATUS 0: C_EST + ((C_meas − C_EST) >> EST_SHIFT), saturated (R413). -/
def updateEst (i : Item) (d : Dev) : Dev :=
  let est : Int := rf d (SCH_CLASS i.cls) SCH_CLASS_C_EST
  let meas : Int := wholeCycles i.qcycles
  let new := est + (meas - est) / (2 ^ rf d SCH_BUDGET SCH_BUDGET_EST_SHIFT : Int)
  wf (SCH_CLASS i.cls) SCH_CLASS_C_EST (clampInt 0 16777215 new).toNat d

/-- Core k writes DONE with a STATUS: its top item is released, held for its flow's order, or aborted (R403..R408, R413). -/
def coreDone (k : Nat) (abort : Bool) (d : Dev) : Dev :=
  let d := accrue k d
  match topItem d k with
  | none => d
  | some (s, i) =>
    let d1 := if abort then d else updateEst i d
    if i.late then abortItem s 1 k (popTop k d1)
    else if i.relErr then abortItem s 7 k (popTop k d1)
    else if abort then abortItem s 0 k (popTop k d1)
    else
      let i' := { i with doneVal := rd d1 (SCH_CORE_DONE_VAL k), st := .held }
      let d2 := popTop k (setItem s i' d1)
      match i.seq with
      | some _ => releaseFlow 4097 i.flow d2
      | none => releaseItem s i' k d2

/-- Core k appends a release pair to its top item; a 17th pair or an offset at or above 0x8_0000 sets RELQ_ERR (R404). -/
def relqPush (k : Nat) (v : Word) (d : Dev) : Dev :=
  match topItem d k with
  | none => d
  | some (s, i) =>
    let a := (rd d (SCH_CORE_RELQ_ADDR k)).toNat
    if 16 ≤ i.relq.length ∨ 0x80000 ≤ a then
      wf (SCH_CORE_STAT k) SCH_CORE_STAT_RELQ_ERR 1 (setItem s { i with relErr := true } d)
    else
      wf (SCH_CORE_STAT k) SCH_CORE_STAT_RELQ_N (i.relq.length + 1) (setItem s { i with relq := i.relq ++ [(a, v)] } d)

/-- RESUME of a HALTED flow: held items release in order past the aborted position (R407). -/
def flowResume (f : Nat) (d : Dev) : Dev :=
  if flowHalted d f then releaseFlow 4097 f (wf (SCH_FLOW_STAT f) SCH_FLOW_STAT_HALTED 0 d) else d

/-- An item leaves its core, if it is on one, and is aborted for a reason of R406. -/
def abortAny (slot reason : Nat) (d : Dev) : Dev :=
  match getItem d slot with
  | none => d
  | some i =>
    match i.st with
    | .running k =>
      if (getCore d k).stack.head? = some slot then abortItem slot reason k (popTop k d)
      else abortItem slot reason k (setCore k { getCore d k with stack := (getCore d k).stack.filter (· != slot) } d)
    | _ => abortItem slot reason i.core d

/-- Items in whose slot, operands or release list the scheduler finds an uncorrectable error: aborted with ECC (R48, R406). -/
def itemsEcc (ecc : List Nat) (d : Dev) : Dev :=
  forEach ecc (fun s d => if (getItem d s).isSome then abortAny s 4 (eccRecord 0x30 (wf SCH_ERR SCH_ERR_ECC 1 d)) else d) d

/-- Does a sequence number lie behind another, in the 16-bit ring (R405)? -/
def seqAfter (a b : Nat) : Bool := a != b && decide ((a + 65536 - b) % 65536 < 32768)

/-- FLUSH of a HALTED flow: every held and running item behind the halt position is aborted with FLUSH; the flow runs. -/
def flowFlush (f : Nat) (d : Dev) : Dev :=
  if flowHalted d f then
    let victims := (d.sch.items.filter (fun e => e.2.flow == f && (match e.2.seq with | some s => seqAfter s (getFlow d f).haltAt | none => false) &&
      (match e.2.st with | .held | .running _ => true | _ => false))).map (·.1)
    releaseFlow 4097 f (wf (SCH_FLOW_STAT f) SCH_FLOW_STAT_HALTED 0 (forEach victims (abortAny · 5) d))
  else d

/-- SCH_CANCEL: a standing item goes with every copy held for it, a one-shot item if it has not been dispatched (R396). -/
def cancelItem (slot : Nat) (d : Dev) : Dev :=
  match getItem d slot with
  | none => d
  | some i =>
    match i.st with
    | .standing => delItem slot d
    | .waiting => delItem slot d
    | .ready =>
      if i.parent.isSome then d
      else
        let d1 := delItem slot d
        (match i.seq with
         | some s => releaseFlow 4097 i.flow (setFlow i.flow { getFlow d1 i.flow with gone := s :: (getFlow d1 i.flow).gone } d1)
         | none => d1)
    | _ => d

/-- A tick counts a late result of a block once (R38, SYS_TICK_LATE). -/
def tickLate (block : Nat) (d : Dev) : Dev :=
  let d1 := wf SYS_TICK_LATE SYS_TICK_LATE_LAST_BLOCK block d
  if d.sys.lateTick = some (tickNum d) then d1
  else hifEvent 3 (bump SYS_TICK_LATE SYS_TICK_LATE_LATE_COUNT { d1 with sys := { d1.sys with lateTick := some (tickNum d) } })

/-- At a COMMIT instant: control-plane COMMIT-bound items whose deadline has come unreleased are late; one that is held for
order is aborted with LATE, any other when it writes DONE (R408, R416). -/
def schDeadlines (d : Dev) : Dev :=
  let lates := (d.sch.items.filter (fun e =>
    match e.2.deadline with
    | some t => decide (t ≤ d.tb) && !e.2.late
    | none => false)).map (·.1)
  if lates.isEmpty then d
  else forEach lates (fun s d =>
    match getItem d s with
    | some i => if i.st = .held then abortItem s 1 i.core d else setItem s { i with late := true } d
    | none => d) (tickLate 0x30 d)

/-- An item that is removed without a release: its position in an ordered flow is passed over. -/
def removeItem (s : Nat) (i : Item) (d : Dev) : Dev :=
  match i.seq with
  | some n => setFlow i.flow { getFlow d i.flow with gone := n :: (getFlow d i.flow).gone } (delItem s d)
  | none => delItem s d

/-- At the COMMIT instant at which the configuration leaves ARMED: every control-plane item and operand is removed, items in
progress are aborted with DISARM (R396); then the flows go on. -/
def schDisarm (d : Dev) : Dev :=
  let ctrl := d.sch.items.filter (fun e => e.2.plane == 0)
  let d1 := forEach ctrl (fun e d => match e.2.st with | .running _ => d | _ => removeItem e.1 e.2 d) d
  let d2 := forEach ctrl (fun e d => match e.2.st with | .running _ => abortAny e.1 6 d | _ => d) d1
  forEach (ctrl.filterMap (fun e => if e.2.seq.isSome then some e.2.flow else none)).eraseDups (fun f d => releaseFlow 4097 f d) d2

/-! ### Cores (R390..R392) -/

/-- Is core k the checker of a lockstep pair? -/
def isChecker (d : Dev) (k : Nat) : Bool := k % 2 == 1 && rb d (SCH_CORE_CFG (k - 1)) SCH_CORE_CFG_LOCK

/-- RELEASE: a halted core starts in machine mode at an address; a checker follows its pair (R391, R392). -/
def coreStart (k : Nat) (pc : Word) (d : Dev) : Dev :=
  if isChecker d k || coreState d k == 1 || coreState d k == 2 || !(rb d SYS_READY SYS_READY_CORES) then d
  else
    let d1 := wf (SCH_CORE_STAT k) SCH_CORE_STAT_STATE 1 (setCore k { pc := pc, since := d.tb } d)
    if k % 2 = 0 ∧ rb d (SCH_CORE_CFG k) SCH_CORE_CFG_LOCK then wf (SCH_CORE_STAT (k + 1)) SCH_CORE_STAT_STATE 2 d1 else d1

/-- HALT: a running core stops and its items are aborted with HALT; with it stops its checker (R392). -/
def coreHalt (k : Nat) (d : Dev) : Dev :=
  if coreState d k = 1 then
    let d1 := wf (SCH_CORE_STAT k) SCH_CORE_STAT_STATE 0 (abortAll 4 k 2 d)
    if coreState d (k + 1) = 2 then wf (SCH_CORE_STAT (k + 1)) SCH_CORE_STAT_STATE 0 d1 else d1
  else d

/-- A mismatch of lockstep pair j: both cores read STATE 3, the items are aborted with LOCKSTEP, a record is triggered. -/
def lockstepMismatch (j : Nat) (d : Dev) : Dev :=
  let k := 2 * j
  if rb d (SCH_CORE_CFG k) SCH_CORE_CFG_LOCK && coreState d k == 1 then
    trigger 0x22 0x30 [k] (wf (SCH_CORE_STAT (k + 1)) SCH_CORE_STAT_STATE 3 (wf (SCH_CORE_STAT k) SCH_CORE_STAT_STATE 3 (abortAll 4 k 3 d)))
  else d

/-! ### Power windows (R409, R412) -/

/-- The length of a power window in TB time units. -/
def windowLen (d : Dev) : Nat := tickP d * 2 ^ satNat 10 (rf d SCH_BUDGET SCH_BUDGET_WIN)

/-- The energy in pJ of core cycles by level. -/
def cycleEnergy (d : Dev) (c : List Nat) : Nat :=
  (List.range 4).foldl (fun e l => e + wholeCycles (c.getD l 0) * rf d SCH_ECOEF ⟨8 * l + 7, 8 * l⟩) 0

/-- Slow running data- and management-plane items by one level each, lowest rank first, until C fits EFF (R412). -/
def slowItems : List (Nat × Nat × Item) → Nat → Dev → Dev
  | [], _, d => d
  | (k, s, i) :: t, eff, d =>
    if committed4 d ≤ 4 * eff then d
    else if i.level < rf d (SCH_CLASS i.cls) SCH_CLASS_SLOWEST then
      let d := accrue k d
      match getItem d s with
      | none => slowItems t eff d
      | some i0 =>
        let i' := { i0 with level := i0.level + 1 }
        let d1 := refreshCur k (rb d (SCH_CORE_CUR k) SCH_CORE_CUR_NEW) (setItem s i' d)
        slowItems t eff (eddyItem 7 k (throttleReason d1) s i' (committed4 d1 / 4) (bump SCH_THROTTLE SCH_THROTTLE_SLOWS d1))
    else slowItems t eff d

/-- A power window ends: the measured power is formed, running items are slowed if it exceeds EFF, the counts restart. -/
def windowEnd (d : Dev) : Dev :=
  let d := forUpTo 16 accrue d
  let s := d.sch
  let w := windowLen d
  let ctrlBlocks := 1600 * s.loopSteps + 400 * s.fires + 700 * s.scanInstr
  let e := ctrlBlocks + 3000 * s.dispatches + cycleEnergy d s.cyc
  let mw (x : Nat) : Nat := x * nsUnits / w
  let meas := satNat 65535 (rf d SCH_BASE SCH_BASE_BASE_MW + mw e)
  let eff := effBudget d
  let d1 := { d with sch := { s with
      winStart := d.tb, loopSteps := 0, fires := 0, scanInstr := 0, dispatches := 0, ctrlDispatches := 0,
      cyc := [0, 0, 0, 0], ctrlCyc := [0, 0, 0, 0],
      ctrlMw := mw (ctrlBlocks + 3000 * s.ctrlDispatches + cycleEnergy d s.ctrlCyc) } }
  let d2 := wf SCH_PWR_STAT SCH_PWR_STAT_EFF_MW (match eff with | some x => x | none => 0xFFFF) (wf SCH_PWR_STAT SCH_PWR_STAT_MEAS_MW meas d1)
  match eff with
  | none => d2
  | some x =>
    if x < meas then
      let run := (List.range 16).filterMap (fun k => (topItem d2 k).bind (fun t => if t.2.plane = 0 then none else some (k, t.1, t.2)))
      let order := (ranked (run.map (fun r => (r.2.1, r.2.2)))).reverse
      slowItems (order.filterMap (fun o => (run.find? (fun r => r.2.1 == o.1)))) x d2
    else d2

end Sys2Proof.Machine
end

