-- ==== Sys2Proof/Machine/Wpu.lean ====
section
/-! DEFINITION. The web phase unit (spec/06): virtual master channels with their sources, and print bars. Lengths ending in
`q` and all positions of this file are in units of 2^-32 nm; velocities 2^-32 nm/ns; times TB ns or TB time units. -/
namespace Sys2Proof.Machine
open Sys2Proof Sys2Proof.Reg

/-! ### Stop requests in force (R198, R200) -/

/-- Is a stop request or the overflow stop in force here? -/
def stopInForce (d : Dev) : Bool := !d.cel.stops.isEmpty || d.cel.ovf.isSome

/-- The highest rate among the requests in force: a request's DECEL if it is non-zero, else the rate of its KIND; the overflow
stop has no DECEL (R200, R224; DEDUCED for the overflow stop, log entry 40). -/
def stopRate (stop quick : Nat) (d : Dev) : Nat :=
  let byKind (k : Nat) : Nat := if k = 2 then quick else stop
  let base := match d.cel.ovf with
    | some (k, _) => byKind k
    | none => 0
  d.cel.stops.foldl (fun m r => max m (if r.decel = 0 then byKind r.kind else r.decel)) base

/-! ### Channels -/

def getChan (d : Dev) (c : Nat) : Chan :=
  match smGet d.wpu.chans c with
  | some x => x
  | none => {}

/-- A channel state without the lists that its position does not need. -/
def stripChan (x : Chan) : Chan :=
  { x with encA := { x.encA with evs := [], inbox := [] }, encB := { x.encB with evs := [], inbox := [] } }

/-- The states in force before `until` remembered for 9 ms: the first one of an instant counts. -/
def histPush (u : Nat) (b : Bool) (x : Chan) (h : List (Nat × Bool × Chan)) : List (Nat × Bool × Chan) :=
  let kept := h.filter (fun e => decide (u < e.1 + 9000000 * nsUnits))
  match kept with
  | (t, _) :: _ => if u ≤ t then kept else (u, b, stripChan x) :: kept
  | [] => [(u, b, stripChan x)]

def getHist (d : Dev) (c : Nat) : List (Nat × Bool × Chan) :=
  match smGet d.wpu.hist c with
  | some h => h
  | none => []

/-- The device with a new state of channel c from TB time `u` on. -/
def setChanAt (u c : Nat) (x : Chan) (d : Dev) : Dev :=
  let old := getChan d c
  let d1 := { d with wpu := { d.wpu with chans := smPut d.wpu.chans c x } }
  if stripChan old = stripChan x then d1
  else { d1 with wpu := { d1.wpu with
    hist := smPut d1.wpu.hist c (histPush u (rb d (WPU_CH_STAT c) WPU_CH_STAT_ACTIVE) old (getHist d c)) } }

def setChan (c : Nat) (x : Chan) (d : Dev) : Dev := setChanAt d.tb c x d

/-- The function index of channel c and bar b (R97). -/
def fnChan (c : Nat) : Nat := 0xD0 + c
def fnBar (b : Nat) : Nat := 0xE0 + b

/-- Kind and index of source A (false) or B of channel c (R208). -/
def srcKind (d : Dev) (c : Nat) (b : Bool) : Nat := rf d (WPU_CH_CFG c) (if b then WPU_CH_CFG_SRC_B else WPU_CH_CFG_SRC_A)
def srcIdx (d : Dev) (c : Nat) (b : Bool) : Nat := rf d (WPU_CH_CFG c) (if b then WPU_CH_CFG_IDX_B else WPU_CH_CFG_IDX_A)

/-- Is source B the active one? -/
def actB (d : Dev) (c : Nat) : Bool := rb d (WPU_CH_STAT c) WPU_CH_STAT_ACTIVE

def rawFbk (d : Dev) (k : Nat) : Fbk :=
  match smGet d.fbk.fb k with
  | some x => x
  | none => {}

/-- Is interface k in quadrature mode, not OFF and not FAULTED (R208)? -/
def encValid (d : Dev) (k : Nat) : Bool :=
  decide (k < 48) && decide (rf d (FBK_CFG k) FBK_CFG_MODE < 2) && !(fnIs d k .off) && !(fnIs d k .faulted)

/-- The validity of a source (R208). -/
def srcValid (d : Dev) (c : Nat) (b : Bool) : Bool :=
  match srcKind d c b with
  | 1 => encValid d (srcIdx d c b)
  | 2 => decide (srcIdx d c b < 16) && decide (rf d (NET_RXS_STAT (srcIdx d c b)) NET_RXS_STAT_STATE = 1)
  | 3 => true
  | _ => false

/-- ±16.0 m/s and ±1,024 m/s² in 32.32 (R211). -/
def velMax : Int := 68719476736
def accMax : Int := 4398046511104

/-- The scale of an encoder source, 2^-32 nm per count. -/
def scaleQ (d : Dev) (c : Nat) : Int := rd64 d (WPU_CH_SCALE_LO c) (WPU_CH_SCALE_HI c)

/-- ORIGIN in units of 2^-32 nm. -/
def originQ (d : Dev) (c : Nat) : Int := rdI64 d (WPU_CH_ORIGIN_LO c) (WPU_CH_ORIGIN_HI c) * 4294967296

/-- A count with INVERT applied. -/
def invCnt (d : Dev) (c : Nat) (n : Int) : Int := if rb d (WPU_CH_CFG c) WPU_CH_CFG_INVERT then -n else n

/-- VEL_EDGES: 0 acts as 1, values above 64 as 64. -/
def velEdges (d : Dev) (c : Nat) : Nat :=
  let n := rf d (WPU_CH_EST c) WPU_CH_EST_VEL_EDGES
  if n = 0 then 1 else if 64 < n then 64 else n

/-- STILL_US in ns; 0 acts as 1 µs. -/
def stillNs (d : Dev) (c : Nat) : Nat :=
  let n := rf d (WPU_CH_EST c) WPU_CH_EST_STILL_US
  1000 * (if n = 0 then 1 else n)

/-- The event at the far end of the largest span of at most `m` intervals that is no longer than P; the one before e otherwise
(R212). `es` are the events before e, nearest first. -/
def spanEvent (te p : Nat) : Nat → List (Nat × Int) → Option (Nat × Int) → Option (Nat × Int)
  | 0, _, best => best
  | _, [], best => best
  | m + 1, e :: es, best =>
    match best with
    | none => spanEvent te p m es (some e)
    | some _ => if te - e.1 ≤ p then spanEvent te p m es (some e) else best

/-- The velocity estimate of R212 before saturation. -/
def encVel (scale : Int) (m p : Nat) (rev : Bool) (evs : List (Nat × Int)) : Int :=
  match evs with
  | (te, ce) :: es =>
    match spanEvent te p m es none with
    | some (tm, cm) =>
      let dc : Int := (ce - cm).natAbs
      let v := if te - tm = 0 then 0 else Int.tdiv (dc * scale) ((te - tm : Nat) : Int)
      if rev then -v else v
    | none => 0
  | [] => 0

/-- One event used by an encoder source: `ts` its TB ns, `dn` its count change before INVERT (R212, R215). -/
def encEvent (d : Dev) (c : Nat) (ts : Nat) (dn : Int) (t : EncTrk) : EncTrk :=
  if dn = 0 then t
  else
    let n := t.cnt + dn
    let back := decide (invCnt d c dn < 0)
    let evs := if t.fresh || back != t.rev then [(ts, n)] else
      match t.evs with
      | (t0, c0) :: r => if t0 = ts then (ts, n) :: r else ((ts, n) :: (t0, c0) :: r).take 64
      | [] => [(ts, n)]
    let v := encVel (scaleQ d c) (velEdges d c) (tickPns d) back evs
    -- a standstill that began and ended between two SAMPLE instants restarts the filter of R216
    let was := t.wasStill || t.still || decide (t.te + stillNs d c < ts)
    { t with cnt := n, evs := evs, te := ts, rev := back, v := v, still := false, fresh := false, wasStill := was }

/-- The events whose use instant, 24 ns after the timestamp, has come. -/
def encAbsorb (d : Dev) (c : Nat) (ns : Nat) (t : EncTrk) : EncTrk :=
  let due := t.inbox.filter (fun e => decide (e.1 + 24 ≤ ns))
  let rest := t.inbox.filter (fun e => !decide (e.1 + 24 ≤ ns))
  due.foldl (fun t e => encEvent d c e.1 e.2 t) { t with inbox := rest }

/-- Standstill declared when no edge has been counted for STILL_US µs (R214). -/
def encStill (d : Dev) (c : Nat) (ns : Nat) (t : EncTrk) : EncTrk :=
  let due := t.te + stillNs d c
  if !t.still && decide (due ≤ ns) && !(t.inbox.any (fun e => decide (e.1 ≤ due))) then { t with still := true, acc := 0, wasStill := true } else t

/-- The source state at TB ns `ns`; an overdue standstill is declared before a later event is used. -/
def encAt (d : Dev) (c : Nat) (ns : Nat) (t : EncTrk) : EncTrk := encStill d c ns (encAbsorb d c ns t)

/-- The position of an encoder source at TB ns (R213, R214). -/
def encPos (d : Dev) (c : Nat) (ns : Nat) (t : EncTrk) : Int :=
  let p := originQ d c + invCnt d c t.cnt * scaleQ d c
  if t.fresh then p
  else
    let dt : Int := if t.still then (min ((ns : Int) - t.te) (stillNs d c)) else (ns : Int) - t.te
    let dq := clampInt (-velMax) velMax t.v * dt
    if t.rev then p + max (min dq 0) (-(scaleQ d c - 1)) else p + min (max dq 0) (scaleQ d c - 1)

/-- The velocity of an encoder source. -/
def encV (t : EncTrk) : Int := if t.still then 0 else clampInt (-velMax) velMax t.v

/-- 8 × P in whole ns (R217). -/
def celH (d : Dev) : Int := (8 * tickP d / nsUnits : Nat)

/-- Position and velocity of a Celivo source from its frame at TB ns, before the blend (R217). -/
def celRaw (d : Dev) (c : Nat) (ns : Nat) (t : CelTrk) : Int × Int :=
  let p0 := t.pos * 4294967296 + originQ d c
  if t.still then (p0, 0)
  else
    let dt : Int := (ns : Int) - t.t0
    let da := min dt (celH d)
    let dv := Int.tdiv (t.acc * da) 1000000000
    (p0 + t.vel * dt + Int.tdiv (dv * (2 * dt - da)) 2, t.vel + dv)

/-- The position that a Celivo source puts out, its blend included (R218), at TB time `tb`. -/
def celPos (d : Dev) (c : Nat) (tb : Nat) (t : CelTrk) : Int :=
  let p := (celRaw d c (tb / nsUnits) t).1
  match t.blend with
  | none => p
  | some (e, ta) =>
    let x : Int := (tb : Int) - ta
    let h := celH d * nsUnits
    if x < h then p - Int.tdiv (e * (h - x)) h else p

/-- Position, velocity and acceleration of a source at TB time `tb`; none when it is of no kind. -/
def srcOut (d : Dev) (c : Nat) (b : Bool) (tb : Nat) : Int × Int × Int :=
  let x := getChan d c
  match srcKind d c b with
  | 1 =>
    let t := if b then x.encB else x.encA
    (encPos d c (tb / nsUnits) t, encV t, if t.still then 0 else t.acc)
  | 2 =>
    let t := if b then x.celB else x.celA
    let a : Int := if t.still || decide (celH d < (tb / nsUnits : Nat) - (t.t0 : Int)) then 0 else t.acc
    (celPos d c tb t, clampInt (-velMax) velMax (celRaw d c (tb / nsUnits) t).2, a)
  | 3 => (x.gen.pos + Int.tdiv (x.gen.vel * ((tb : Int) - x.gen.since)) nsUnits, x.gen.vel, x.gen.acc)
  | _ => (0, 0, 0)

/-- The output of the channel's generator while it carries the channel. -/
def genOut (x : Chan) (tb : Nat) : Int × Int × Int :=
  (x.gen.pos + Int.tdiv (x.gen.vel * ((tb : Int) - x.gen.since)) nsUnits, x.gen.vel, x.gen.acc)

/-- What channel c puts out at TB time `tb`: position, velocity, acceleration (R210, R221, R222). -/
def chanOut (d : Dev) (c : Nat) (tb : Nat) : Int × Int × Int :=
  let x := getChan d c
  if x.carried then genOut x tb
  else
    let o := srcOut d c (actB d c) tb
    (o.1 + x.konst, o.2)

/-- The present position of channel c. -/
def chanPos (d : Dev) (c : Nat) : Int := (chanOut d c d.tb).1

/-- The present position in whole web nm, rounded toward minus infinity (R227). -/
def chanNm (d : Dev) (c : Nat) : Int := chanPos d c / 4294967296

/-- Does the channel show its position to its users: is it RUNNING (R210)? -/
def chanRuns (d : Dev) (c : Nat) : Bool := fnIs d (fnChan c) .running

/-- The device in which channel c has the state that was in force at TB ns `ns`. -/
def chanThen (d : Dev) (c ns : Nat) : Dev :=
  match ((getHist d c).filter (fun e => decide (ns * nsUnits < e.1))).getLast? with
  | some (_, b, x) => wb (WPU_CH_STAT c) WPU_CH_STAT_ACTIVE b { d with wpu := { d.wpu with chans := smPut d.wpu.chans c x } }
  | none => d

/-- The position of channel c at an instant in 1/256 ns, rounded toward minus infinity to whole nm (R227, R373). -/
def chanPosAt (d : Dev) (c t256 : Nat) : Int :=
  let ns := t256 / 256
  let e := chanThen d c ns
  let p := (chanOut e c (ns * nsUnits)).1
  let q := (chanOut e c ((ns + 1) * nsUnits)).1
  (p + (q - p) * ((t256 % 256 : Nat) : Int) / 256) / 4294967296

/-- Is the source currently tracked standing still, and does it move backward (STANDSTILL and REVERSE of WPU_CHc_STAT)? -/
def chanFlags (d : Dev) (c : Nat) : Bool × Bool :=
  let x := getChan d c
  if x.carried then (x.gen.vel == 0, decide (x.gen.vel < 0))
  else
    let b := actB d c
    match srcKind d c b with
    | 1 => let t := if b then x.encB else x.encA; (t.still, t.rev && !t.fresh)
    | 2 => let t := if b then x.celB else x.celA; (t.still, t.rev)
    | 3 => (x.gen.vel == 0, decide (x.gen.vel < 0))
    | _ => (false, false)

/-- OVERSPEED of a channel (R211). -/
def chanOver (c : Nat) (d : Dev) : Dev := wf (WPU_CH_STAT c) WPU_CH_STAT_OVERSPEED 1 d

/-- Is the velocity that a source of channel c gives at TB time `tb` saturated (R211)? -/
def velOver (d : Dev) (c : Nat) (b : Bool) (tb : Nat) : Bool :=
  let x := getChan d c
  let beyond (v : Int) : Bool := decide (v < -velMax ∨ velMax < v)
  match srcKind d c b with
  | 1 => let t := if b then x.encB else x.encA; !t.still && beyond t.v
  | 2 => beyond (celRaw d c (tb / nsUnits) (if b then x.celB else x.celA)).2
  | _ => false

/-- The sources of channel c brought to TB ns `ns` in one go. -/
def chanSyncTo (ns c : Nat) (d : Dev) : Dev :=
  let x := getChan d c
  let a := if srcKind d c false = 1 then encAt d c ns x.encA else x.encA
  let b := if srcKind d c true = 1 then encAt d c ns x.encB else x.encB
  let d1 := if x.encA = a ∧ x.encB = b then d else setChanAt (min d.tb (ns * nsUnits)) c { x with encA := a, encB := b } d
  if !x.carried && velOver d1 c (actB d1 c) (ns * nsUnits) then chanOver c d1 else d1

/-- The sources of channel c brought to TB ns `ns`: events used one by one, standstill declared. -/
def chanSync (ns c : Nat) (d : Dev) : Dev :=
  let x := getChan d c
  let uses := ((x.encA.inbox ++ x.encB.inbox).map (fun e => e.1 + 24)).filter (fun t => decide (t < ns))
  chanSyncTo ns c (forEach (sortNat uses) (fun t d => chanSyncTo t c d) d)

/-- Every channel brought to TB ns `ns`. -/
def wpuSync (ns : Nat) (d : Dev) : Dev := forUpTo 4 (chanSync ns) d

/-- A source tracker that starts to track its interface: at standstill at the present count (R214). -/
def freshEnc (d : Dev) (c : Nat) (b : Bool) : EncTrk := { cnt := (rawFbk d (srcIdx d c b)).cnt }

/-- The last accepted frame of the subscription that a Celivo source names (R217). -/
def freshCel (d : Dev) (c : Nat) (b : Bool) : CelTrk :=
  match if srcKind d c b = 2 then smGet d.cel.streams (rf d (NET_RXS_CFG (srcIdx d c b)) NET_RXS_CFG_STREAM) else none with
  | some m => { some_ := true, pos := m.pos, vel := m.vel, acc := m.acc, t0 := m.validAt, still := m.still, rev := m.rev }
  | none => {}

/-- Both sources of channel c tracked anew: when the unit becomes ready, when CFG names other sources, after FAULTED (R210, R214). -/
def chanRetrack (c : Nat) (d : Dev) : Dev :=
  setChan c { getChan d c with encA := freshEnc d c false, encB := freshEnc d c true, celA := freshCel d c false, celB := freshCel d c true } d

/-- A counted edge of interface k on its way to the channels that track it (R212). -/
def wpuEdge (k ts : Nat) (dn : Int) (d : Dev) : Dev :=
  forUpTo 4 (fun c d =>
    let x := getChan d c
    let put (t : EncTrk) : EncTrk :=
      if tbRuns d then { t with inbox := t.inbox ++ [(ts, dn)] } else { t with cnt := t.cnt + dn }
    let a := if srcKind d c false = 1 && srcIdx d c false == k then put x.encA else x.encA
    let b := if srcKind d c true = 1 && srcIdx d c true == k then put x.encB else x.encB
    if x.encA = a ∧ x.encB = b then d else setChan c { x with encA := a, encB := b } d) d

/-- A load of the count of interface k by `dn`: the channels that track it follow without motion (R255, R256). -/
def wpuLoad (k : Nat) (dn : Int) (d : Dev) : Dev :=
  forUpTo 4 (fun c d =>
    let x := getChan d c
    let put (t : EncTrk) : EncTrk := { t with cnt := t.cnt + dn, evs := t.evs.map (fun e => (e.1, e.2 + dn)) }
    let a := if srcKind d c false = 1 && srcIdx d c false == k then put x.encA else x.encA
    let b := if srcKind d c true = 1 && srcIdx d c true == k then put x.encB else x.encB
    if x.encA = a ∧ x.encB = b then d else setChan c { x with encA := a, encB := b } d) d

/-- Is interface k the active source of a RUNNING channel (R256)? -/
def fbkIsMaster (d : Dev) (k : Nat) : Bool :=
  (List.range 4).any (fun c => chanRuns d c && srcKind d c (actB d c) == 1 && srcIdx d c (actB d c) == k)

/-- A pending home is cancelled, with CMD_REJ, when a channel enters RUNNING on interface k or changes to it (R256). -/
def cancelHomeFor (c : Nat) (b : Bool) (d : Dev) : Dev :=
  let k := srcIdx d c b
  if srcKind d c b = 1 && decide (k < 48) && rb d (FBK_STAT k) FBK_STAT_HOME_ARMED then
    wf (FBK_STAT k) FBK_STAT_CMD_REJ 1 (wf (FBK_STAT k) FBK_STAT_HOME_ARMED 0 d)
  else d

/-- The users of channel c look for scheduled events that are behind (R225). -/
def wpuLook (c : Nat) (d : Dev) : Dev :=
  if d.wpu.look.contains c then d else { d with wpu := { d.wpu with look := d.wpu.look ++ [c] } }

/-- A new frame of a subscribed stream reaches a source tracker at the present instant (R218). -/
def celFrame (c : Nat) (b : Bool) (m : MpStream) (d : Dev) : Dev :=
  let x := getChan d c
  let t := if b then x.celB else x.celA
  let new : CelTrk := { some_ := true, pos := m.pos, vel := m.vel, acc := m.acc, t0 := m.validAt, still := m.still, rev := m.rev }
  let e := (celRaw d c (tbNs d) new).1 - celPos d c d.tb t
  let lim := rf d (WPU_CH_JUMP c) WPU_CH_JUMP_JUMP_NM
  let put (t : CelTrk) (d : Dev) : Dev := setChan c (if b then { x with celB := t } else { x with celA := t }) d
  if !t.some_ then put new d
  else if lim ≠ 0 ∧ (e.natAbs : Int) ≤ lim * 4294967296 then put { new with blend := some (e, d.tb) } d
  else
    let d1 := put new d
    if b == actB d c && !x.carried then
      let d1 := setChan c { getChan d1 c with jump := x.jump + e } d1
      wpuLook c (if lim = 0 then d1
        else bump (WPU_CH_CNT c) WPU_CH_CNT_JUMPS (wf (WPU_CH_STAT c) WPU_CH_STAT_JUMP 1 d1))
    else d1

/-! ### The generator, source changes and losses at SAMPLE (R216, R219..R224) -/

/-- A deceleration register: 0 acts as 1 m/s². -/
def decelOf (d : Dev) (lo hi : Nat) : Nat := let n := rd64 d lo hi; if n = 0 then 4294967296 else n

def chanStopDecel (d : Dev) (c : Nat) : Nat := decelOf d (WPU_CH_STOP_DECEL_LO c) (WPU_CH_STOP_DECEL_HI c)
def chanQuickDecel (d : Dev) (c : Nat) : Nat := decelOf d (WPU_CH_QUICK_DECEL_LO c) (WPU_CH_QUICK_DECEL_HI c)

/-- The target velocity and the rate of the generator in the coming tick (R219, R222..R224). -/
def genGoal (d : Dev) (c : Nat) : Int × Nat :=
  let x := getChan d c
  let acc := cur64 d (WPU_CH_SYN_ACC_LO c) (WPU_CH_SYN_ACC_HI c)
  if x.lost then (0, chanStopDecel d c)
  else match (getFn d (fnChan c)).state with
    | .running =>
      if stopInForce d && srcKind d c (actB d c) == 3 then (0, stopRate (chanStopDecel d c) (chanQuickDecel d c) d)
      else if x.stopHold then (0, acc)
      else (curI64 d (WPU_CH_SYN_VEL_LO c) (WPU_CH_SYN_VEL_HI c), acc)
    | .stopping => (0, chanStopDecel d c)
    | _ => (0, acc)

/-- The generator at the SAMPLE instant `tb`: its position advanced, its velocity moved toward the target (R219); a stop request in force
holds the target of a RUNNING synthetic channel beyond its lifting (R224). -/
def genStep (c : Nat) (tb : Nat) (d : Dev) : Dev :=
  let x0 := getChan d c
  let x := { x0 with stopHold := x0.stopHold || stopInForce d && chanRuns d c && srcKind d c (actB d c) == 3 }
  let pos := (genOut x tb).1
  let (target, rate) := genGoal d c
  let t := clampInt (-velMax) velMax target
  let dv : Int := (rate / ticksPerSecond d : Nat)
  let v := if x.gen.vel < t then min t (x.gen.vel + dv) else max t (x.gen.vel - dv)
  let a : Int := if x.gen.vel < v then rate else if v < x.gen.vel then -(rate : Int) else 0
  let d1 := setChan c { x with gen := { pos := pos, vel := v, acc := a, since := tb } } d
  if t ≠ target ∧ (srcKind d c (actB d c) = 3 ∨ x.carried) then chanOver c d1 else d1

/-- The acceleration estimate of an encoder source at SAMPLE (R216), and whether it saturated. -/
def encAccel (d : Dev) (c : Nat) (t : EncTrk) : EncTrk × Bool :=
  if t.still then ({ t with acc := 0, vPrev := 0, wasStill := true }, false)
  else
    let a0 := if t.wasStill then 0 else t.acc
    let p0 := if t.wasStill then 0 else t.vPrev
    let raw := (encV t - p0) * (ticksPerSecond d : Int)
    let a := a0 + (raw - a0) / 2 ^ rf d (WPU_CH_EST c) WPU_CH_EST_ACC_SHIFT
    let s := clampInt (-accMax) accMax a
    ({ t with acc := s, vPrev := encV t, wasStill := false }, s != a)

/-- A source change at TB time `tb` (R221); it ends a deceleration of R222. -/
def sourceChange (c : Nat) (b : Bool) (tb : Nat) (d : Dev) : Dev :=
  let x := getChan d c
  let cont := rb d (WPU_CH_CFG c) WPU_CH_CFG_CONT
  let diff := (chanOut d c tb).1 - (srcOut d c b tb).1
  let d1 := setChan c { x with konst := if cont then diff else 0, jump := if cont then x.jump else x.jump - diff, lost := false,
                               carried := x.carried && fnIs d (fnChan c) .faulted } d
  let d2 := wb (WPU_CH_STAT c) WPU_CH_STAT_ACTIVE b d1
  let d3 := wr (WPU_CH_EPOCH c) (rd d2 (WPU_CH_EPOCH c) + 1) (bump (WPU_CH_CNT c) WPU_CH_CNT_SWITCHES d2)
  let d4 := if chanRuns d c then cancelHomeFor c b d3 else d3
  if cont then d4 else wpuLook c d4

/-- A USE_A or USE_B that transferred is judged at offset 0 (R220). -/
def judgeUse (c : Nat) (tb : Nat) (d : Dev) : Dev :=
  let x := getChan d c
  match x.judge with
  | none => d
  | some b =>
    let d1 := setChan c { x with judge := none } d
    if b == actB d c || !srcValid d c b then wf (WPU_CH_STAT c) WPU_CH_STAT_SW_REJ 1 d1
    else sourceChange c b tb d1

/-- The loss check of R222 for a RUNNING channel. -/
def lossCheck (c : Nat) (tb : Nat) (d : Dev) : Dev :=
  let x := getChan d c
  if !chanRuns d c || x.lost || srcValid d c (actB d c) then d
  else
    let d1 := wf (WPU_CH_STAT c) WPU_CH_STAT_LOST 1 d
    if !actB d c && rb d (WPU_CH_CFG c) WPU_CH_CFG_AUTO_B && srcValid d c true then sourceChange c true tb d1
    else
      let o := chanOut d1 c tb
      setChan c { getChan d1 c with lost := true, carried := true, konst := 0, gen := { pos := o.1, vel := o.2.1, acc := 0, since := tb } } d1

/-- DECEL of WPU_CHc_STAT: a deceleration under R222, R223 or R224 is in progress. -/
def chanDecel (d : Dev) (c : Nat) : Bool :=
  (getChan d c).lost || fnIs d (fnChan c) .stopping && srcKind d c (actB d c) == 3 ||
  chanRuns d c && stopInForce d && srcKind d c (actB d c) == 3

/-- The SAMPLE instant n × P = `tb` for channel c: USE commands, loss, generator, acceleration, latches (R243). -/
def chanSample (tb : Nat) (c : Nat) (d : Dev) : Dev :=
  let d2 := lossCheck c tb (judgeUse c tb d)
  -- in FAULTED the channel tracks nothing (R210)
  let d3 := if fnIs d2 (fnChan c) .faulted then d2 else genStep c tb d2
  let x := getChan d3 c
  let (ea, oa) := encAccel d3 c x.encA
  let (eb, ob) := encAccel d3 c x.encB
  let d4 := setChan c { x with encA := ea, encB := eb } d3
  let d5 := if (oa && !actB d4 c && srcKind d4 c false == 1 || ob && actB d4 c && srcKind d4 c true == 1 || velOver d4 c (actB d4 c) tb) && !x.carried
    then chanOver c d4 else d4
  let o := chanOut d5 c tb
  let a := clampInt (-accMax) accMax o.2.2
  let d6 := if a ≠ o.2.2 then chanOver c d5 else d5
  let y := getChan d6 c
  let inNm := (o.1 / 4294967296 - (o.1 - y.jump) / 4294967296) * 4294967296
  let d7 := setChan c { y with pos := o.1, vel := o.2.1, acc := a, jump := 0, jumpIn := inNm } d6
  let d8 := wrI64 (WPU_CH_ACC_LO c) (WPU_CH_ACC_HI c) a (wrI64 (WPU_CH_VEL_LO c) (WPU_CH_VEL_HI c) o.2.1
    (wrI64 (WPU_CH_POS_LO c) (WPU_CH_POS_HI c) (o.1 / 4294967296) d7))
  let (still, rev) := chanFlags d8 c
  let s := WPU_CH_STAT c
  let d9 := wb s WPU_CH_STAT_DECEL (chanDecel d8 c) (wb s WPU_CH_STAT_REVERSE rev (wb s WPU_CH_STAT_STANDSTILL still
    (wb s WPU_CH_STAT_VALID_A (srcValid d8 c false) (wb s WPU_CH_STAT_VALID_B (srcValid d8 c true) d8))))
  let z := (getChan d9 c).gen.vel == 0
  if (getChan d9 c).lost && z then detectFault (fnChan c) 1 d9
  else if fnIs d9 (fnChan c) .stopping && srcKind d9 c (actB d9 c) == 3 && z then stopDone (fnChan c) d9
  else d9

/-- SAMPLE of the web phase unit at TB time `tb` = n × P. -/
def wpuSample (tb : Nat) (d : Dev) : Dev := forUpTo 4 (chanSample tb) d

/-- COMMIT of the web phase unit: USE commands transfer (R220); a SYN_VEL written after the last request was lifted ends the hold of
R224. -/
def wpuCommit (d : Dev) : Dev :=
  let e := forUpTo 4 (fun c d =>
    let x := getChan d c
    let wrote := d.staged.contains (WPU_CH_SYN_VEL_HI c) && !stopInForce d && !d.wpu.stopWas
    let y := { x with judge := (match x.use with | some b => some b | none => x.judge), use := none, stopHold := x.stopHold && !wrote }
    if x = y then d else setChan c y d) d
  { e with wpu := { e.wpu with stopWas := stopInForce d } }

/-- A write of WPU_CHc_CMD (R220). -/
def chanCmd (c cmd : Nat) (d : Dev) : Dev :=
  if cmd = 1 then setChan c { getChan d c with use := some false } d
  else if cmd = 2 then setChan c { getChan d c with use := some true } d
  else d

/-! ### Channel function states -/

/-- A channel enters RUNNING: source A is active; its users look for events behind (R208, R225, R256). -/
def chanEnable (c : Nat) (d : Dev) : Dev :=
  wpuLook c (cancelHomeFor c false (wf (WPU_CH_STAT c) WPU_CH_STAT_ACTIVE 0
    (setChan c { getChan d c with lost := false, carried := false, konst := 0 } d)))

/-- The fault with which ENABLE of channel c ends instead (R222). -/
def chanEnableFault (d : Dev) (c : Nat) : Option Nat := if srcValid d c false then none else some 2

/-- DISABLE of channel c: a source that is no generator ends the stop at once (R223). -/
def chanDisable (c : Nat) (d : Dev) : Dev :=
  let x := getChan d c
  let d1 := setChan c { x with konst := if srcKind d c (actB d c) = 3 then x.konst else 0 } d
  if srcKind d c (actB d c) = 3 then d1 else stopDone (fnChan c) d1

/-- Channel c enters FAULTED: it holds its position (R210). -/
def chanFault (c : Nat) (d : Dev) : Dev :=
  let o := chanOut d c d.tb
  setChan c { getChan d c with lost := false, carried := true, konst := 0, gen := { pos := o.1, vel := 0, acc := 0, since := d.tb } } d

/-- Is the cause of a channel's fault still there (R98; DEDUCED, log entry 41)? -/
def chanCause (d : Dev) (c code : Nat) : Bool := if code = 1 then !srcValid d c (actB d c) else !srcValid d c false

/-- Channel c leaves RUNNING, STOPPING or FAULTED for READY or ARMED: the constant and a carried output end. -/
def chanLeave (c : Nat) (d : Dev) : Dev := setChan c { getChan d c with lost := false, carried := false, konst := 0 } d

/-! ### Print bars (R228..R242) -/

def getBar (d : Dev) (b : Nat) : Bar :=
  match smGet d.wpu.bars b with
  | some x => x
  | none => {}

def setBar (b : Nat) (x : Bar) (d : Dev) : Dev := { d with wpu := { d.wpu with bars := smPut d.wpu.bars b x } }

/-- Division rounded to nearest, ties away from zero. -/
def divNear (a : Int) (n : Nat) : Int :=
  if a < 0 then -((-a * 2 + n) / (2 * n)) else (a * 2 + n) / (2 * n)

/-- The effective pitch (R228). -/
def effPitch (pq : Nat) (s : Int) : Nat :=
  let hi : Int := ((pq / 4294967296 : Nat) : Int) * s
  let lo : Int := ((pq % 4294967296 : Nat) : Int) * s
  let q1 := Int.tdiv hi 1000000000
  let r1 := Int.tmod hi 1000000000
  ((pq : Int) + q1 * 4294967296 + divNear (r1 * 4294967296 + lo) 1000000000).toNat

/-- The stretch limit of R231. -/
def stretchMax : Int := 50000000

/-- The channel of bar b. -/
def barChan (d : Dev) (b : Nat) : Nat := rf d (WPU_BAR_CFG b) WPU_BAR_CFG_CH

/-- PITCH of the live bank. -/
def barPitch (d : Dev) (b : Nat) : Nat := cur64 d (WPU_BAR_PITCH_LO b) (WPU_BAR_PITCH_HI b)

/-- NEXT, IDX, EP, OFFSET and STRETCH of bar b show its state. -/
def barShow (b : Nat) (d : Dev) : Dev :=
  let x := getBar d b
  wb (WPU_BAR_STAT b) WPU_BAR_STAT_UPD_PENDING x.upd.isSome
    (wr64 (WPU_BAR_EP_LO b) (WPU_BAR_EP_HI b) x.ep
    (wr (WPU_BAR_STRETCH b) (BitVec.ofInt 32 x.stretch)
    (wrI64 (WPU_BAR_OFFSET_LO b) (WPU_BAR_OFFSET_HI b) x.offset
    (wr64 (WPU_BAR_IDX_LO b) (WPU_BAR_IDX_HI b) x.k
    (wrI64 (WPU_BAR_NEXT_LO b) (WPU_BAR_NEXT_HI b) (x.x / 4294967296) d)))))

/-- The RWD values of the live bank govern the coming fires of bar b (R238). -/
def barLoadRwd (d : Dev) (b : Nat) (x : Bar) : Bar :=
  { x with width := cf d (WPU_BAR_CFG b) WPU_BAR_CFG_WIDTH, late := cb d (WPU_BAR_CFG b) WPU_BAR_CFG_BEHIND,
           stopFire := cb d (WPU_BAR_CFG b) WPU_BAR_CFG_STOP_FIRE, skew := (cur d (WPU_BAR_SKEW b)).toInt }

/-- A stretch that becomes live, saturated to ±50,000,000 ppb, and whether it was (R231). -/
def satStretch (s : Int) : Int × Bool := (clampInt (-stretchMax) stretchMax s, decide (s < -stretchMax ∨ stretchMax < s))

/-- X_k computed from X_(k−1), with a pending update that applies (R229, R230, R236..R238). -/
def barNext (b : Nat) (d : Dev) : Dev :=
  let x := getBar d b
  let pq := barPitch d b
  let old := x.x + effPitch pq x.stretch
  match x.upd with
  | some u =>
    if u.next || decide (u.at_ * 4294967296 ≤ old) then
      let (s, sat) := satStretch u.stretch
      let ep := effPitch pq s
      let y := { x with x := x.x + ep + (u.offset - x.offset) * 4294967296, k := x.k + 1, ep := ep, offset := u.offset,
                        stretch := s, upd := none }
      let d1 := barShow b (setBar b (barLoadRwd d b y) d)
      if sat then wf (WPU_BAR_STAT b) WPU_BAR_STAT_STRETCH_SAT 1 d1 else d1
    else barShow b (setBar b (barLoadRwd d b { x with x := old, k := x.k + 1, ep := effPitch pq x.stretch }) d)
  | none => barShow b (setBar b (barLoadRwd d b { x with x := old, k := x.k + 1, ep := effPitch pq x.stretch }) d)

/-- A record for the acquisition unit of bar b, if its kind is selected (R242). -/
def barRecord (b kind ps : Nat) (d : Dev) : Dev :=
  let f := if kind = 0 then WPU_BAR_CFG_TS_FIRE else if kind = 1 then WPU_BAR_CFG_TS_SKIP else WPU_BAR_CFG_TS_LATE
  if rb d (WPU_BAR_CFG b) f then
    let x := getBar d b
    { d with wpu := { d.wpu with recs := d.wpu.recs ++ [⟨rf d (WPU_BAR_CFG b) WPU_BAR_CFG_ACQ, kind, b, x.k % 4294967296, ps, x.x / 4294967296⟩] } }
  else d

/-- TB time in ps, rounded down to the 125 ps step. -/
def nowPs (d : Dev) : Nat := d.tb * 8 / nsUnits * 125

/-- The smallest lead at or after the present cycle that keeps min_gap from the last fire, on the 125 ps steps of the cycle. -/
def minGap (x : Bar) : Nat := max 500000 (x.width * 1000 + 8000)

/-- A fire committed with its leading edge at `lead` ps: the pulse, the counters, the record, the next position (R232, R233,
R241). -/
def barCommit (b lead : Nat) (isLate : Bool) (d : Dev) : Dev :=
  let x := getBar d b
  let d1 := setBar b { x with lead := some lead, pulses := x.pulses ++ [(lead, lead + x.width * 1000)], lastLate := isLate } d
  let d2 := wr (WPU_BAR_FIRES b) (rd d1 (WPU_BAR_FIRES b) + 1) d1
  let d3 := wr (WPU_BAR_LAST_TS b) (BitVec.ofNat 32 (lead / 1000 % 536870912 * 8 + lead % 1000 / 125)) d2
  let d4 := { d3 with sch := { d3.sch with fires := d3.sch.fires + 1 } }
  let d5 := if isLate then barRecord b 2 lead (bump (WPU_BAR_MISS b) WPU_BAR_MISS_LATE d4) else barRecord b 0 lead d4
  barNext b d5

/-- A fire position skipped at the present instant: SKIP and k advance (R234). -/
def barSkip (b : Nat) (d : Dev) : Dev := barNext b (barRecord b 1 (nowPs d) (bump (WPU_BAR_MISS b) WPU_BAR_MISS_SKIP d))

/-- The crossing of X_k relative to the present edge, minus SKEW, in ps (R232). -/
def barTf (x : Bar) (p v : Int) : Int := Int.tdiv (max (x.x - p) (-v * 8192) * 1000) v - x.skew

/-- Skip every position that is already behind by more than 4,000 ps, but the last one when it is to be fired late. -/
def barPass : Nat → Nat → Int → Int → Dev → Dev
  | 0, _, _, _, d => d
  | n + 1, b, p, v, d =>
    let x := getBar d b
    if barTf x p v < -4000 then
      let d1 := barSkip b d
      if x.late && decide (¬ barTf (getBar d1 b) p v < -4000) then d else barPass n b p v d1
    else d

/-- One late fire for the next position, at the first instant from the present one on that keeps min_gap (R234). -/
def barLate (b : Nat) (d : Dev) : Dev :=
  let y := getBar d b
  let now := nowPs d
  let first := match y.lead with
    | some l => max now ((l + minGap y - now + 124) / 125 * 125 + now)
    | none => now
  barCommit b first true d

/-- A fire that cannot be placed at its instant (R234); `over` when it is too close to the previous fire. -/
def barBehind (b : Nat) (p v : Int) (overs : Bool) (d : Dev) : Dev :=
  let x := getBar d b
  let d0 := if overs then wf (WPU_BAR_STAT b) WPU_BAR_STAT_OVERSPEED 1 d else d
  let fuel := ((p - x.x).toNat + (v * 8192).toNat) / (max 1 (effPitch (barPitch d b) x.stretch)) + 2
  let d1 := if overs then d0 else barPass fuel b p v d0
  if x.late then barLate b d1 else if overs then barSkip b d1 else d1

/-- Is a late fire pending: committed, and its leading edge has not gone out (R234)? -/
def latePending (x : Bar) (now : Nat) : Bool :=
  x.lastLate && (match x.lead with | some l => decide (now < l) | none => false)

/-- The evaluation of bar b at the present TBCLK edge (R232, R234, R239, R240). -/
def barEval (b : Nat) (d : Dev) : Dev :=
  let c := barChan d b
  if !(fnIs d (fnBar b) .running && chanRuns d c) then d
  else
    let x := getBar d b
    let o := chanOut d c d.tb
    let p := o.1
    let v := o.2.1
    if v ≤ 0 ∨ v * 2004 < x.x - p then d
    else
      let tf := barTf x p v
      let step := ((max tf 0).toNat + 62) / 125
      if ¬ tf < -4000 ∧ 32 ≤ step then d
      else if x.stopFire && stopInForce d then barNext b d
      else if latePending x (nowPs d) then barSkip b d
      else if tf < -4000 then barBehind b p v false d
      else
        let lead := nowPs d + step * 125
        let close := match x.lead with | some l => decide (lead < l + minGap x) | none => false
        if close then barBehind b p v true d else barCommit b lead false d

/-- The end of the oldest committed pulse (R233): with the last one the stop of a STOPPING bar completes. -/
def barPulseEnd (b : Nat) (d : Dev) : Dev :=
  let x := getBar d b
  match x.pulses with
  | [] => d
  | p :: r =>
    if p.2 ≤ d.tb * 1000 / nsUnits then
      let d1 := setBar b { x with pulses := r } d
      if r.isEmpty && fnIs d1 (fnBar b) .stopping then stopDone (fnBar b) d1 else d1
    else d

/-- Bar b starts a run (R229, R241). -/
def barEnable (b : Nat) (d0 : Dev) : Dev :=
  let d := match (getBar d0 b).held with
    | some ppb => wr (WPU_BAR_STRETCH_ST b) (BitVec.ofInt 32 (satI32 ppb)) d0
    | none => d0
  let (s, sat) := satStretch (rd d (WPU_BAR_STRETCH_ST b)).toInt
  let off := rdI64 d (WPU_BAR_OFFSET_ST_LO b) (WPU_BAR_OFFSET_ST_HI b)
  let ep := effPitch (barPitch d b) s
  let p := chanPos d (barChan d b)
  let x0 := off * 4294967296
  let k := if p < x0 then 0 else ((p - x0) / (max 1 ep : Nat) + 1).toNat
  let x := barLoadRwd d b { getBar d b with x := x0 + (k : Int) * (ep : Int), k := k, ep := ep, offset := off, stretch := s, upd := none }
  let d1 := wf (WPU_BAR_STAT b) WPU_BAR_STAT_RUNS (rf d (WPU_BAR_STAT b) WPU_BAR_STAT_RUNS + 1) (barShow b (setBar b x d))
  if sat then wf (WPU_BAR_STAT b) WPU_BAR_STAT_STRETCH_SAT 1 d1 else d1

/-- DISABLE of bar b: the stop ends when the committed pulses have ended (R233). -/
def barDisable (b : Nat) (d : Dev) : Dev := if (getBar d b).pulses.isEmpty then stopDone (fnBar b) d else d

/-- An update captured for bar b (R236, R237). -/
def barApply (b : Nat) (mode : Bool) (u : Int) (d : Dev) : Dev :=
  let x := getBar d b
  let off := rdI64 d (WPU_BAR_OFFSET_ST_LO b) (WPU_BAR_OFFSET_ST_HI b)
  let s := (rd d (WPU_BAR_STRETCH_ST b)).toInt
  let next := !mode || decide (u * 4294967296 ≤ x.x)
  let d1 := barShow b (setBar b { x with upd := some ⟨next, u, off, s⟩ } d)
  if x.upd.isSome then wf (WPU_BAR_STAT b) WPU_BAR_STAT_UPD_LOST 1 d1 else d1

/-- The bars that WPU_UPD_MASK selects. -/
def maskedBars (d : Dev) : List Nat := (List.range 32).filter (fun b => bitOf (rd d WPU_UPD_MASK) b)

/-- APPLY for the masked bars (R236). -/
def wpuApply (mode : Bool) (d : Dev) : Dev :=
  forEach (maskedBars d) (fun b d => barApply b mode (rdI64 d WPU_UPD_AT_LO WPU_UPD_AT_HI) d) d

/-- CANCEL for the masked bars (R237). -/
def wpuCancel (d : Dev) : Dev :=
  forEach (maskedBars d) (fun b d => barShow b (setBar b { getBar d b with upd := none } d)) d

/-- A loop slot routed to bar b delivers a stretch: the bar holds it; of a RUNNING one STRETCH_ST is written and captured with MODE NEXT
(R237, R332). -/
def barStretch (b : Nat) (ppb : Int) (d : Dev) : Dev :=
  let d1 := setBar b { getBar d b with held := some ppb } d
  if fnIs d (fnBar b) .running then barApply b false 0 (wr (WPU_BAR_STRETCH_ST b) (BitVec.ofInt 32 (satI32 ppb)) d1) else d1

/-- Positions that are not ahead are passed without a count (R239). -/
def barPassStop : Nat → Nat → Int → Dev → Dev
  | 0, _, _, d => d
  | n + 1, b, p, d => if (getBar d b).x ≤ p then barPassStop n b p (barNext b d) else d

/-- The positions of bar b up to the channel's position p lie behind: each is skipped, but the last one where the bar fires it late
(R234). -/
def barPassTo : Nat → Nat → Int → Dev → Dev
  | 0, _, _, d => d
  | n + 1, b, p, d =>
    if (getBar d b).x ≤ p then
      let d1 := barSkip b d
      if (getBar d b).late && decide (p < (getBar d1 b).x) then d else barPassTo n b p d1
    else d

/-- The next position of bar b looked at as an event of R225 whose channel stands at p: behind with X_k ≤ p (R240). -/
def barLook (b : Nat) (d : Dev) : Dev :=
  let c := barChan d b
  if !(fnIs d (fnBar b) .running && chanRuns d c) then d
  else
    let x := getBar d b
    let p := chanPos d c
    let fuel := (p - x.x).toNat / (max 1 (effPitch (barPitch d b) x.stretch)) + 2
    if x.stopFire && stopInForce d then barPassStop fuel b p d
    else
      let d1 := barPassTo fuel b p d
      if p < (getBar d1 b).x then d1
      else if latePending (getBar d1 b) (nowPs d1) then barSkip b d1
      else barLate b d1

/-- What a jump of channel c leaves behind (R225): in forward motion as the evaluation of R232 finds it, else every X_k ≤ p. -/
def barsJumped (c : Nat) (d : Dev) : Dev :=
  forUpTo 32 (fun b d =>
    if fnIs d (fnBar b) .running && barChan d b == c then
      if (chanOut d c d.tb).2.1 ≤ 0 then barLook b d else barEval b d
    else d) d

/-- The last stop request is lifted: a bar with STOP_FIRE fires again from the next position that is ahead (R239). -/
def barsLifted (d : Dev) : Dev :=
  forUpTo 32 (fun b d =>
    let x := getBar d b
    let p := chanPos d (barChan d b)
    if fnIs d (fnBar b) .running && chanRuns d (barChan d b) && x.stopFire then
      barPassStop ((p - x.x).toNat / (max 1 x.ep) + 1) b p d
    else d) d

/-- INHIBIT and CH_DOWN of every bar (R239, R240). -/
def barFlags (d : Dev) : Dev :=
  forUpTo 32 (fun b d =>
    let run := fnIs d (fnBar b) .running
    let s := WPU_BAR_STAT b
    let inh := run && (getBar d b).stopFire && stopInForce d
    let down := run && !chanRuns d (barChan d b)
    if rb d s WPU_BAR_STAT_INHIBIT == inh && rb d s WPU_BAR_STAT_CH_DOWN == down then d
    else wb s WPU_BAR_STAT_CH_DOWN down (wb s WPU_BAR_STAT_INHIBIT inh d)) d

/-- A channel that became RUNNING: the next X_k of its RUNNING bars is checked (R240). -/
def barsBack (c : Nat) (d : Dev) : Dev :=
  forUpTo 32 (fun b d => if barChan d b == c then barLook b d else d) d

end Sys2Proof.Machine
end

