-- ==== Sys2Proof/Machine/Fbk.lean ====
section
/-! DEFINITION. Feedback interfaces and encoder emulation (spec/07). -/
namespace Sys2Proof.Machine
open Sys2Proof Sys2Proof.Reg

def setFbk (k : Nat) (x : Fbk) (d : Dev) : Dev := { d with fbk := { d.fbk with fb := smPut d.fbk.fb k x } }

def getEmu (d : Dev) (e : Nat) : Emu :=
  match smGet d.fbk.emu e with
  | some x => x
  | none => {}

def setEmu (e : Nat) (x : Emu) (d : Dev) : Dev := { d with fbk := { d.fbk with emu := smPut d.fbk.emu e x } }

/-- The function index of emulation output e (R97); interface k has index k. -/
def fnEmu (e : Nat) : Nat := 0x30 + e

def fbkMode (d : Dev) (k : Nat) : Nat := rf d (FBK_CFG k) FBK_CFG_MODE

/-- A count kept to 64 bits. -/
def wrap64 (z : Int) : Int := sext 64 (ofInt 64 z)

/-! ### Encoder emulation (R264..R266) -/

/-- A count change of interface k reaches the emulation outputs that repeat it and run (R264, R265, R267). -/
def emuInput (k : Nat) (dn : Int) (d : Dev) : Dev :=
  forUpTo 8 (fun e d =>
    if rf d (EMU_CFG e) EMU_CFG_SRC = k ∧ fnIs d (fnEmu e) .running then
      let x := getEmu d e
      let num : Int := rf d (EMU_RATIO e) EMU_RATIO_NUM
      let den : Int := rf d (EMU_RATIO e) EMU_RATIO_DEN
      let a := x.acc + dn * num
      let q := Int.tdiv a den
      let y := { x with acc := a - q * den, backlog := x.backlog + q }
      let d1 := setEmu e y d
      if 32767 < y.backlog.natAbs then detectFault (fnEmu e) 3 d1 else d1
    else d) d

/-- MIN in ns: 4 × MIN, with MIN at least 5. -/
def emuGap (d : Dev) (e : Nat) : Nat :=
  let m := rf d (EMU_CFG e) EMU_CFG_MIN
  4 * (if m < 5 then 5 else m)

/-- The TB ns of the next step slot of output e. -/
def emuDue (d : Dev) (e : Nat) : Nat :=
  match (getEmu d e).last with
  | some t => max (tbNs d) (t + emuGap d e)
  | none => tbNs d

/-- One step slot of output e at the present instant: a step toward the sign of the backlog, and Z of Z_MODE 1 (R265, R266). -/
def emuStep (e : Nat) (d : Dev) : Dev :=
  let x := getEmu d e
  let ns := tbNs d
  if !(fnActive d (fnEmu e)) || (match x.last with | some t => decide (ns < t + emuGap d e) | none => false) then d
  else
    let z := if x.zWait then { x with zWait := false, zUntil := ns + emuGap d e } else x
    if x.backlog = 0 then setEmu e z d
    else
      let s : Int := if x.backlog < 0 then -1 else 1
      let inv := rb d (EMU_CFG e) EMU_CFG_INVERT
      let ab := if (s < 0) != inv then (x.ab + 3) % 4 else (x.ab + 1) % 4
      let y := { z with backlog := x.backlog - s, out := x.out + s, ab := ab, last := some ns }
      let d1 := setEmu e y d
      if y.backlog = 0 ∧ fnIs d1 (fnEmu e) .stopping then stopDone (fnEmu e) d1 else d1

/-- The level of the Z output of emulation e at the present instant (R266). -/
def emuZ (d : Dev) (e : Nat) : Bool :=
  let x := getEmu d e
  fnActive d (fnEmu e) &&
  match rf d (EMU_CFG e) EMU_CFG_Z_MODE with
  | 1 => decide (tbNs d < x.zUntil)
  | 2 => decide (x.out % (rf d (EMU_ZPER e) EMU_ZPER_ZPER : Int) = 0)
  | _ => false

/-- ENABLE of output e finds its source OFF or FAULTED (R268). -/
def emuEnableFault (d : Dev) (e : Nat) : Option Nat :=
  let k := rf d (EMU_CFG e) EMU_CFG_SRC
  if fnIs d k .off || fnIs d k .faulted then some 2 else none

def emuEnable (e : Nat) (d : Dev) : Dev := setEmu e { getEmu d e with acc := 0, backlog := 0, out := 0 } d

def emuDisable (e : Nat) (d : Dev) : Dev := if (getEmu d e).backlog = 0 then stopDone (fnEmu e) d else d

/-- FAULTED: the backlog is dropped, Z is low (R267). -/
def emuFault (e : Nat) (d : Dev) : Dev := setEmu e { getEmu d e with backlog := 0, zWait := false, zUntil := 0 } d

/-- Interface k entered FAULTED: the outputs that repeat it and run fault with SOURCE (R268). -/
def emuSourceFault (k : Nat) (d : Dev) : Dev :=
  forUpTo 8 (fun e d =>
    if rf d (EMU_CFG e) EMU_CFG_SRC = k ∧ fnActive d (fnEmu e) then detectFault (fnEmu e) 2 d else d) d

/-! ### Counting (R248..R252) -/

/-- The place of (A, B) in the forward sequence 00, 10, 11, 01. -/
def quadIdx (ab : Nat) : Nat := match ab with | 0 => 0 | 2 => 1 | 3 => 2 | _ => 3

/-- Does DECODE count the transition between places j and j + 1 of the sequence (R248)? -/
def quadCounts (decode j : Nat) : Bool := match decode with | 1 => j % 2 == 0 | 2 => j == 0 | _ => true

/-- The sector of a Hall code (U, V, W) (R252). -/
def hallSector (uvw : Nat) : Nat :=
  match uvw with | 4 => 0 | 6 => 1 | 2 => 2 | 3 => 3 | 1 => 4 | 5 => 5 | _ => 7

/-- One counted edge of interface k with its own timestamp: the count, the speed events, the users (R212, R246, R263, R264). -/
def countEdge (k ts : Nat) (dn : Int) (d : Dev) : Dev :=
  if dn = 0 then d
  else
    let x := rawFbk d k
    let back := decide (dn < 0)
    let absorbed := match x.absorb with
      | some (t, _) => decide (t ≤ ts * nsUnits ∧ ts * nsUnits < t + effAddend d)
      | none => false
    -- an edge that a SET_COUNT absorbs changes the count no more, but enters the speed and the emulation (R255, R263, R264)
    let cnt := if absorbed then x.cnt else wrap64 (x.cnt + dn)
    let web (d : Dev) : Dev := if absorbed then d else wpuEdge k ts dn d
    if !tbRuns d then emuInput k dn (web (setFbk k { x with cnt := cnt, rev := back, edgeSeen := true } d))
    else
      let n := x.travel + dn
      let evs := if x.edgeSeen && back != x.rev then [(ts, n)] else
        match x.evs with
        | (t0, c0) :: r => if t0 = ts then (ts, n) :: r else (ts, n) :: (t0, c0) :: r
        | [] => [(ts, n)]
      let y := { x with cnt := cnt, travel := n, evs := evs, rev := back, edgeSeen := true, tLast := some ts }
      emuInput k dn (web (wf (FBK_STAT k) FBK_STAT_STILL 0 (setFbk k y d)))

/-- A held edge is dropped: DITHER counts (R249, R250). -/
def dropHeld (k : Nat) (d : Dev) : Dev :=
  let x := rawFbk d k
  match x.held with
  | none => d
  | some _ => wf (FBK_STAT k) FBK_STAT_HOLD 0 (bump (FBK_ERR k) FBK_ERR_DITHER (setFbk k { x with held := none } d))

/-- A transition error: QERR_CNT, the window of R251. -/
def transErr (k : Nat) (d : Dev) : Dev :=
  let x := rawFbk d k
  let w := tickNum d / 16
  let n := if x.errWin = w then x.errs + 1 else 1
  let d1 := bump (FBK_ERR k) FBK_ERR_QERR_CNT (setFbk k { x with errWin := w, errs := n } d)
  let m := rf d (FBK_CFG k) FBK_CFG_ERR_LIMIT
  if 0 < m ∧ m ≤ n then detectFault k 2 d1 else d1

/-- A decoded transition with its count (0 when DECODE does not count it) and its direction of motion, under HYST (R250). `old`
is the decoder state before it, `new` the one after it. -/
def decoded (k ts old new : Nat) (dn : Int) (d : Dev) : Dev :=
  let x := rawFbk d k
  let set (c : Nat) (d : Dev) : Dev := setFbk k { rawFbk d k with lines := new, counted := c } d
  match x.held with
  | some (hts, hdn, hOld) =>
    if new = hOld then dropHeld k (set new d)
    else
      let d1 := wf (FBK_STAT k) FBK_STAT_HOLD 0 (setFbk k { x with held := none } d)
      set new (countEdge k ts dn (countEdge k hts hdn d1))
  | none =>
    if rb d (FBK_CFG k) FBK_CFG_HYST && x.edgeSeen && decide (dn ≠ 0) && decide (dn < 0) != x.rev then
      wf (FBK_STAT k) FBK_STAT_HOLD 1 (setFbk k { x with held := some (ts, dn, old), lines := new } d)
    else set new (countEdge k ts dn d)

/-- A filtered change of A and B of interface k at TB ns `ts` (R248, R249). -/
def quadEdge (k ts ab : Nat) (d : Dev) : Dev :=
  let x := rawFbk d k
  let i := quadIdx x.lines
  let j := quadIdx ab
  let dec := rf d (FBK_CFG k) FBK_CFG_DECODE
  let inv := rb d (FBK_CFG k) FBK_CFG_INVERT
  let sgn (n : Int) : Int := if inv then -n else n
  if j = i then d
  else if j = (i + 1) % 4 then decoded k ts x.lines ab (if quadCounts dec i then sgn 1 else 0) d
  else if i = (j + 1) % 4 then decoded k ts x.lines ab (if quadCounts dec j then sgn (-1) else 0) d
  else
    let d1 := transErr k (wf (FBK_STAT k) FBK_STAT_QERR 1 (dropHeld k d))
    let d2 := setFbk k { rawFbk d1 k with lines := ab, counted := ab } d1
    if rb d (FBK_CFG k) FBK_CFG_QERR_MODE then
      let fwd := x.rev == inv
      let m := (i + 1) % 4
      let p := (i + 3) % 4
      let n : Int := if fwd then b2n (quadCounts dec i) + b2n (quadCounts dec m) else b2n (quadCounts dec p) + b2n (quadCounts dec ((i + 2) % 4))
      countEdge k ts (if x.rev then -n else n) d2
    else d2

/-- A change of the Hall code of interface k (R252). -/
def hallEdge (k ts uvw : Nat) (d : Dev) : Dev :=
  let x := rawFbk d k
  let i := hallSector x.lines
  let j := hallSector uvw
  let inv := rb d (FBK_CFG k) FBK_CFG_INVERT
  let sgn (n : Int) : Int := if inv then -n else n
  let err (d : Dev) : Dev :=
    let d1 := transErr k (wf (FBK_STAT k) FBK_STAT_HALL_ERR 1 (dropHeld k d))
    setFbk k { rawFbk d1 k with lines := uvw, counted := uvw } d1
  if x.lines = uvw then d
  else if j = 7 then err d
  else if i = 7 then setFbk k { x with lines := uvw, counted := uvw } d
  else if j = (i + 1) % 6 then decoded k ts x.lines uvw (sgn 1) d
  else if i = (j + 1) % 6 then decoded k ts x.lines uvw (sgn (-1)) d
  else err d

/-! ### Index and home (R253..R257) -/

/-- The count of interface k loaded with HOME_VAL. -/
def loadHome (k : Nat) (d : Dev) : Dev :=
  let x := rawFbk d k
  let v := rdI64 d (FBK_HOME_VAL_LO k) (FBK_HOME_VAL_HI k)
  wpuLoad k (v - x.cnt) (wf (FBK_STAT k) FBK_STAT_HOMED 1 (setFbk k { x with cnt := v } d))

/-- A qualified index at TB ns `ts`: the capture and the action of IDX_MODE (R254, R257). -/
def indexAct (k ts : Nat) (d : Dev) : Dev :=
  let mode := rf d (FBK_IDX_CFG k) FBK_IDX_CFG_IDX_MODE
  if mode = 0 ∨ mode = 3 then d
  else
    let x := rawFbk d k
    let period := match x.absorb with
      | some (t, before) => if t ≤ ts * nsUnits ∧ ts * nsUnits < t + effAddend d then some before else none
      | none => none
    let pos := match period with | some b => b | none => x.cnt
    let s := FBK_STAT k
    let d1 := if rb d s FBK_STAT_IDX_NEW then wf s FBK_STAT_IDX_OVR 1 d else d
    let d2 := wf s FBK_STAT_IDX_NEW 1 (wr64 (FBK_IDX_TS_LO k) (FBK_IDX_TS_HI k) (if tbRuns d then ts else 0)
      (wrI64 (FBK_IDX_POS_LO k) (FBK_IDX_POS_HI k) pos d1))
    let d3 := if rb d (FBK_IDX_CFG k) FBK_IDX_CFG_IDX_OPERAND then postOperand (0x800 + k) (BitVec.ofInt 32 pos) d2 else d2
    let d4 := forUpTo 8 (fun e d =>
      if rf d (EMU_CFG e) EMU_CFG_SRC = k ∧ rf d (EMU_CFG e) EMU_CFG_Z_MODE = 1 ∧ fnActive d (fnEmu e) then
        setEmu e { getEmu d e with zWait := true } d else d) d3
    if mode = 1 then
      if rb d4 s FBK_STAT_HOME_ARMED && (!x.rev || rb d4 (FBK_IDX_CFG k) FBK_IDX_CFG_HOME_DIR) then
        let d5 := wf s FBK_STAT_HOMED 1 (wf s FBK_STAT_HOME_ARMED 0 d4)
        if period.isSome then d5 else loadHome k d5
      else d4
    else if period.isSome then wf s FBK_STAT_HOMED 1 d4 else loadHome k d4

/-- The condition of R253. -/
def indexCond (d : Dev) (k : Nat) : Bool :=
  let x := rawFbk d k
  let c := FBK_IDX_CFG k
  decide (fbkMode d k = 0) && (x.z != rb d c FBK_IDX_CFG_IDX_POL) &&
  (!rb d c FBK_IDX_CFG_GATE_EN || x.counted == rf d c FBK_IDX_CFG_GATE_A * 2 + rf d c FBK_IDX_CFG_GATE_B)

/-- The condition looked at after a sample: an index is qualified when it becomes true. -/
def indexLook (k ts : Nat) (d : Dev) : Dev :=
  let q := indexCond d k
  let x := rawFbk d k
  if q == x.qual then d
  else
    let d1 := setFbk k { x with qual := q } d
    if q then indexAct k ts d1 else d1

/-- Does interface k sample its lines: from the moment at which its unit is ready (R94)? -/
def fbkSamples (d : Dev) (k : Nat) : Bool := decide (k < 48) && rb d SYS_READY SYS_READY_FBK

/-- A sample with a new level of A and B. -/
def fbkQuad (k ts ab : Nat) (d : Dev) : Dev :=
  if fbkSamples d k && decide (fbkMode d k < 2) then indexLook k ts (quadEdge k ts ab d) else d

/-- A sample with a new Hall code. -/
def fbkHall (k ts uvw : Nat) (d : Dev) : Dev :=
  if fbkSamples d k && decide (fbkMode d k = 2) then hallEdge k ts uvw d else d

/-- A sample with a new level of Z. -/
def fbkZ (k ts : Nat) (z : Bool) (d : Dev) : Dev :=
  if fbkSamples d k then indexLook k ts (setFbk k { rawFbk d k with z := z } d) else d

/-- FBK_CMD (R255, R256). -/
def fbkCmd (k cmd : Nat) (d : Dev) : Dev :=
  let s := FBK_STAT k
  let rej := wf s FBK_STAT_CMD_REJ 1
  if cmd = 1 then
    let mode := rf d (FBK_IDX_CFG k) FBK_IDX_CFG_IDX_MODE
    if mode ≠ 1 ∨ fbkIsMaster d k then rej d else wf s FBK_STAT_HOMED 0 (wf s FBK_STAT_HOME_ARMED 1 d)
  else if cmd = 2 then wf s FBK_STAT_HOME_ARMED 0 d
  else if cmd = 3 then
    if fbkIsMaster d k then rej d
    else loadHome k (setFbk k { rawFbk d k with absorb := some (d.tb, (rawFbk d k).cnt) } d)
  else d

/-! ### SSI (R258..R261) -/

/-- T of R258 in ns, and N. -/
def ssiT (d : Dev) (k : Nat) : Nat := 4 * (rf d (FBK_SSI_CFG k) FBK_SSI_CFG_CLKDIV + 1)
def ssiN (d : Dev) (k : Nat) : Nat := rf d (FBK_SSI_CFG k) FBK_SSI_CFG_BITS + rf d (FBK_SSI_CFG k) FBK_SSI_CFG_EXTRA

/-- The time from the frame start to the end check. -/
def ssiLen (d : Dev) (k : Nat) : Nat := ssiT d k / 2 + ssiN d k * ssiT d k + rf d (FBK_SSI_TIM k) FBK_SSI_TIM_DELAY

/-- The TB time of the next frame start: the first n × P − 64 × LEAD ns at or after the present with n mod 2^RATE = 0. -/
def ssiStartDue (d : Dev) (k : Nat) : Nat :=
  let lead := 64 * rf d (FBK_SSI_TIM k) FBK_SSI_TIM_LEAD * nsUnits
  let step := tickP d * 2 ^ rf d (FBK_SSI_CFG k) FBK_SSI_CFG_RATE
  (d.tb + lead + step - 1) / step * step - lead

/-- A frame starts at TB time `t` (R258, R259): DATA is sampled before it. -/
def ssiStart (k t : Nat) (dataHigh : Bool) (d : Dev) : Dev :=
  let run := match (getFn d k).state with | .running | .faulted => true | _ => false
  let x := rawFbk d k
  if decide (fbkMode d k = 3) && run && !x.busy then
    setFbk k { x with busy := true, t0 := t, startFail := !dataHigh } d
  else d

/-- Gray to binary (R260). -/
def ungray (g : Nat) : Nat :=
  let b := g ^^^ (g >>> 1)
  let b := b ^^^ (b >>> 2)
  let b := b ^^^ (b >>> 4)
  let b := b ^^^ (b >>> 8)
  let b := b ^^^ (b >>> 16)
  b ^^^ (b >>> 32)

/-- The number of ones among the low `n` bits. -/
def onesOf : Nat → Nat → Nat
  | 0, _ => 0
  | n + 1, g => g % 2 + onesOf n (g / 2)

/-- Does the last extra bit carry the parity over the position bits? -/
def parityOk (d : Dev) (k g ext : Nat) : Bool :=
  let p := rf d (FBK_SSI_CFG k) FBK_SSI_CFG_PARITY
  let ones := onesOf 48 g + ext % 2
  match p with | 1 => ones % 2 == 0 | 2 => ones % 2 == 1 | _ => true

/-- A valid frame decoded (R260): the count, the frame list of R263, the emulation outputs. -/
def ssiDecode (k g : Nat) (d : Dev) : Dev :=
  let x := rawFbk d k
  let bits := rf d (FBK_SSI_CFG k) FBK_SSI_CFG_BITS
  let inv := rb d (FBK_CFG k) FBK_CFG_INVERT
  let b := if rb d (FBK_SSI_CFG k) FBK_SSI_CFG_GRAY then ungray g else g
  let fmt := rf d (FBK_SSI_CFG k) FBK_SSI_CFG_FORMAT
  let sgn (n : Int) : Int := if inv then -n else n
  let diff := sgn (sext bits (ofInt bits ((b : Int) - x.bLast)))
  let v : Int := if fmt = 2 then (if x.first then sgn b else x.cnt + diff) else if fmt = 1 then sgn (sext bits b) else sgn b
  -- the change of the decoded value enters the speed and the emulation outputs
  let ch : Int := if x.first then 0 else if fmt = 2 then diff else v - x.lastVal
  let sum := match x.frames with | (_, s) :: _ => s + ch | [] => 0
  let frames := ((x.t0, sum) :: x.frames).take 17
  let y := { x with cnt := wrap64 v, bLast := b, first := false, frames := frames, lastVal := v, fails := 0, lastOk := true,
                    rev := if ch = 0 then x.rev else decide (ch < 0) }
  let d1 := wf (FBK_STAT k) FBK_STAT_SSI_VALID 1 (wr64 (FBK_SSI_TS_LO k) (FBK_SSI_TS_HI k) (x.t0 / nsUnits) (setFbk k y d))
  if x.first then d1 else emuInput k ch d1

/-- A frame ends with its position bits, extra bits and the level at the end check (R260, R261). -/
def ssiEnd (k g ext : Nat) (endHigh : Bool) (d : Dev) : Dev :=
  let x := rawFbk d k
  if !x.busy then d
  else
    let bits := rf d (FBK_SSI_CFG k) FBK_SSI_CFG_BITS
    let g := g % 2 ^ bits
    let ext := ext % 2 ^ rf d (FBK_SSI_CFG k) FBK_SSI_CFG_EXTRA
    let kind := if x.startFail then 1 else if !parityOk d k g ext then 2 else if endHigh then 3 else 0
    let d1 := wr (FBK_SSI_RAW_HI k) (BitVec.ofNat 32 (kind * 16777216 + ext * 65536 + g / 4294967296))
      (wr (FBK_SSI_RAW_LO k) (BitVec.ofNat 32 g) (setFbk k { x with busy := false } d))
    let d2 :=
      if kind = 0 then ssiDecode k g d1
      else
        let y := rawFbk d1 k
        let n := y.fails + 1
        let d2 := wf (FBK_STAT k) FBK_STAT_SSI_VALID 0 (wf (FBK_STAT k) FBK_STAT_SSI_ERR 1
          (bump (FBK_ERR k) FBK_ERR_SSI_CNT (setFbk k { y with fails := n, lastOk := false } d1)))
        let m := rf d (FBK_CFG k) FBK_CFG_ERR_LIMIT
        if 0 < m ∧ m ≤ n then detectFault k 4 d2 else d2
    if fnIs d2 k .stopping then stopDone k d2 else d2

/-! ### SAMPLE (R262, R263) -/

/-- STILL_NS in ns. -/
def fbkStillNs (d : Dev) (k : Nat) : Nat := 1000000 * 2 ^ satNat 10 (rf d (FBK_CFG k) FBK_CFG_STILL)

/-- The last event of a list, newest first. -/
def oldestOf (e : Nat × Int) : List (Nat × Int) → Nat × Int
  | [] => e
  | x :: r => oldestOf x r

/-- The exact speed at TB time `tb` as a quotient, and STILL, for quadrature and Hall modes (R263). -/
def quadSpeed (d : Dev) (k tb : Nat) (x : Fbk) : Int × Nat × Bool :=
  let w := tickP d * 2 ^ satNat 4 (rf d (FBK_CFG k) FBK_CFG_SPD_WIN)
  let evs := x.evs.filter (fun e => decide (e.1 * nsUnits ≤ tb ∧ tb < e.1 * nsUnits + w))
  -- half nanoseconds since the last counted edge
  let h := (tb - x.tLast.getD 0 * nsUnits) * 2 / nsUnits
  match evs with
  | l :: m :: r =>
    let f := oldestOf m r
    ((l.2 - f.2) * 1000000000, l.1 - f.1, false)
  | _ =>
    if x.tLast.isSome && decide (h < 2 * fbkStillNs d k) then
      -- |v_prev| against 10^9 / (t_s − t_last)
      let pn := x.vNum.natAbs
      let (n, q) := if h = 0 ∨ pn * h ≤ 2000000000 * x.vDen then (pn, x.vDen) else (2000000000, h)
      (if x.rev then -(n : Int) else n, q, false)
    else (0, 1, true)

/-- The exact speed of an SSI interface (R263). -/
def ssiSpeed (d : Dev) (k : Nat) (x : Fbk) : Int × Nat :=
  let m := min (2 ^ satNat 4 (rf d (FBK_CFG k) FBK_CFG_SPD_WIN)) (x.frames.length - 1)
  match x.frames with
  | (t1, s1) :: r =>
    match r[m - 1]? with
    | some (t0, s0) => if m = 0 ∨ t1 ≤ t0 then (0, 1) else ((s1 - s0) * 1000000000 * nsUnits, t1 - t0)
    | none => (0, 1)
  | [] => (0, 1)

/-- The fraction of POS in units of 2^-32 count (R262). -/
def posFrac (d : Dev) (k tb : Nat) (x : Fbk) (num : Int) (den : Nat) : Int :=
  if !rb d (FBK_CFG k) FBK_CFG_INTERP then 0
  else if fbkMode d k = 3 then
    match x.frames with
    | (t0, _) :: _ => Int.tdiv (num * ((tb : Int) - t0) * 4294967296) (den * 1000000000 * nsUnits : Nat)
    | [] => 0
  else
    let h := (tb - x.tLast.getD 0 * nsUnits) * 2 / nsUnits
    let f : Int := min (num.natAbs * h * 4294967296 / (den * 2000000000)) 4294967295
    if x.rev then -f else f

/-- The SAMPLE latch of interface k at TB time `tb` = n × P; POS and SPEED hold in FAULTED (R262, R263, R267). -/
def fbkSample1 (tb k : Nat) (d : Dev) : Dev :=
  let x := rawFbk d k
  if !fbkSamples d k then d
  else
    let ssi := fbkMode d k == 3
    let (num, den, still) := if ssi then (let (a, b) := ssiSpeed d k x; (a, b, a == 0)) else quadSpeed d k tb x
    let pos := (x.cnt * 4294967296 + posFrac d k tb x num den)
    let hold := fnIs d k .faulted
    let d1 := if hold then d else
      wr (FBK_SPEED k) (fOfRat num (if den = 0 then 1 else den)) (wrI64 (FBK_POS_LO k) (FBK_POS_HI k) pos d)
    let s := FBK_STAT k
    let sec := if fbkMode d k = 2 then hallSector x.lines else 7
    let d2 := wf s FBK_STAT_SECTOR sec (wb s FBK_STAT_DIR x.rev (if ssi then d1 else wb s FBK_STAT_STILL still d1))
    let w := tickP d * 32
    let y := { x with vNum := num, vDen := if den = 0 then 1 else den,
                      evs := x.evs.filter (fun e => decide (tb < e.1 * nsUnits + w)) }
    if x = y then d2 else setFbk k y d2

def fbkSample (tb : Nat) (d : Dev) : Dev := forUpTo 48 (fbkSample1 tb) d

/-! ### Function states (R267, R268) -/

/-- ENABLE of an interface: SSI frames count anew. -/
def fbkEnable (k : Nat) (d : Dev) : Dev :=
  if fbkMode d k = 3 then setFbk k { rawFbk d k with first := true, frames := [], fails := 0 } d else d

/-- DISABLE: the frame in progress ends, then the stop completes. -/
def fbkDisable (k : Nat) (d : Dev) : Dev := if (rawFbk d k).busy then d else stopDone k d

/-- Is the cause of a fault of interface k still there? -/
def fbkCause (d : Dev) (k code : Nat) : Bool :=
  let x := rawFbk d k
  if code = 2 then x.errWin == tickNum d / 16 && decide (0 < x.errs)
  else if code = 4 then !x.lastOk else false

/-- Is the cause of a fault of output e still there? -/
def emuCause (d : Dev) (e code : Nat) : Bool := code == 2 && (emuEnableFault d e).isSome

end Sys2Proof.Machine
end

