-- ==== Sys2Proof/Machine/Mpg.lean ====
section
/-! DEFINITION. Motion profile generators (spec/08): positions in 2^-32 count, distances and velocities of one tick in 2^-40
count. The steps of the step output go to the stepper channels (StpPwm.lean). -/
namespace Sys2Proof.Machine
open Sys2Proof Sys2Proof.Reg

def getMpg (d : Dev) (m : Nat) : Mpg :=
  match smGet d.mpg.gens m with
  | some x => x
  | none => {}

def setMpg (m : Nat) (x : Mpg) (d : Dev) : Dev := { d with mpg := { d.mpg with gens := smPut d.mpg.gens m x } }

/-- The function index of generator m (R97). -/
def fnMpg (m : Nat) : Nat := 0x40 + m
def fnStp (j : Nat) : Nat := 0x80 + j

def mpgMode (d : Dev) (m : Nat) : Nat := cf d (MPG_CFG m) MPG_CFG_MODE
def mpgOut (d : Dev) (m : Nat) : Nat := rf d (MPG_CFG m) MPG_CFG_OUT
def mpgMaster (d : Dev) (m : Nat) : Nat := rf d (MPG_CFG m) MPG_CFG_MASTER

/-- A velocity in 32.32 counts/s in tick units (R275). -/
def velTick (d : Dev) (v : Nat) : Int := divNear (v * 256) (ticksPerSecond d)

/-- An acceleration in 32.32 counts/s² in tick units (R275). -/
def accTick (d : Dev) (a : Nat) : Int := divNear (a * 256) (ticksPerSecond d * ticksPerSecond d)

/-- A signed velocity in tick units. -/
def velTickI (d : Dev) (v : Int) : Int := if v < 0 then -velTick d v.natAbs else velTick d v.natAbs

/-- The ramp parameters in force, in tick units. -/
structure Ramp where
  vs : Int
  v1 : Int
  vm : Int
  ve : Int
  a1 : Int
  am : Int
  dm : Int
  d1 : Int
  qd : Int
  deriving DecidableEq, Repr, Inhabited

def rampOf (d : Dev) (m : Nat) : Ramp where
  vs := velTick d (cur64 d (MPG_VSTART_LO m) (MPG_VSTART_HI m))
  v1 := velTick d (cur64 d (MPG_V1_LO m) (MPG_V1_HI m))
  vm := velTick d (cur64 d (MPG_VMAX_LO m) (MPG_VMAX_HI m))
  ve := velTick d (cur64 d (MPG_VSTOP_LO m) (MPG_VSTOP_HI m))
  a1 := accTick d (cur64 d (MPG_A1_LO m) (MPG_A1_HI m))
  am := accTick d (cur64 d (MPG_AMAX_LO m) (MPG_AMAX_HI m))
  dm := accTick d (cur64 d (MPG_DMAX_LO m) (MPG_DMAX_HI m))
  d1 := accTick d (cur64 d (MPG_D1_LO m) (MPG_D1_HI m))
  qd := accTick d (cur64 d (MPG_QDEC_LO m) (MPG_QDEC_HI m))

/-- The accelerating and the braking rate at speed u (R276). -/
def accRate (r : Ramp) (u : Int) : Int := if r.v1 ≠ 0 ∧ u < r.v1 then r.a1 else r.am
def decRate (r : Ramp) (u : Int) : Int := if r.v1 ≠ 0 ∧ u ≤ r.v1 then r.d1 else r.dm

/-- The braking distance B(u) as a quotient (R276); a rate of 0 tick units makes it greater than any distance (DEDUCED, log entry 43). -/
def brake (r : Ramp) (u : Int) : Int × Int :=
  if u ≤ r.ve then (0, 1)
  else if r.v1 = 0 ∨ u ≤ r.v1 then (u * u - r.ve * r.ve, 2 * (if r.v1 = 0 then r.dm else r.d1))
  else ((u * u - r.v1 * r.v1) * r.d1 + (r.v1 * r.v1 - r.ve * r.ve) * r.dm, 2 * r.dm * r.d1)

/-- x/2 ≥ B(u) and B(u) ≤ y, on exact quantities. -/
def halfGeBrake (r : Ramp) (x u : Int) : Bool := let (n, q) := brake r u; decide (2 * n ≤ x * q ∧ (n = 0 ∨ q ≠ 0))
def brakeLe (r : Ramp) (u y : Int) : Bool := let (n, q) := brake r u; decide (n ≤ y * q ∧ (n = 0 ∨ q ≠ 0))

/-- The travel of a tick with mean speed (a + b)/2, in 2^-32 count. -/
def travel (a b : Int) : Int := (a + b) / 512

/-- sgn. -/
def sgnI (x : Int) : Int := if x < 0 then -1 else if 0 < x then 1 else 0

/-- One COMPUTE in MOVE (R277): the new state, and the latch and overshoot it leaves. -/
def moveStep (r : Ramp) (t : Int) (x : Mpg) : MpgNext × Bool × Bool :=
  let rem := (t - x.p) * 256
  let s := sgnI rem
  let dd := sgnI x.v
  let u0 : Int := x.v.natAbs
  if u0 ≠ 0 ∧ (s ≠ dd ∨ x.overshoot) then
    if u0 ≤ r.ve then ({ p := x.p, v := 0, reversed := decide (s ≠ 0 ∧ s ≠ dd) }, x.latch, false)
    else
      let un := max (u0 - decRate r u0) r.ve
      ({ p := x.p + dd * travel u0 un, v := dd * un, phase := 6 }, x.latch, x.overshoot)
  else if rem = 0 then ({ p := x.p, v := 0 }, x.latch, x.overshoot)
  else
    let u := if u0 = 0 then r.vs else u0
    let up := if r.vm < u then max (u - r.dm) r.vm else min (u + accRate r u) r.vm
    let rr : Int := rem.natAbs
    let (un, latch, ovr) : Int × Bool × Bool :=
      if !x.latch && halfGeBrake r (2 * rr - (u + up)) up then (up, false, false)
      else if x.latch && halfGeBrake r (2 * (rr - u)) u then (u, true, false)
      else if brakeLe r u rr then (max (u - decRate r u) r.ve, true, false)
      else (max (u - (u * u - r.ve * r.ve + 2 * rr - 1) / (2 * rr)) r.ve, true, true)
    if 2 * rr ≤ u + un then ({ p := t, v := 0, done := true, decOvr := ovr }, false, x.overshoot)
    else
      let ph := if latch then (if r.ve < un then 3 else 4) else if u < un then 1 else if un < u then 3 else 2
      ({ p := x.p + s * travel u un, v := s * un, phase := ph, decOvr := ovr }, latch, x.overshoot)

/-- One COMPUTE of the JOG rule with target velocity j and a braking rate as a function of speed (R279, R287). -/
def jogStep (r : Ramp) (dec : Int → Int) (j : Int) (x : Mpg) : MpgNext :=
  let u : Int := x.v.natAbs
  let s := sgnI x.v
  let ja : Int := j.natAbs
  if x.v = 0 then
    if j = 0 then { p := x.p, v := 0 }
    else
      let un := min r.vs ja
      { p := x.p + sgnI j * travel 0 un, v := sgnI j * un, phase := if un = 0 then 0 else 1 }
  else if j = 0 ∨ sgnI j ≠ s then
    if u ≤ r.ve then { p := x.p, v := 0, reversed := decide (j ≠ 0) }
    else
      let un := max (u - dec u) r.ve
      { p := x.p + s * travel u un, v := s * un, phase := 6 }
  else
    let un := if u < ja then min (u + accRate r u) ja else if ja < u then max (u - dec u) ja else u
    { p := x.p + s * travel u un, v := s * un, phase := if u < un then 1 else if un < u then 3 else 2 }

/-- The limiter of GEAR and STREAM (R284). -/
def limitStep (r : Ramp) (raw vr : Int) (x : Mpg) : MpgNext :=
  let e := (raw - x.p) * 256
  let need := 2 * e - x.v
  let within (a b : Int) : Bool := decide ((a.natAbs : Int) ≤ b)
  if within vr r.vm && within need r.vm && within (need - x.v) r.am && within (need - vr) r.am then
    { p := raw, v := need, phase := 5 }
  else
    let l := e - vr
    let vdes := clampInt (-r.vm) r.vm (vr + sgnI l * isqrt (2 * r.dm * l.natAbs).toNat)
    let a := if 0 ≤ vdes * x.v ∧ x.v.natAbs < vdes.natAbs then r.am else r.dm
    let vn := x.v + clampInt (-a) a (vdes - x.v)
    let pn := x.p + travel x.v vn
    { p := pn, v := vn, phase := 5, lag := raw - pn, limited := true, limTick := true }

/-- x and vr of R281 from the latched values of the master: 2^-32 nm at (n + 2) × P, and r for given anchors. -/
def gearX (d : Dev) (m : Nat) : Int :=
  let c := mpgMaster d m
  let x := getChan d c
  let p2 : Int := (2 * tickP d / nsUnits : Nat)
  Int.tdiv ((x.pos / 4294967296 * 4294967296 + x.vel * p2) * 2000000000 + x.acc * p2 * p2) 2000000000

def gearNum (d : Dev) (m : Nat) : Int := (cur d (MPG_GEAR_NUM m)).toInt
def gearDen (d : Dev) (m : Nat) : Int := max 1 (cur d (MPG_GEAR_DEN m)).toNat

def gearR (d : Dev) (m : Nat) (x : Int) (a : Anchor) : Int :=
  Int.tdiv (a.a * gearDen d m + (x - a.m) * gearNum d m) (gearDen d m)

def gearVr (d : Dev) (m : Nat) : Int :=
  let c := getChan d (mpgMaster d m)
  let p2 : Int := (2 * tickP d / nsUnits : Nat)
  Int.tdiv ((c.vel * 1000000000 + c.acc * p2) * p2 * gearNum d m * 128) (1000000000 * gearDen d m)

/-- The anchors that one COMPUTE in GEAR finds: engaged now, or moved by a jump of the master (R282). -/
def gearAnchor (d : Dev) (m : Nat) (x : Mpg) : Anchor :=
  match x.anchor with
  | some a => { a with m := a.m + (getChan d (mpgMaster d m)).jumpIn }
  | none => ⟨gearX d m, x.p, false⟩

/-- One COMPUTE in GEAR (R281, R282): the new state and the anchors; under velocity lock a limited tick before the first locked one moves
ANCHOR_A. -/
def gearStep (d : Dev) (m : Nat) (r : Ramp) (x : Mpg) : MpgNext × Anchor :=
  let a0 := gearAnchor d m x
  let raw := gearR d m (gearX d m) a0
  let n := limitStep r raw (gearVr d m) x
  if !n.limited then (n, { a0 with locked := true })
  else if a0.locked || cb d (MPG_CFG m) MPG_CFG_GEAR_SYNC then (n, a0)
  else (n, { a0 with a := a0.a + (n.p - raw) })

/-- One COMPUTE in STREAM (R283). -/
def streamStep (d : Dev) (m : Nat) (r : Ramp) (x : Mpg) : MpgNext :=
  if x.sSeen then
    let v := curI64 d (MPG_STREAM_VEL_LO m) (MPG_STREAM_VEL_HI m)
    let raw := curI64 d (MPG_STREAM_POS_LO m) (MPG_STREAM_POS_HI m) + Int.tdiv (v * x.sAge) (ticksPerSecond d)
    limitStep r raw (velTickI d v) x
  else limitStep r x.p 0 x

/-- The braking rate of a stop ramp (R287): the highest among the stops that stand, a DISABLE, HALT, fault reaction or request of KIND
STOP giving dec_rate and one of KIND QUICK QDEC. -/
def stopDec (d : Dev) (m : Nat) (r : Ramp) (x : Mpg) (u : Int) : Int :=
  let byReq := mpgMode d m ≠ 2 && stopInForce d && (x.byStop || fnIs d (fnMpg m) .running)
  let quick := byReq && (d.cel.stops.any (fun s => s.kind == 2) || (match d.cel.ovf with | some (k, _) => k == 2 | none => false))
  let plain := byReq && (d.cel.stops.any (fun s => s.kind != 2) || (match d.cel.ovf with | some (k, _) => k != 2 | none => false))
  let other := plain || x.halted || x.fault.isSome || fnIs d (fnMpg m) .stopping
  if quick && other then max r.qd (decRate r u) else if quick then r.qd else decRate r u

/-- COMPUTE of generator m (R274): its next state; none while a fault without a reaction waits for its COMMIT instant (R289). -/
def mpgCompute1 (m : Nat) (d : Dev) : Dev :=
  if !fnActive d (fnMpg m) || faultWaits d (fnMpg m) then d
  else
    let mode := mpgMode d m
    let r := rampOf d m
    let x0 := getMpg d m
    -- a swap into another mode (R280, R282)
    let x1 := if mode = x0.mode then x0 else { x0 with mode := mode, anchor := none, sIdle := 0 }
    -- MASTER_LOST and STREAM_STALE (R283, R285, R289)
    let hold := let h := rf d (MPG_STREAM_CFG m) MPG_STREAM_CFG_STREAM_HOLD; if h = 0 then 1 else h
    let f := if x1.fault.isSome then x1.fault
      else if mode = 2 ∧ !chanRuns d (mpgMaster d m) ∧ fnIs d (fnMpg m) .running then some 2
      else if mode = 3 ∧ hold ≤ x1.sIdle ∧ !x1.held ∧ fnIs d (fnMpg m) .running then some 3
      else none
    let x2 := { x1 with fault := f, sSince := if f.isSome && x1.fault.isNone then false else x1.sSince }
    let stopping := fnIs d (fnMpg m) .stopping
    let ramp := stopping || x2.held || x2.fault.isSome
    let t := curI64 d (MPG_TARGET_LO m) (MPG_TARGET_HI m)
    let rem := (t - x2.p) * 256
    -- R278: a new TARGET inside the braking distance
    let x3 := if mode = 0 ∧ !ramp ∧ x2.newTarget then
        { x2 with newTarget := false,
                  overshoot := x2.v != 0 && sgnI rem == sgnI x2.v && !brakeLe r x2.v.natAbs rem.natAbs }
      else x2
    let (n, x4) : MpgNext × Mpg :=
      if ramp then
        let n := jogStep r (stopDec d m r x3) 0 x3
        (n, { x3 with anchor := none, overshoot := x3.overshoot && n.v != 0 })
      else match mode with
        | 0 => let (n, l, o) := moveStep r t x3; (n, { x3 with latch := l, overshoot := o })
        | 1 =>
          let j := clampInt (-r.vm) r.vm (velTickI d (curI64 d (MPG_JOG_V_LO m) (MPG_JOG_V_HI m)))
          (jogStep r (decRate r) j x3, x3)
        | 2 => let (n, a) := gearStep d m r x3; (n, { x3 with anchor := some a })
        | 3 => (streamStep d m r x3, x3)
        | _ => ({ p := x3.p, v := 0 }, x3)
    let moves := n.v ≠ 0 ∨ n.p ≠ x3.p
    let n := { n with rest := decide (n.v = 0 ∧ n.p = x3.p) }
    -- R292: the start is deferred by one rest state while STANDSTILL is 1; GEAR engages all the same
    if moves ∧ fnIs d (fnMpg m) .running ∧ rb d (MPG_STAT m) MPG_STAT_STANDSTILL then
      if mpgOut d m = 1 then
        setMpg m { x2 with next := some { p := x2.p, v := 0, clearStill := true },
                           anchor := if mode = 2 ∧ !ramp then some (gearAnchor d m x3) else x2.anchor } d
      else setMpg m { x4 with next := some { n with clearStill := true } } d
    else
      let d1 := setMpg m { x4 with next := some n } d
      if ramp && decide (n.v = 0) then
        match x4.fault with
        | some c => detectFault (fnMpg m) c d1
        | none => if stopping then stopDone (fnMpg m) d1 else d1
      else d1

def mpgCompute (d : Dev) : Dev := forUpTo 64 mpgCompute1 d

/-- POS, VEL and ACC of generator m (R275, R294). -/
def mpgShow (m : Nat) (vOld : Int) (d : Dev) : Dev :=
  let x := getMpg d m
  let k : Int := ticksPerSecond d
  wrI64 (MPG_ACC_LO m) (MPG_ACC_HI m) (Int.tdiv ((x.v - vOld) * k * k) 256)
    (wrI64 (MPG_VEL_LO m) (MPG_VEL_HI m) (Int.tdiv (x.v * k) 256) (wrI64 (MPG_POS_LO m) (MPG_POS_HI m) x.p d))

/-- The computed state transfers at COMMIT (R274, R293). -/
def mpgTransfer1 (m : Nat) (d : Dev) : Dev :=
  let x := getMpg d m
  match x.next with
  | none => d
  | some n =>
    let s := MPG_STAT m
    let rests := if n.rest then x.rests + 1 else 0
    let d1 := mpgShow m x.v (setMpg m { x with p := n.p, v := n.v, next := none, rests := rests } d)
    let d2 := wrI64 (MPG_LAG_LO m) (MPG_LAG_HI m) n.lag (wf s MPG_STAT_PHASE n.phase (wb s MPG_STAT_LIMITED n.limited d1))
    let d3 := if n.limTick then bump (MPG_CNT m) MPG_CNT_LIM_TICKS d2 else d2
    let d4 := if n.reversed then wf s MPG_STAT_REVERSED 1 (bump (MPG_CNT m) MPG_CNT_REVERSALS d3) else d3
    let d5 := if n.done then wf s MPG_STAT_DONE 1 d4 else d4
    let d6 := if n.decOvr then wf s MPG_STAT_DEC_OVR 1 d5 else d5
    if n.clearStill then wf s MPG_STAT_STANDSTILL 0 d6
    else if 2 ^ rf d6 (MPG_CFG m) MPG_CFG_REST_DELAY ≤ rests then wf s MPG_STAT_STANDSTILL 1 d6 else d6

def mpgTransfer (d : Dev) : Dev := forUpTo 64 mpgTransfer1 d

/-- OUT_POS of the step output. -/
def mpgOutPos (m : Nat) (n : Int) (d : Dev) : Dev :=
  wrI64 (MPG_OUT_POS_LO m) (MPG_OUT_POS_HI m) n (setMpg m { getMpg d m with outPos := n } d)

/-- A command that transfers at COMMIT (R286). -/
def mpgApplyCmd (m : Nat) (d : Dev) : Dev :=
  let x := getMpg d m
  let s := MPG_STAT m
  let rej := wf s MPG_STAT_CMD_REJ 1 (setMpg m { x with cmd := none } d)
  match x.cmd with
  | none => d
  | some 1 =>
    if !x.held || stopInForce d then rej
    else wf s MPG_STAT_HELD 0
      (setMpg m { x with cmd := none, held := false, halted := false, byStop := false, latch := false, anchor := none, sIdle := 0 } d)
  | some 2 =>
    if x.held || !fnIs d (fnMpg m) .running then rej
    else wf s MPG_STAT_HELD 1 (setMpg m { x with cmd := none, held := true, halted := true } d)
  | some 3 =>
    if x.v ≠ 0 ∨ mpgMode d m = 2 then rej
    else
      let p := curI64 d (MPG_SET_POS_LO m) (MPG_SET_POS_HI m)
      let d1 := mpgShow m 0 (setMpg m { x with cmd := none, p := p, v := 0 } d)
      if mpgOut d m = 1 then
        mpgOutPos m (p / 4294967296) (setMpg m { getMpg d1 m with segA := p, segB := p } d1)
      else d1
  | some _ => setMpg m { x with cmd := none } d

/-- What the staged registers that transfer now tell generator m (R278, R283). -/
def mpgStaged (m : Nat) (d : Dev) : Dev :=
  let x := getMpg d m
  let t := d.staged.contains (MPG_TARGET_HI m)
  let sp := d.staged.contains (MPG_STREAM_POS_HI m)
  let y := { x with
    newTarget := x.newTarget || t
    latch := x.latch && !t
    sSeen := x.sSeen || sp
    sAge := if sp then 0 else x.sAge + 1
    sIdle := if sp then 0 else if fnIs d (fnMpg m) .running && mpgMode d m == 3 && !x.held then x.sIdle + 1 else x.sIdle
    sSince := x.sSince || sp }
  if x = y then d else setMpg m y d

/-- The COMMIT instant of generator m before function states change: state, commands, staged demands. -/
def mpgCommit (d : Dev) : Dev :=
  forUpTo 64 (fun m d => mpgApplyCmd m (mpgStaged m d)) (mpgTransfer d)

/-- The generator is at rest with velocity and acceleration 0 (R274). -/
def mpgRest (m : Nat) (d : Dev) : Dev :=
  let x := getMpg d m
  if x.v = 0 then mpgShow m 0 d else mpgShow m 0 (setMpg m { x with v := 0 } d)

/-- After function states have changed: STANDSTILL reads 1 while the generator is not RUNNING (R292), stop requests hold the generators
(R287), outputs that do not run fault (R289). -/
def mpgAfter1 (m : Nat) (d : Dev) : Dev :=
  let run := fnIs d (fnMpg m) .running
  let d := if run || rb d (MPG_STAT m) MPG_STAT_STANDSTILL then d else wf (MPG_STAT m) MPG_STAT_STANDSTILL 1 d
  let d1 := if run && stopInForce d && decide (mpgMode d m ≠ 2) && !(getMpg d m).byStop then
      wf (MPG_STAT m) MPG_STAT_HELD 1 (setMpg m { getMpg d m with held := true, byStop := true } d) else d
  if fnActive d1 (fnMpg m) && decide (mpgOut d1 m = 1) && !fnIs d1 (fnStp (rf d1 (MPG_CFG m) MPG_CFG_OUT_IDX)) .running &&
      !faultWaits d1 (fnMpg m) then
    let x := getMpg d1 m
    let p := x.outPos * 4294967296
    detectFault (fnMpg m) 1 (mpgShow m 0 (setMpg m { x with p := p, v := 0, segA := p, segB := p, next := none } d1))
  else d1

def mpgAfter (d : Dev) : Dev := forUpTo 64 mpgAfter1 d

/-- DRIVE_LOST posted to generator m (R203, R289). -/
def mpgDriveLost (m : Nat) (d : Dev) : Dev :=
  let x := getMpg d m
  if mpgOut d m = 2 ∧ fnActive d (fnMpg m) ∧ x.fault.isNone then setMpg m { x with fault := some 4 } d else d

/-- STREAM_STALE (R283): the fault reaction starts when STREAM_HOLD ticks have passed. -/
def mpgStale (m : Nat) (d : Dev) : Dev :=
  let x := getMpg d m
  let hold := let h := rf d (MPG_STREAM_CFG m) MPG_STREAM_CFG_STREAM_HOLD; if h = 0 then 1 else h
  if fnIs d (fnMpg m) .running && decide (mpgMode d m = 3) && !x.held && x.fault.isNone && decide (hold ≤ x.sIdle) then
    setMpg m { x with fault := some 3, sSince := false } d
  else d

/-! ### Function states -/

/-- Generator m starts to run: GEAR engages afresh (R282, R288). Nothing but CONTINUE and a TARGET clears the latch (R278), and STREAM goes
on from its last set-point (R283). -/
def mpgEnable (m : Nat) (d : Dev) : Dev :=
  let x := getMpg d m
  wf (MPG_STAT m) MPG_STAT_HELD 0
    (setMpg m { x with held := false, halted := false, byStop := false, fault := none, anchor := none, sIdle := 0, mode := mpgMode d m, rests := 0 } d)

/-- A generator that leaves RUNNING and STOPPING. -/
def mpgLeave (m : Nat) (d : Dev) : Dev :=
  let x := getMpg d m
  let d1 := mpgRest m (setMpg m { x with next := none, fault := none, anchor := none, held := false, halted := false, byStop := false, overshoot := false } d)
  wf (MPG_STAT m) MPG_STAT_HELD 0 (wf (MPG_STAT m) MPG_STAT_PHASE 0 (wf (MPG_STAT m) MPG_STAT_STANDSTILL 1 d1))

/-- Is the cause of a fault of generator m still there (R289)? -/
def mpgCause (d : Dev) (m code : Nat) : Bool :=
  match code with
  | 1 => !fnIs d (fnStp (rf d (MPG_CFG m) MPG_CFG_OUT_IDX)) .running
  | 2 => !chanRuns d (mpgMaster d m)
  | 3 => !(getMpg d m).sSince
  | 4 => rb d (NET_SPT_STAT m) NET_SPT_STAT_LOST
  | _ => false

/-- MPGm_CMD: the last command written before a COMMIT instant acts (R33, R286). -/
def mpgCmd (m cmd : Nat) (d : Dev) : Dev :=
  if cmd = 1 ∨ cmd = 2 ∨ cmd = 3 then setMpg m { getMpg d m with cmd := some cmd } d else d

/-! ### The step output (R290, R291) -/

/-- The tick start: q runs from the last state reached to the committed one; STEP_TIMER (R291). -/
def mpgTick1 (m : Nat) (d : Dev) : Dev :=
  if mpgOut d m ≠ 1 then d
  else
    let x := getMpg d m
    let d1 := setMpg m { x with segA := x.segB, segB := x.p } d
    let n := (x.p / 4294967296 - x.segB / 4294967296).natAbs
    let g := rf d1 (MPG_CFG m) MPG_CFG_STEPGEN
    wb (MPG_STAT m) MPG_STAT_STEP_TIMER (g == 2 || (g != 1 && decide (n ≤ 64))) d1

/-- The TB time at which the next step of generator m is due in the present tick, and its direction; none when no step is
left. -/
def stepDue (d : Dev) (m : Nat) : Option (Nat × Int) :=
  let x := getMpg d m
  let t0 := d.tb / tickP d * tickP d
  let fwd := x.segA < x.segB
  let go := if fwd then x.outPos < x.segB / 4294967296 else x.segB / 4294967296 < x.outPos
  if mpgOut d m ≠ 1 ∨ x.segA = x.segB ∨ ¬ go then none
  else
    -- forward: q reaches outPos + 1; backward: q falls below outPos
    let goal := if fwd then (x.outPos + 1) * 4294967296 else x.outPos * 4294967296
    let num := (goal - x.segA).natAbs * tickP d
    let den := (x.segB - x.segA).natAbs
    let at_ := if rb d (MPG_STAT m) MPG_STAT_STEP_TIMER then
        ((t0 * den + num) * 2 + den * nsUnits) / (2 * den * nsUnits) * nsUnits
      else t0 + (if fwd then (num + den - 1) / den else num / den + 1)
    some (at_, if fwd then 1 else -1)

end Sys2Proof.Machine
end

