-- ==== Sys2Proof/Machine/Pad.lean ====
section
/-! DEFINITION. The pads of the multi-function pins from outside (spec/02, R71, R74, R75, R77, R81): which signal a pin carries, the level
that its filter passes. -/
namespace Sys2Proof.Machine
open Sys2Proof Sys2Proof.Reg

def modMfp (f : MfpUnit → MfpUnit) (d : Dev) : Dev := { d with mfp := f d.mfp }

/-! ### The function table (R74) -/

/-- A function signal of the table. -/
inductive PinSig
  | fb (k sig : Nat)
  | stp (j sig : Nat)
  | emu (e sig : Nat)
  | pwm (p : Nat) (b : Bool)
  | flt (g : Nat)
  | pulse (k : Nat)
  | cap (k : Nat)
  | pbt (b : Nat)
  deriving DecidableEq, Repr

/-- The signal that an FSEL value selects at a pin; none for OFF, GPIO and the values that make the pin behave as OFF. -/
def pinSig (n fsel : Nat) : Option PinSig :=
  if fsel = 2 then
    if n < 144 then some (.fb (n / 3) (n % 3))
    else if n < 240 then some (.pwm ((n - 144) / 2) (n % 2 == 1))
    else if n < 248 then some (.flt (n - 240))
    else if n < 252 then some (.pulse (n - 248))
    else if n < 256 then some (.cap (n - 252))
    else if n < 288 then some (.pbt (n - 256))
    else none
  else if fsel = 3 then
    if n < 128 then some (.stp (n / 4) (n % 4))
    else if n < 152 then some (.emu ((n - 128) / 3) ((n - 128) % 3))
    else none
  else none

def pinFsel (d : Dev) (n : Nat) : Nat := rf d (MFP_PIN n) MFP_PIN_FSEL

/-- The signal selected at pin n. -/
def pinSel (d : Dev) (n : Nat) : Option PinSig := pinSig n (pinFsel d n)

/-- Does another pin than n select the same signal (R77)? The others, ascending. -/
def pinRivals (d : Dev) (n : Nat) : List Nat :=
  match pinSel d n with
  | none => []
  | some s => (List.range 288).filter (fun m => m != n && pinSel d m == some s)

/-- The signal connected to pin n: a higher-numbered pin of two that select the same signal behaves as OFF (R77). -/
def pinConn (d : Dev) (n : Nat) : Option PinSig := if (pinRivals d n).any (fun m => decide (m < n)) then none else pinSel d n

/-! ### Levels from outside -/

def getPad (d : Dev) (n : Nat) : Pad :=
  match smGet d.mfp.pads n with
  | some p => p
  | none => {}

/-- Does pad n hold the state of R71, with its weak pull-down: a bank supply lost, or the core supply off? -/
def padHeld (d : Dev) (n : Nat) : Bool := d.mfp.held.contains n || !awake d

/-- The level at pad n where the device does not drive it: from outside, the weak pull-down of R71, or its pull; a bus keeper holds the
last level from outside (log entry 23). -/
def padRaw (d : Dev) (n : Nat) : Bool :=
  let p := getPad d n
  match p.raw with
  | some l => l
  | none =>
    if padHeld d n then false
    else match rf d (MFP_PIN n) MFP_PIN_PULL with
      | 2 => true
      | 3 => p.last
      | _ => false

/-- The FILT delay of pin n in TB time: m TBCLK cycles (R81). -/
def pinFilt (d : Dev) (n : Nat) : Nat := rf d (MFP_PIN n) MFP_PIN_FILT * effAddend d

/-- The level behind the filter of pad n where the device does not drive it: a level from outside passes once the pad has held it for m TBCLK
cycles (R81). -/
def padIn (d : Dev) (n : Nat) : Bool :=
  let p := getPad d n
  if p.raw.isSome && tbRuns d && decide (d.tb < p.since + pinFilt d n) then p.was else padRaw d n

end Sys2Proof.Machine
end

