-- ==== Sys2Proof/Machine/StpPwm.lean ====
section
/-! DEFINITION. Stepper channels and PWM pairs (spec/09). -/
namespace Sys2Proof.Machine
open Sys2Proof Sys2Proof.Reg

/-! ### Stepper channels -/

def getStp (d : Dev) (j : Nat) : Stp :=
  match smGet d.stp.ch j with
  | some x => x
  | none => {}

def setStp (j : Nat) (x : Stp) (d : Dev) : Dev := { d with stp := { d.stp with ch := smPut d.stp.ch j x } }

def stpEpos (d : Dev) (j : Nat) : Nat := rf d (STP_STAT j) STP_STAT_EPOS
def stpResl (d : Dev) (j : Nat) : Nat := rf d (STP_STAT j) STP_STAT_RESL

/-- The signed coil targets of R297. -/
def coilTargets (d : Dev) (j : Nat) : Int × Int :=
  let c := STP_CFG j
  let tbl := rb d c STP_CFG_TABLE_EN
  let e0 := if rb d c STP_CFG_DIR_INV then (1024 - stpEpos d j) % 1024 else stpEpos d j
  let s := if tbl then 0 else 8 - stpResl d j
  let e := if 1 ≤ s ∧ s ≤ 7 then e0 / 2 ^ s * 2 ^ s + 2 ^ (s - 1) else e0
  let q := e / 256
  let i := e % 256
  let full := rf d (STP_FSLVL j) STP_FSLVL_FULL_AMP
  let w := cur d (STP_TBL (rf d c STP_CFG_TABLE) i)
  let (ca, cb) : Int × Int := if s = 8 then (full, full)
    else if tbl then (fget w STP_TBL_CA, fget w STP_TBL_CB) else (romCA i, romCB i)
  let (wa, wb) := if q = 0 then (ca, cb) else if q = 1 then (-cb, ca) else if q = 2 then (-ca, -cb) else (cb, -ca)
  let amp := (getStp d j).amp
  let t (x : Int) : Int := sgnI x * ((amp * x.natAbs + 32768) / 65536 : Nat)
  (t wa, t wb)

/-- A coil starts an ON phase, or an OFF phase where its target is 0 (R303). -/
def coilOn (now : Nat) (c : Coil) : Coil :=
  if c.tgt = 0 then
    { c with phase := .off now (if c.last.natAbs ≤ 1 then none else some (decide (c.last < 0))), prev := none }
  else { c with phase := .on now (decide (0 < c.tgt)) none, prev := none }

/-- A predicted end of an ON phase that has come. -/
def coilNorm (now : Nat) (c : Coil) : Coil :=
  match c.phase with
  | .on _ pos (some t) => if t ≤ now then { c with phase := .off t (some (!pos)), prev := none, opens := 0 } else c
  | _ => c

/-- A coil with its new target: a target of another sign ends an ON phase at once (R303). -/
def coilTarget (now : Nat) (t : Int) (c : Coil) : Coil :=
  let c := coilNorm now c
  match c.phase with
  | .on _ pos _ =>
    if t = 0 ∨ decide (0 < t) ≠ pos then { c with tgt := t, phase := .off now (some (!pos)), prev := none, opens := 0 }
    else { c with tgt := t }
  | _ => { c with tgt := t }

/-- The channel recomputes its targets (R297). -/
def stpRetarget (j : Nat) (d : Dev) : Dev :=
  let (ta, tb) := coilTargets d j
  let x := getStp d j
  wr (STP_AMP j) (BitVec.ofNat 32 x.amp) (wr (STP_TGT j) (BitVec.ofNat 32 (ofInt 16 tb * 65536 + ofInt 16 ta))
    (setStp j { x with a := coilTarget d.tb ta x.a, b := coilTarget d.tb tb x.b } d))

/-- A step of +1 or −1 reaches channel j (R296, R305). -/
def stpStep (j : Nat) (s : Int) (d : Dev) : Dev :=
  if fnIs d (fnStp j) .running then
    let x := getStp d j
    stpRetarget j (wf (STP_STAT j) STP_STAT_EPOS (((stpEpos d j : Int) + s) % 1024).toNat (setStp j { x with steps := x.steps + 1 } d))
  else d

/-- One step of generator m's step output, in direction s (R290). -/
def mpgEmit (m : Nat) (s : Int) (d : Dev) : Dev :=
  stpStep (rf d (MPG_CFG m) MPG_CFG_OUT_IDX) s (mpgOutPos m ((getMpg d m).outPos + s) d)

/-- The steps that the tick still owes at its end: q equals b there (R290). -/
def mpgCatchUp1 (m : Nat) (d : Dev) : Dev :=
  if mpgOut d m ≠ 1 then d
  else
    let x := getMpg d m
    let n := x.segB / 4294967296 - x.outPos
    forUpTo n.natAbs (fun _ d => mpgEmit m (sgnI n) d) d

/-- Is coil B (true) or A sensed; RUNNING run amplitude of channel j (R300). -/
def stpRunAmp (d : Dev) (j : Nat) : Nat :=
  let run := cf d (STP_CUR j) STP_CUR_RUN_CUR
  if rb d (STP_CFG j) STP_CFG_AMP_SRC then
    match (getStp d j).frac with
    | some f => let (n, q) := fRat (fClamp (if fIsNan f then 0#32 else f) 0#32 fOne); (n.natAbs * run * 2 + q) / (2 * q)
    | none => 0
  else run

/-- STANDSTILL of the included generator that names channel j; 1 when none does (R300). -/
def stpStill (d : Dev) (j : Nat) : Bool :=
  match (List.range 64).find? (fun m => (getFn d (fnMpg m)).included && mpgOut d m == 1 && rf d (MPG_CFG m) MPG_CFG_OUT_IDX == j) with
  | some m => rb d (MPG_STAT m) MPG_STAT_STANDSTILL
  | none => true

/-- RESL at a tick start (R299). -/
def nextResl (f rate l : Nat) : Nat :=
  if rate * 2 ^ (8 - l) < f then ((List.range 9).reverse.find? (fun k => decide (f ≤ rate * 2 ^ (8 - k)))).getD 0
  else if l < 8 ∧ f * 4 ≤ rate * 2 ^ (7 - l) * 3 then l + 1
  else l

/-- AMP at a tick start (R300, R305). -/
def stpAmp (d : Dev) (j : Nat) (x : Stp) : Stp :=
  match (getFn d (fnStp j)).state with
  | .running =>
    if x.rest then
      let r := rf d (STP_CFG j) STP_CFG_REST_RAMP
      let rest := cf d (STP_CUR j) STP_CUR_REST_CUR
      let k := min (x.restK + 1) r
      { x with restK := k, amp := if r = 0 then rest else (x.restFrom * (r - k) + rest * k) / r }
    else { x with amp := stpRunAmp d j }
  | .stopping =>
    let r := rf d (STP_CFG j) STP_CFG_STOP_RAMP
    let k := min (x.stopK + 1) r
    { x with stopK := k, amp := if r = 0 then 0 else x.stopFrom * (r - k) / r }
  | _ => x

/-- RESL of channel j from the tick start on, in every function state (R298, R299). -/
def stpReslNext (d : Dev) (j : Nat) : Nat :=
  let f := (getStp d j).steps * ticksPerSecond d
  let rate := let r := rf d (STP_USTEP j) STP_USTEP_RES_RATE; if r = 0 then 1 else r
  if rb d (STP_CFG j) STP_CFG_TABLE_EN then 8 else nextResl f rate (stpResl d j)

/-- The stopped chopper of a RUNNING channel starts with an ON phase (R305). -/
def chopStart (now : Nat) (c : Coil) : Coil :=
  match c.phase with
  | .stopped => coilOn now c
  | _ => c

/-- The tick start of channel j in tick n: RESL, AMP, targets, the start of the chopper. -/
def stpTick1 (n j : Nat) (d : Dev) : Dev :=
  let resl := stpReslNext d j
  let d1 := if resl = stpResl d j then d else wf (STP_STAT j) STP_STAT_RESL resl d
  if !fnActive d (fnStp j) then (if resl = stpResl d j then d else stpRetarget j d1)
  else
    let x := getStp d j
    let y := stpAmp d j { x with lastSteps := x.steps, steps := 0 }
    let z := { y with zeroFrom := if y.amp = 0 then (match y.zeroFrom with | some t => some t | none => some n) else none }
    let e := stpRetarget j (wb (STP_STAT j) STP_STAT_REST z.rest (setStp j z d1))
    if faultWaits e (fnStp j) then e
    else setStp j { getStp e j with a := chopStart e.tb (getStp e j).a, b := chopStart e.tb (getStp e j).b } e

/-- TICK_START of the steppers: the steps owed, the next segment, then RESL and AMP. -/
def stpTick (n : Nat) (d : Dev) : Dev :=
  forUpTo 32 (stpTick1 n) (forUpTo 64 (fun m d => mpgTick1 m (mpgCatchUp1 m d)) d)

/-- Channel j is enabled: RESL 8, the bridges Off until AMP takes its value at the next tick start (R299, R300, R305). -/
def stpEnable (j : Nat) (d : Dev) : Dev :=
  let x := getStp d j
  let still := stpStill d j
  let y := { x with rest := still, restK := rf d (STP_CFG j) STP_CFG_REST_RAMP, zeroFrom := none, steps := 0, lastSteps := 0,
                    a := { x.a with phase := .stopped, prev := none, opens := 0 }, b := { x.b with phase := .stopped, prev := none, opens := 0 } }
  stpRetarget j (wf (STP_STAT j) STP_STAT_RESL 8 (setStp j y d))

def stpDisable (j : Nat) (d : Dev) : Dev :=
  let x := getStp d j
  setStp j { x with stopFrom := x.amp, stopK := 0 } d

/-- Both bridges Off and the chopper stopped. -/
def stpOff (j : Nat) (d : Dev) : Dev :=
  let x := getStp d j
  setStp j { x with a := { x.a with phase := .stopped, prev := none }, b := { x.b with phase := .stopped, prev := none } } d

/-- The channel leaves RUNNING and STOPPING. -/
def stpLeave (j : Nat) (d : Dev) : Dev :=
  let d1 := stpOff j d
  stpRetarget j (setStp j { getStp d1 j with amp := 0, zeroFrom := none } d1)

/-- COMMIT before function states change: a stop whose AMP has been 0 for a whole tick is complete (R305). -/
def stpStops (n : Nat) (d : Dev) : Dev :=
  forUpTo 32 (fun j d =>
    match (getStp d j).zeroFrom with
    | some t => if fnIs d (fnStp j) .stopping ∧ t < n then stopDone (fnStp j) d else d
    | none => d) d

/-- COMMIT after function states have changed: STANDSTILL handed to the channels (R300). -/
def stpStandstill (d : Dev) : Dev :=
  forUpTo 32 (fun j d =>
    if fnIs d (fnStp j) .running then
      let x := getStp d j
      let s := stpStill d j
      if s && !x.rest then setStp j { x with rest := true, restK := 0, restFrom := stpRunAmp d j } d
      else if !s && x.rest then setStp j { x with rest := false } d
      else d
    else d) d

/-- A loop slot routed to channel j delivers a fraction at COMMIT (R300). -/
def stpFrac (j : Nat) (f : F32) (d : Dev) : Dev := setStp j { getStp d j with frac := some f } d

/-- STPj_CMD SET_EPOS (R296). -/
def stpCmd (j cmd val : Nat) (d : Dev) : Dev :=
  if cmd ≠ 1 then d
  else if fnIs d (fnStp j) .running then wf (STP_STAT j) STP_STAT_CMD_REJ 1 d
  else stpRetarget j (wf (STP_STAT j) STP_STAT_EPOS val d)

/-- OFF_LEN in TB time units. -/
def offLen (d : Dev) (j : Nat) : Nat := rf d (STP_CHOP j) STP_CHOP_OFF_LEN * 32 * nsUnits

/-- The TB time at which the OFF phase of a coil ends; none in an ON phase whose end is not known. -/
def offDue (d : Dev) (j : Nat) (c : Coil) : Option Nat :=
  match (coilNorm d.tb c).phase with
  | .off t _ => some (t + offLen d j)
  | .on _ _ (some t) => some (t + offLen d j)
  | _ => none

/-- The OFF phase of a coil ends if its end has come; the next ON phase starts (R303). -/
def coilOffEnd (d : Dev) (j : Nat) (c : Coil) : Coil :=
  let c := coilNorm d.tb c
  match c.phase with
  | .off t _ => if t + offLen d j ≤ d.tb then coilOn d.tb c else c
  | _ => c

def stpOffEnd (j : Nat) (coilB : Bool) (d : Dev) : Dev :=
  let x := getStp d j
  setStp j (if coilB then { x with b := coilOffEnd d j x.b } else { x with a := coilOffEnd d j x.a }) d

/-- The state (IN1, IN2) of a bridge (R295, R303): ON drives, the fast part of OFF drives against it, the rest brakes. -/
def bridge (d : Dev) (j : Nat) (c : Coil) : Bool × Bool :=
  match (coilNorm d.tb c).phase with
  | .stopped => (false, false)
  | .on _ pos _ => (pos, !pos)
  | .off t fast =>
    match fast with
    | some pos => if d.tb < t + rf d (STP_CHOP j) STP_CHOP_FAST_LEN * 32 * nsUnits then (pos, !pos) else (true, true)
    | none => (true, true)

/-- The evaluation of a sample in an ON phase (R302, R304): the coil after it, ONMAX, OPEN_COIL (neither is
evaluated by the shadow of a twin pair, R495). -/
def chopEval (d : Dev) (j : Nat) (i : Int) (ts tsNext : Nat) (since : Nat) (pos : Bool) (c : Coil) : Coil × Bool × Bool :=
  let now := d.tb
  let tt := if 0 < c.tgt then i else -i
  let t : Int := c.tgt.natAbs
  let off (at_ : Nat) (opens : Nat) : Coil :=
    if at_ ≤ now then { c with phase := .off now (some (!pos)), prev := none, opens := opens }
    else { c with phase := .on since pos (some at_), prev := none }
  if t ≤ tt then (off now 0, false, false)
  else
    let cross : Option Nat := match c.prev with
      | some (tp, tsp) =>
        let slope := fDiv (fOfInt (tt - tp)) (fOfInt ((ts : Int) - tsp))
        if fGt slope 0#32 then
          let dt := fDiv (fOfInt (t - tt)) slope
          if fLt dt (fOfInt ((tsNext : Int) + 1000 - ts)) then
            some (edgeAt d (max (ts * nsUnits + (fTruncScaled dt 32 0).toNat) now))
          else none
        else none
      | none => none
    match cross with
    | some at_ => (off at_ 0, false, false)
    | none =>
      let c1 := { c with prev := some (tt, ts) }
      if rf d (STP_CHOP j) STP_CHOP_ON_LIMIT * 1000 * nsUnits ≤ now - since then
        let shadow := rf d TWN_STAT TWN_STAT_ROLE == 2
        let n := if i.natAbs * 8 < c.tgt.natAbs ∧ !shadow then c.opens + 1 else 0
        let lim := rf d (STP_LIMIT j) STP_LIMIT_OPEN_LIMIT
        ({ c1 with phase := .off now (some (!pos)), prev := none, opens := n }, !shadow, !shadow && decide (0 < lim ∧ lim ≤ n))
      else (c1, false, false)

/-- A sense result of a coil: its code, sample instant and the instant of the coil's next reserved slot, TB ns (R301..R304). A sample of the
OFF phase, and one of a blanked ON phase, decides nothing but, in the OFF phase, overcurrent. -/
def stpSense (j : Nat) (coilB : Bool) (code ts tsNext : Nat) (d : Dev) : Dev :=
  let x := getStp d j
  let i : Int := (code : Int) - rf d (STP_SENSE j) STP_SENSE_ZERO
  let d1 := wf (STP_MEAS j) (if coilB then STP_MEAS_B else STP_MEAS_A) (ofInt 16 i) d
  let c := { coilNorm d.tb (if coilB then x.b else x.a) with last := i }
  let put (c : Coil) (d : Dev) : Dev := setStp j (if coilB then { getStp d j with b := c } else { getStp d j with a := c }) d
  let overs := rf d (STP_LIMIT j) STP_LIMIT_OC_LIMIT < i.natAbs
  match c.phase with
  | .stopped => put c d1
  | .off _ _ => if overs then stpOff j (detectFault (fnStp j) 2 (put c d1)) else put c d1
  | .on since pos _ =>
    if since ≤ ts * nsUnits ∧ ts * nsUnits < since + rf d (STP_CHOP j) STP_CHOP_BLANK_LEN * 32 * nsUnits then put c d1
    else if overs then stpOff j (detectFault (fnStp j) 2 (put c d1))
    else if ts * nsUnits < since then put c d1
    else
      let (c1, onmax, openC) := chopEval d1 j i ts tsNext since pos c
      let d2 := put c1 d1
      let d3 := if onmax then wf (STP_STAT j) STP_STAT_ONMAX 1 (bump (STP_CNT j) STP_CNT_ONMAX_CNT d2) else d2
      if openC then stpOff j (detectFault (fnStp j) 3 d3) else d3

/-- A reserved conversion slot of channel j delivered no result (R306). -/
def stpNoSense (j : Nat) (d : Dev) : Dev :=
  if fnActive d (fnStp j) then stpOff j (detectFault (fnStp j) 4 d) else d

/-! ### PWM pairs -/

def getPwm (d : Dev) (p : Nat) : Pwm :=
  match smGet d.stp.pwm p with
  | some x => x
  | none => {}

def setPwm (p : Nat) (x : Pwm) (d : Dev) : Dev := { d with stp := { d.stp with pwm := smPut d.stp.pwm p x } }

def fnPwm (p : Nat) : Nat := 0xA0 + p

/-- Is the carrier of pair p cut from TB time in a mode: ALIGN, for modes 0 and 1 only (R309)? -/
def pwmAligned (d : Dev) (p mode : Nat) : Bool := rb d (PWM_CFG p) PWM_CFG_ALIGN && decide (mode < 2)

/-- The same in the mode of the period in progress, or of the one to start. -/
def pwmAlign (d : Dev) (p : Nat) : Bool :=
  pwmAligned d p (if (getPwm d p).run then (getPwm d p).mode else cf d (PWM_CFG p) PWM_CFG_MODE)
def pwmDiv (d : Dev) (p : Nat) : Nat := let n := rf d (PWM_CFG p) PWM_CFG_DIV; if n = 0 then 256 else n

/-- The nominal PER of an ALIGN pair (R309). -/
def pwmNominal (d : Dev) (p mode : Nat) : Nat :=
  tickP d / ((if mode = 1 then 2 else 1) * pwmDiv d p * 4 * nsUnits)

/-- Does the set of pair p pass the COMMIT instant (R310)? -/
def pwmSync (d : Dev) (p : Nat) : Bool := rb d (PWM_CFG p) PWM_CFG_TSYNC || rb d (PWM_CFG p) PWM_CFG_CMP_SRC

def pwmPendFlag (p : Nat) (d : Dev) : Dev :=
  let x := getPwm d p
  wb (PWM_STAT p) PWM_STAT_SHADOW_PEND (x.pend.isSome || x.shadow.isSome) d

/-- A write of PWMp_CMP closes the staged set (R310). -/
def pwmClose (p : Nat) (d : Dev) : Dev :=
  let set := (rf d (PWM_PER p) PWM_PER_VALUE, rf d (PWM_CMP p) PWM_CMP_VALUE)
  let x := getPwm d p
  pwmPendFlag p (setPwm p (if pwmSync d p then { x with shadow := some set } else { x with pend := some (set.1, set.2, d.tb + 1) }) d)

/-- COMMIT of tick n: closed sets pass to the shadow and may be reloaded from offset 0 of the next tick on (R310). -/
def pwmCommit (n : Nat) (d : Dev) : Dev :=
  forUpTo 48 (fun p d =>
    let x := getPwm d p
    match x.shadow with
    | some (a, b) => setPwm p { x with shadow := none, pend := some (a, b, (n + 1) * tickP d) } d
    | none => d) d

/-- The staged values of pair p from a duty fraction (R308). -/
def pwmStage (p : Nat) (f : F32) (d : Dev) : Dev :=
  let (n, q) := fRat (fClamp (if fIsNan f then 0#32 else f) 0#32 fOne)
  let m := cf d (PWM_CFG p) PWM_CFG_MODE
  let near (a b : Nat) : Nat := if b = 0 then 1048575 else (2 * a + b) / (2 * b)
  let cmp := rf d (PWM_CMP p) PWM_CMP_VALUE
  let lo := rf d (PWM_PMIN p) PWM_PMIN_VALUE
  let hi := rf d (PWM_PMAX p) PWM_PMAX_VALUE
  let setPer (zero : Bool) (a b : Nat) : Dev :=
    let v := if zero then hi else near a b
    let c := if v < lo then lo else if hi < v then hi else v
    let d1 := wf (PWM_PER p) PWM_PER_VALUE c d
    if c ≠ v then wf (PWM_STAT p) PWM_STAT_PER_CLAMP 1 d1 else d1
  if m = 2 then setPer (n == 0) (cmp * q) n.natAbs
  else if m = 3 then setPer (n.natAbs == q) (cmp * q) (q - n.natAbs)
  else
    let per := if pwmAligned d p m then pwmNominal d p m else rf d (PWM_PER p) PWM_PER_VALUE
    wf (PWM_CMP p) PWM_CMP_VALUE (near (n.natAbs * per) q) d

/-- A loop slot routed to pair p delivers a duty fraction at COMMIT: the pair holds it, and uses it while it is RUNNING (R308, R332). -/
def pwmDuty (p : Nat) (f : F32) (d : Dev) : Dev :=
  let d1 := setPwm p { getPwm d p with duty := some f } d
  if fnIs d (fnPwm p) .running then pwmClose p (pwmStage p f d1) else d1

/-- Is an interval of REF of n cycles short, with the dead time of the output that it makes active (R312)? An interval of 0 is none. -/
def pwmShort (dt minp n : Nat) : Bool := n != 0 && (decide (n < dt) || decide (1 ≤ n - dt ∧ n - dt < minp))

/-- What the edges of a period depend on: PER, CMP, dead times (0 with A_ONLY), MINP, MINP_STRETCH; REF before the period and for how many
cycles; a low interval in progress that is swallowed, or was counted; a level carried into the period (R312). -/
structure PwmPlan where
  per : Nat
  cmp : Nat
  dtr : Nat
  dtf : Nat
  minp : Nat
  stretch : Bool
  ref : Bool
  h : Nat
  gap : Bool
  judged : Bool
  carry : Option (Bool × Nat)
  deriving DecidableEq, Repr, Inhabited

/-- A level of REF from the start of the period, before edges that begin later. -/
def fromStart (l : Bool) (es : List (Nat × Bool × Bool)) : List (Nat × Bool × Bool) :=
  match es with
  | (0, _, _) :: _ => es
  | _ => (0, l, false) :: es

/-- EDGE and CONST_ON: REF is high from 0 to CMP (R307, R312). The edges, the level carried on, is the last low interval swallowed. -/
def pwmSaw (a : PwmPlan) : List (Nat × Bool × Bool) × Option (Bool × Nat) × Bool :=
  let r := match a.carry with | some (false, k) => k | _ => 0
  if a.cmp ≤ r ∧ (r ≠ 0 ∨ a.cmp = 0) ∧ a.cmp < a.per ∨ a.cmp = 0 then ([(0, false, false)], none, false)
  else if a.per ≤ a.cmp then (fromStart false [(r, true, false)], none, false)
  else
    let sA := !(a.ref && r == 0) && pwmShort a.dtr a.minp (a.cmp - r)
    if sA && !a.stretch then (fromStart false [(r, false, true)], none, false)
    else
      let f := if sA then r + a.dtr + a.minp else a.cmp
      let sB := pwmShort a.dtf a.minp (a.per - f)
      if a.per ≤ f then (fromStart false [(r, true, sA)], none, false)
      else (fromStart false [(r, true, sA), (f, sB && !a.stretch, sB)], if sB && a.stretch then some (false, f + a.dtf + a.minp - a.per) else none, false)

/-- CONST_OFF: REF is high from CMP to PER (R307, R312). -/
def pwmConstOff (a : PwmPlan) : List (Nat × Bool × Bool) × Option (Bool × Nat) × Bool :=
  let fl := match a.carry with | some (true, k) => k | _ => 0
  if a.cmp = 0 then ([(0, true, false)], none, false)
  else
    let sB := (a.ref || fl != 0) && decide (a.cmp < a.per) && pwmShort a.dtf a.minp (a.cmp - fl)
    if sB && !a.stretch then (fromStart true [(fl, true, true)], none, false)
    else
      let rise := if sB then fl + a.dtf + a.minp else max a.cmp fl
      let sA := pwmShort a.dtr a.minp (a.per - rise)
      if a.per ≤ rise then (fromStart true [(fl, false, sB)], none, false)
      else (fromStart true [(fl, false, sB), (rise, !(sA && !a.stretch), sA)], if sA && a.stretch then some (true, rise + a.dtr + a.minp - a.per) else none, false)

/-- The fall of REF at f in a CENTER period, with the low interval that follows as it is when the next period has the same values (DEDUCED,
log entry 242): its edge, and whether it is swallowed. -/
def pwmFall (a : PwmPlan) (f : Nat) : List (Nat × Bool × Bool) × Bool :=
  if 2 * a.per ≤ f then ([], false)
  else
    let sB := pwmShort a.dtf a.minp (2 * a.per - f + (a.per - a.cmp))
    ([(f, sB && !a.stretch, sB)], sB && !a.stretch)

/-- CENTER: REF is high from PER − CMP to PER + CMP of 2 × PER (R307, R312). -/
def pwmCenter (a : PwmPlan) : List (Nat × Bool × Bool) × Option (Bool × Nat) × Bool :=
  if a.cmp = 0 then ([(0, false, false)], none, false)
  else
    let r0 := a.per - a.cmp
    let low := (if a.ref then 0 else a.h) + r0
    let sB := pwmShort a.dtf a.minp low
    if a.gap && a.ref || sB && a.ref && !a.stretch then
      let (es, g) := pwmFall a (a.per + a.cmp)
      ((0, true, sB && !a.gap) :: es, none, g)
    else
      let head : Nat × Bool × Bool := (0, false, sB && !(a.judged && !a.ref))
      let r1 := if sB && a.stretch then r0 + (a.dtf + a.minp - low) else r0
      let high := a.per + a.cmp - r1
      let sA := decide (a.cmp < a.per) && pwmShort a.dtr a.minp high
      if sA && !a.stretch then ([head, (r1, false, true)], none, false)
      else
        let x := if sA then a.dtr + a.minp - high else 0
        let (es, g) := pwmFall a (a.per + a.cmp + (x - x / 2))
        (if r1 - x / 2 = 0 then (0, true, sA) :: es else head :: (r1 - x / 2, true, sA) :: es, none, g)

/-- The edges that follow the peak of a CENTER period once CMP has become `a.cmp` where it was `c0` (R310, R312): the falling edge lies at
PER + CMP. What has begun is not undone (DEDUCED, log entry 242). -/
def pwmPeak (a : PwmPlan) (c0 : Nat) (left : List (Nat × Bool × Bool)) : List (Nat × Bool × Bool) × Bool :=
  let need (high : Nat) : Nat := if pwmShort a.dtr a.minp high && a.stretch then a.dtr + a.minp - high else 0
  if a.ref then
    let high := a.h + a.cmp
    let sA := pwmShort a.dtr a.minp high && !a.judged
    let (es, g) := pwmFall a (a.per + a.cmp + need high)
    (if sA then (a.per, true, true) :: es else es, g)
  else match left with
    | (k, true, s) :: _ => let (es, g) := pwmFall a (a.per + a.cmp); ((k, true, s) :: es, g)
    | _ =>
      if c0 = 0 ∧ a.cmp ≠ 0 then
        let sA := pwmShort a.dtr a.minp a.cmp
        if sA && !a.stretch then ([(a.per, false, true)], false)
        else let (es, g) := pwmFall a (a.per + a.cmp + need a.cmp); ((a.per, true, sA) :: es, g)
      else ([], false)

/-- MINP of pair p: the ten low bits, 0 as 1. -/
def pwmMinp (d : Dev) (p : Nat) : Nat := max 1 (rf d (PWM_MINP p) PWM_MINP_VALUE % 1024)

/-- The plan of pair p at the present instant for given PER and CMP. -/
def pwmPlan (d : Dev) (p per cmp : Nat) : PwmPlan :=
  let x := getPwm d p
  let aOnly := rb d (PWM_CFG p) PWM_CFG_A_ONLY
  { per := per, cmp := cmp, dtr := if aOnly then 0 else rf d (PWM_DT p) PWM_DT_DTR, dtf := if aOnly then 0 else rf d (PWM_DT p) PWM_DT_DTF,
    minp := pwmMinp d p, stretch := cb d (PWM_CFG p) PWM_CFG_MINP_STRETCH, ref := x.ref,
    -- before its run REF has been low without end
    h := if x.run then (d.tb - x.refAt) / max 1 (effAddend d) else 4294967296,
    gap := x.gap, judged := x.judged, carry := x.carry }

/-- An output of a pair changes with a change of REF (R311). -/
def refEdge (d : Dev) (p : Nat) (level : Bool) (x : Pwm) : Pwm :=
  let aOnly := rb d (PWM_CFG p) PWM_CFG_A_ONLY
  let dtr := rf d (PWM_DT p) PWM_DT_DTR
  let dtf := rf d (PWM_DT p) PWM_DT_DTF
  let now := d.tb
  if level == x.ref then x
  else
  let x := { x with refAt := now }
  if x.flt then { x with ref := level }
  else if aOnly then { x with ref := level, a := level, aFell := if level then x.aFell else now }
  else if level then
    let y := { x with ref := true, b := false, bRise := none, bFell := if x.b then now else x.bFell }
    if dtr = 0 then { y with a := true, aRise := none } else { y with aRise := some (now + dtr * effAddend d) }
  else
    let y := { x with ref := false, a := false, aRise := none, aFell := if x.a then now else x.aFell }
    if dtf = 0 then { y with b := true, bRise := none } else { y with bRise := some (now + dtf * effAddend d) }

/-- The outputs take the state that REF asks for after FLT_STATE or at the start of a run: both from inactive. -/
def refRestart (d : Dev) (p : Nat) (level : Bool) (x : Pwm) : Pwm :=
  refEdge d p level { x with ref := !level, flt := false, aRise := none, bRise := none }

/-- REF of pair p has an edge, or a short pulse begins there: MINP_CNT and MINP_EVT (R312). -/
def refTake (p : Nat) (level short : Bool) (d : Dev) : Dev :=
  let d1 := setPwm p (refEdge d p level { getPwm d p with judged := short }) d
  if short then wf (PWM_STAT p) PWM_STAT_MINP_EVT 1 (bump (PWM_CNT p) PWM_CNT_MINP_CNT d1) else d1

/-- Edges of REF whose instants have come. -/
def pwmEdges (p : Nat) : List (Nat × Bool × Bool) → Dev → Dev
  | [], d => setPwm p { getPwm d p with edges := [] } d
  | e :: r, d =>
    let x := getPwm d p
    if x.t0 + e.1 * effAddend d ≤ d.tb then pwmEdges p r (refTake p e.2.1 e.2.2 d) else setPwm p { x with edges := e :: r } d

/-- Is fault input g active now: its pin carries it, and its filtered level is ACT (R74, R313)? -/
def fltOn (d : Dev) (g : Nat) : Bool :=
  let n := 240 + g
  pinSel d n == some (.flt g) && ((padIn d n != rb d (MFP_PIN n) MFP_PIN_INV) == rb d (PWM_FLT_CFG g) PWM_FLT_CFG_ACT)

/-- Is any fault input that maps to pair p active (R313)? -/
def fltActive (d : Dev) (p : Nat) : Bool :=
  let g := rf d (PWM_CFG p) PWM_CFG_FLT_GRP
  (List.range 8).any (fun i => rb d (PWM_FLT_CFG i) PWM_FLT_CFG_EN && bitOf (rd d (PWM_FLT_CFG i)) g && fltOn d i)

/-- Are both outputs of pair p at high impedance: FLT_STATE 3 is driven (R313)? -/
def pwmHighZ (d : Dev) (p : Nat) : Bool := (getPwm d p).flt && rf d (PWM_CFG p) PWM_CFG_FLT_STATE == 3

/-- A new period of pair p starts now, with the active set (R307, R309, R313). -/
def pwmStartPeriod (p : Nat) (d : Dev) : Dev :=
  let x := getPwm d p
  let mode := cf d (PWM_CFG p) PWM_CFG_MODE
  let per := if pwmAligned d p mode then pwmNominal d p mode else rf d (PWM_ACT_PER p) PWM_ACT_PER_VALUE
  let cmp0 := rf d (PWM_ACT_CMP p) PWM_ACT_CMP_VALUE
  let d0 := if per < cmp0 then wf (PWM_STAT p) PWM_STAT_CMP_CLAMP 1 d else d
  let plan := pwmPlan d p per (min per cmp0)
  let (segs, out, gap) := if mode = 1 then pwmCenter plan else if mode = 3 then pwmConstOff plan else pwmSaw plan
  let d1 := wf (PWM_ACT_PER p) PWM_ACT_PER_VALUE per d0
  let y := { x with run := true, start := none, t0 := d.tb, mode := mode, len := max 1 (if mode = 1 then 2 * per else per), cmp := min per cmp0,
                    peak := decide (mode = 1) && cb d (PWM_CFG p) PWM_CFG_RLD_PEAK, carry := out, gap := gap,
                    starts := (d.tb, (if mode = 1 then 2 * per else per) * effAddend d) ::
                      x.starts.filter (fun e => decide (d.tb ≤ e.1 + e.2 + 4096 * effAddend d)) }
  let first := match segs with | (_, l, _) :: _ => l | [] => false
  -- FLT_STATE is held while an input is active, or a latched fault waits for its COMMIT instant, and ends at a reload instant (R313)
  let hold := x.flt && (fltActive d1 p || faultWaits d1 (fnPwm p))
  let d2 := if hold && !rb d (PWM_CFG p) PWM_CFG_LATCH then bump (PWM_CNT p) PWM_CNT_FLT_CYC d1 else d1
  let z := if hold then y else if x.flt || !x.run then refRestart d2 p first y else y
  let d3 := if x.flt && !hold then wf (PWM_STAT p) PWM_STAT_FLT_ACTIVE 0 d2 else d2
  pwmEdges p segs (setPwm p z d3)

/-- A closed set that may transfer at this reload instant becomes active; at a peak only CMP does (R310). -/
def pwmTakeSet (p : Nat) (peakOnly : Bool) (d : Dev) : Dev :=
  let x := getPwm d p
  match x.pend with
  | some (a, b, t) =>
    if t ≤ d.tb then
      let d1 := wf (PWM_ACT_CMP p) PWM_ACT_CMP_VALUE b d
      if peakOnly then
        -- PER waits for the next period start
        setPwm p (if rf d (PWM_ACT_PER p) PWM_ACT_PER_VALUE = a then { x with pend := none } else x) d1
      else setPwm p { x with pend := none } (wf (PWM_ACT_PER p) PWM_ACT_PER_VALUE a d1)
    else d
  | none => d

/-- The TB time of the next ALIGN boundary after the present one (R309). -/
def nextBoundary (d : Dev) (p : Nat) : Nat :=
  let pp := tickP d
  let n := d.tb / pp
  let j := d.tb % pp * pwmDiv d p / pp + 1
  n * pp + (j * pp + pwmDiv d p - 1) / pwmDiv d p

/-- The TB time of the next reload instant of pair p: the start of its run, the peak, the end of the period. -/
def reloadDue (d : Dev) (p : Nat) : Option Nat :=
  let x := getPwm d p
  match x.start with
  | some t => some t
  | none =>
    if !x.run then none
    else if x.peak then some (x.t0 + x.len / 2 * effAddend d)
    else if pwmAlign d p then some (nextBoundary d p)
    else some (x.t0 + x.len * effAddend d)

/-- The reload instant of pair p, if it has come (R307, R310, R314). -/
def pwmReload (p : Nat) (d : Dev) : Dev :=
  let x := getPwm d p
  match reloadDue d p with
  | none => d
  | some t =>
    if d.tb < t then d
    else if x.start.isNone && x.peak then
      -- the peak: only CMP transfers
      let d1 := pwmTakeSet p true (pwmEdges p x.edges (setPwm p { x with peak := false } d))
      let per := x.len / 2
      let c := rf d1 (PWM_ACT_CMP p) PWM_ACT_CMP_VALUE
      let d2 := if per < c then wf (PWM_STAT p) PWM_STAT_CMP_CLAMP 1 d1 else d1
      let y := getPwm d2 p
      if min per c = y.cmp then pwmPendFlag p d2
      else
        let (es, g) := pwmPeak (pwmPlan d2 p per (min per c)) y.cmp y.edges
        pwmPendFlag p (pwmEdges p es (setPwm p { y with cmp := min per c, gap := g } d2))
    else if x.start.isNone && fnIs d (fnPwm p) .stopping then
      stopDone (fnPwm p) (wf (PWM_STAT p) PWM_STAT_FLT_ACTIVE 0
        (setPwm p { x with
          run := false, edges := [], carry := none, gap := false, judged := false, ref := false, flt := false
          a := false, b := false, aRise := none, bRise := none } d))
    else
      -- edges that a shortened period has left fall at its end (R309)
      let d1 := forEach x.edges (fun e d => refTake p e.2.1 e.2.2 d) d
      pwmPendFlag p (pwmStartPeriod p (pwmTakeSet p false (setPwm p { getPwm d1 p with edges := [] } d1)))

/-- The next REF edge of pair p, if its instant has come (R307). -/
def pwmRefEdge (p : Nat) (d : Dev) : Dev := pwmEdges p (getPwm d p).edges d

/-- The TB time of the next REF edge. -/
def refDue (d : Dev) (p : Nat) : Option Nat :=
  let x := getPwm d p
  match x.edges with
  | (k, _, _) :: _ => if x.run then some (x.t0 + k * effAddend d) else none
  | [] => none

/-- The delayed rises whose dead time has ended (R311, R313). -/
def pwmDeadEnd (p : Nat) (d : Dev) : Dev :=
  let x := getPwm d p
  let up (t : Option Nat) : Bool := match t with | some t => decide (t ≤ d.tb) | none => false
  let y := if up x.aRise then { x with a := true, aRise := none } else x
  setPwm p (if up y.bRise then { y with b := true, bRise := none } else y) d

def deadDue (d : Dev) (p : Nat) (outB : Bool) : Option Nat := if outB then (getPwm d p).bRise else (getPwm d p).aRise

/-- Pair p drives FLT_STATE (R313); an output that it makes active rises only after its dead time. -/
def pwmFault (p : Nat) (d : Dev) : Dev :=
  let x := getPwm d p
  let st := rf d (PWM_CFG p) PWM_CFG_FLT_STATE
  let now := d.tb
  let aDown := { x with flt := true, a := false, aRise := none, aFell := if x.a then now else x.aFell }
  let bDown (x : Pwm) : Pwm := { x with flt := true, b := false, bRise := none, bFell := if x.b then now else x.bFell }
  let y :=
    if st = 1 then
      let z := bDown x
      let t := z.bFell + rf d (PWM_DT p) PWM_DT_DTR * effAddend d
      if z.a then { z with aRise := none } else if t ≤ now then { z with a := true, aRise := none } else { z with aRise := some t }
    else if st = 2 then
      let z := aDown
      let t := z.aFell + rf d (PWM_DT p) PWM_DT_DTF * effAddend d
      if z.b then { z with bRise := none } else if t ≤ now then { z with b := true, bRise := none } else { z with bRise := some t }
    else bDown aDown
  let d1 := wf (PWM_STAT p) PWM_STAT_FLT_ACTIVE 1 (setPwm p y d)
  if rb d (PWM_CFG p) PWM_CFG_LATCH then detectFault (fnPwm p) 2 d1 else d1

/-- What fault inputs do that have become active since they were last looked at: EVT, and FLT_STATE on every pair that they map to and that is
RUNNING or STOPPING (R313). -/
def fltSync (d : Dev) : Dev :=
  let on := (List.range 8).filter (fltOn d)
  if on = d.stp.fltOn then d
  else
    forEach (on.filter (fun g => !d.stp.fltOn.contains g)) (fun g d =>
      let d1 := wf PWM_FLT_STAT ⟨8 + g, 8 + g⟩ 1 d
      if rb d (PWM_FLT_CFG g) PWM_FLT_CFG_EN then
        forUpTo 48 (fun p d =>
          if fnActive d (fnPwm p) && bitOf (rd d (PWM_FLT_CFG g)) (rf d (PWM_CFG p) PWM_CFG_FLT_GRP) then pwmFault p d else d) d1
      else d1) { d with stp := { d.stp with fltOn := on } }

/-- Pair p becomes RUNNING in the COMMIT phase of tick n (R314), with the duty fraction that it holds (R332). -/
def pwmEnable (n p : Nat) (d : Dev) : Dev :=
  let t := (n + 1) * tickP d
  let x := getPwm d p
  let t0 := t + rf d (PWM_PHASE p) PWM_PHASE_VALUE * effAddend d
  let at_ := if pwmAlign d p then
      let pp := tickP d
      let k := pwmDiv d p
      -- the first boundary at or after that instant
      (t0 / pp) * pp + ((t0 % pp * k + pp - 1) / pp * pp + k - 1) / k
    else t0
  let d1 := setPwm p { x with start := some at_, run := false, edges := [], carry := none, gap := false, judged := false, a := false, b := false,
                              aRise := none, bRise := none, ref := false, flt := false } d
  let d2 := match x.duty with
    | some f => if rb d (PWM_CFG p) PWM_CFG_CMP_SRC then
        let e := pwmStage p f d1
        pwmPendFlag p (setPwm p { getPwm e p with pend := some (rf e (PWM_PER p) PWM_PER_VALUE, rf e (PWM_CMP p) PWM_CMP_VALUE, t) } e) else d1
    | none => d1
  if fltActive d2 p then pwmFault p d2 else d2

/-- DISABLE: the stop ends with the period in progress; without one at once. -/
def pwmDisable (p : Nat) (d : Dev) : Dev :=
  let x := getPwm d p
  if x.run then d else stopDone (fnPwm p) (setPwm p { x with start := none } d)

/-- The pair leaves RUNNING and STOPPING, outputs inactive (R101, R314). -/
def pwmLeave (p : Nat) (d : Dev) : Dev :=
  wf (PWM_STAT p) PWM_STAT_FLT_ACTIVE 0
    (setPwm p { getPwm d p with start := none, run := false, edges := [], carry := none, a := false, b := false, aRise := none,
                                bRise := none, ref := false, flt := false } d)

/-- FAULTED with FAULT_INPUT keeps FLT_STATE (R313); any other fault has no output. -/
def pwmFaulted (p code : Nat) (d : Dev) : Dev :=
  if code = 2 then setPwm p { getPwm d p with start := none, run := false, edges := [], carry := none } d else pwmLeave p d

end Sys2Proof.Machine
end

