-- ==== Sys2Proof/Machine/Lpe.lean ====
section
/-! DEFINITION. The loop engine (spec/10): sources, the control law in binary32, modes and handover, supervision, outputs, trace. -/
namespace Sys2Proof.Machine
open Sys2Proof Sys2Proof.Reg

def getSlot (d : Dev) (s : Nat) : Slot :=
  match smGet d.lpe.slots s with
  | some x => x
  | none => {}

def setSlot (s : Nat) (x : Slot) (d : Dev) : Dev := { d with lpe := { d.lpe with slots := smPut d.lpe.slots s x } }

def fnSlot (s : Nat) : Nat := 0x100 + s

/-- The included slots, ascending. -/
def inclSlots (d : Dev) : List Nat :=
  d.fns.filterMap (fun e => if e.2.included && decide (0x100 ≤ e.1 ∧ e.1 < 0x500) then some (e.1 - 0x100) else none)

/-- The slots that are RUNNING or STOPPING, ascending. -/
def liveSlots (d : Dev) : List Nat :=
  d.fns.filterMap (fun e => match e.2.state with
    | .running | .stopping => if 0x100 ≤ e.1 ∧ e.1 < 0x500 then some (e.1 - 0x100) else none
    | _ => none)

def slotRate (d : Dev) (s : Nat) : Nat := rf d (LPE_SLOT_CFG s) LPE_SLOT_CFG_RATE
def slotLevel (d : Dev) (s : Nat) : Nat := rf d (LPE_SLOT_CFG s) LPE_SLOT_CFG_LEVEL

/-- Is slot s due in tick n (R318)? -/
def slotDue (d : Dev) (n s : Nat) : Bool :=
  n % 2 ^ slotRate d s == rf d (LPE_SLOT_CFG s) LPE_SLOT_CFG_PHASE

/-- dt and inv_dt of slot s (R318): the step period in half ns, at 10^9 ns in a second. -/
def slotHalfNs (d : Dev) (s : Nat) : Nat := 15625 * 2 ^ (periodCode d + slotRate d s)
def slotDt (d : Dev) (s : Nat) : F32 := fOfRat (slotHalfNs d s) 2000000000
def slotInvDt (d : Dev) (s : Nat) : F32 := fOfRat 2000000000 (slotHalfNs d s)

/-- A coefficient in force. -/
def coef (d : Dev) (off : Nat) : F32 := cur d off

/-! ### Sources (R321..R323) -/

/-- A source's value: binary32, the exact value with its format (1 axis 32.32, 2 web nm) where it is of position kind, and
whether it is stale. -/
structure SrcVal where
  f : F32
  exact : Option (Nat × Int) := none
  stale : Bool := false
  deriving DecidableEq, Repr, Inhabited

/-- The output of a slot as another slot reads it (R322). -/
def slotOutput (d : Dev) (s src : Nat) : F32 :=
  let x := getSlot d src
  if slotLevel d src < slotLevel d s then (match x.out with | some o => o.u | none => x.u) else x.u

/-- The value that source word `w` gives to slot s. -/
def readSrc (d : Dev) (s : Nat) (w : Word) : SrcVal :=
  let i := fget w LPE_SLOT_SRC_Y_INDEX
  let fld := fget w LPE_SLOT_SRC_Y_FIELD
  match fget w LPE_SLOT_SRC_Y_KIND with
  | 1 => ⟨cur d (LPE_SLOT_SP_VAL s), none, false⟩
  | 2 => ⟨slotOutput d s i, none, !fnIs d (fnSlot i) .running⟩
  | 3 =>
    let st := fnIs d i .off || fnIs d i .faulted
    if fld = 0 then
      let p := rdI64 d (FBK_POS_LO i) (FBK_POS_HI i)
      ⟨fOfFix p, some (1, p), st⟩
    else ⟨rd d (FBK_SPEED i), none, st⟩
  | 4 =>
    let st := !chanRuns d i
    if fld = 0 then
      let p := rdI64 d (WPU_CH_POS_LO i) (WPU_CH_POS_HI i)
      ⟨fOfInt p, some (2, p), st⟩
    else if fld = 1 then ⟨fOfFix (rdI64 d (WPU_CH_VEL_LO i) (WPU_CH_VEL_HI i)), none, st⟩
    else ⟨fOfFix (rdI64 d (WPU_CH_ACC_LO i) (WPU_CH_ACC_HI i)), none, st⟩
  | 5 =>
    if fld = 0 then
      let p := rdI64 d (MPG_POS_LO i) (MPG_POS_HI i)
      ⟨fOfFix p, some (1, p), false⟩
    else if fld = 1 then ⟨fOfFix (rdI64 d (MPG_VEL_LO i) (MPG_VEL_HI i)), none, false⟩
    else ⟨fOfFix (rdI64 d (MPG_ACC_LO i) (MPG_ACC_HI i)), none, false⟩
  | 6 => match smGet d.lpe.sarIn i with | some (v, st) => ⟨fOfInt v, none, st⟩ | none => ⟨0#32, none, true⟩
  | 7 => match smGet d.lpe.sdIn i with | some (v, st) => ⟨fOfInt v, none, st⟩ | none => ⟨0#32, none, true⟩
  | 8 => match smGet d.lpe.flkIn i with | some (v, st) => ⟨fOfInt v, none, st⟩ | none => ⟨0#32, none, true⟩
  | 9 =>
    match smGet d.lpe.drvIn i with
    | some v => if fld = 0 then ⟨fOfFix v.pos, some (1, v.pos), v.stale⟩ else ⟨if fld = 1 then v.vel else v.trq, none, v.stale⟩
    | none => ⟨0#32, if fld = 0 then some (1, 0) else none, false⟩
  | 10 => ⟨(match smGet d.lpe.mboxIn i with | some v => v | none => 0#32), none, false⟩
  | _ => ⟨0#32, none, false⟩

/-! ### The law (R326..R330) -/

/-- The set-point limiter (R327): r_lim and v_lim. -/
def limiter (r rmax sacc dt invDt rlim vlim : F32) : F32 × F32 :=
  if fEq rmax 0#32 then (r, 0#32)
  else
    let dr := fSub r rlim
    let vmax := if fNe sacc 0#32 then fMin rmax (fSqrt (fMul (fMul 0x40000000#32 sacc) (fAbs dr))) else rmax
    let vd := fMul (fSgn dr) vmax
    let v := if fEq sacc 0#32 then vd
      else fAdd vlim (fClamp (fSub vd vlim) (fNegate (fMul sacc dt)) (fMul sacc dt))
    let st := fMul v dt
    if fNe dr 0#32 && fEq (fSgn st) (fSgn dr) && fGe (fAbs st) (fAbs dr) then (r, fMul dr invDt)
    else (fAdd rlim st, v)

/-- The gain lookup (R328). -/
def lookupGain (d : Dev) (t : Nat) (x : F32) : F32 :=
  let inv := fDiv 0x42000000#32 (cur d (LPE_GTBL_XSPAN t))
  let u := fMul x inv
  -- a NaN faults the step, whatever is made of it (R326)
  if fIsNan u then u
  else if !fLt u 0x42000000#32 then cur d (LPE_GTBL t 32)
  else
    let j := (fTruncScaled u 0 0).toNat
    let f := fSub u (fOfInt j)
    let g := cur d (LPE_GTBL t j)
    fAdd g (fMul f (fSub (cur d (LPE_GTBL t (j + 1))) g))

/-- The gain g of slot s (R328). -/
def slotGain (d : Dev) (s : Nat) (e y rlim : F32) : F32 :=
  let c := LPE_SLOT_GAIN s
  if cb d c LPE_SLOT_GAIN_GEN then
    let x := match cf d c LPE_SLOT_GAIN_GIN with
      | 0 => e
      | 1 => y
      | 2 => (match smGet d.lpe.mboxIn (cf d c LPE_SLOT_GAIN_MBOX) with | some v => v | none => 0#32)
      | _ => rlim
    lookupGain d (cf d c LPE_SLOT_GAIN_TBL) (fAbs x)
  else fOne

/-- The inner slot of a cascade: the included slot whose SRC_SP names s (R333). -/
def innerSlot (d : Dev) (s : Nat) : Option Nat :=
  (inclSlots d).find? (fun k =>
    fget (rd d (LPE_SLOT_SRC_SP k)) LPE_SLOT_SRC_Y_KIND == 2 && fget (rd d (LPE_SLOT_SRC_SP k)) LPE_SLOT_SRC_Y_INDEX == s)

/-- hold_casc of R334 for an increment. -/
def holdCasc (d : Dev) (s : Nat) (inc : F32) : Bool :=
  cb d (LPE_SLOT_CFG s) LPE_SLOT_CFG_CASC_AW &&
  match innerSlot d s with
  | some k =>
    rb d (LPE_SLOT_STAT k) LPE_SLOT_STAT_SAT_HI && fGt inc 0#32 || rb d (LPE_SLOT_STAT k) LPE_SLOT_STAT_SAT_LO && fLt inc 0#32
  | none => false

/-- Does slot s run in track: its inner slot is in MANUAL or not RUNNING (R334)? -/
def tracks (d : Dev) (s : Nat) : Option Nat :=
  if cb d (LPE_SLOT_CFG s) LPE_SLOT_CFG_CASC_AW then
    match innerSlot d s with
    | some k => if rb d (LPE_SLOT_STAT k) LPE_SLOT_STAT_MANUAL || !fnIs d (fnSlot k) .running then some k else none
    | none => none
  else none

/-- clamp(BIAS, OMIN, OMAX). -/
def slotBias (d : Dev) (s : Nat) : F32 :=
  fClamp (coef d (LPE_SLOT_BIAS s)) (coef d (LPE_SLOT_OMIN s)) (coef d (LPE_SLOT_OMAX s))

/-- The supervisor of R339: cnt, the prediction it leaves, and whether it trips. -/
def supervise (d : Dev) (s : Nat) (suspended : Bool) (y e u dt yhat : F32) (cnt : Nat) : Nat × F32 × Bool × F32 :=
  let c := LPE_SLOT_SUP s
  let model := cf d c LPE_SLOT_SUP_MODEL
  let feTime := cf d c LPE_SLOT_SUP_FE_TIME
  let dv := fSub y yhat
  let band := coef d (LPE_SLOT_BAND s)
  let fe := fGt (fAbs e) (coef d (LPE_SLOT_FE_LIM s))
  let pb := model == 0 || fGt (fAbs dv) band
  let n1 := if fe && pb then min (cnt + 1) 255 else cnt - 1
  let n2 := if fe && model != 0 && fGt (fAbs dv) (fMul 0x41800000#32 band) then max n1 feTime else n1
  let trip := !suspended && feTime != 0 && decide (feTime ≤ n2)
  let n3 := if suspended ∨ trip then 0 else n2
  let y1 := fAdd yhat (fMul (coef d (LPE_SLOT_LM s)) dv)
  let m := fSub u (coef d (LPE_SLOT_BIAS s))
  let km := fMul (coef d (LPE_SLOT_KM s)) m
  let tm := coef d (LPE_SLOT_TM s)
  let a := if fEq tm 0#32 then fOne else fMin fOne (fDiv dt tm)
  let y2 := if model = 1 then fAdd y1 (fMul a (fSub km y1)) else if model = 2 then fAdd y1 (fMul km dt) else y1
  (n3, y2, trip, dv)

/-- Two sources form a position pair (R324). -/
def pairOf (r y : SrcVal) : Option Int :=
  match r.exact, y.exact with
  | some (fr, a), some (fy, b) => if fr = fy then some (wrap64 (a - b)) else none
  | _, _ => none

/-- An exact position difference as binary32, by its format. -/
def fDiff (fmt : Nat) (z : Int) : F32 := if fmt = 1 then fOfFix z else fOfInt z

/-- Is a source of slot s stale (R321, R325)? -/
def slotStale (d : Dev) (s : Nat) : Bool :=
  [LPE_SLOT_SRC_SP s, LPE_SLOT_SRC_Y s, LPE_SLOT_SRC_FF s].any (fun o => (readSrc d s (rd d o)).stale)

/-- One evaluated step of a RUNNING slot (R325..R339): the slot after it, or the fault code. -/
def slotLaw (d : Dev) (s : Nat) (x0 : Slot) : Except Nat Slot :=
  let rv := readSrc d s (rd d (LPE_SLOT_SRC_SP s))
  let yv := readSrc d s (rd d (LPE_SLOT_SRC_Y s))
  let fv := readSrc d s (rd d (LPE_SLOT_SRC_FF s))
  let stale := slotStale d s
  if stale && cb d (LPE_SLOT_SUP s) LPE_SLOT_SUP_IN_ACT then .error 3
  else if !(fFinite rv.f && fFinite yv.f && fFinite fv.f) then .error 2
  else
    let k (off : Nat) : F32 := coef d off
    let r := fFlush rv.f
    let y := fFlush yv.f
    let ff := fFlush fv.f
    let dt := slotDt d s
    let invDt := slotInvDt d s
    let cfg := LPE_SLOT_CFG s
    let rmax := k (LPE_SLOT_RMAX s)
    let omin := k (LPE_SLOT_OMIN s)
    let omax := k (LPE_SLOT_OMAX s)
    let imin := k (LPE_SLOT_IMIN s)
    let imax := k (LPE_SLOT_IMAX s)
    let bias := k (LPE_SLOT_BIAS s)
    let ki := k (LPE_SLOT_KI s)
    -- R337: the first step after ENABLE
    let x := if x0.first then
        { x0 with dd := 0, rlim := if fEq rmax 0#32 then x0.rlim else y, vlim := 0, yhat := y, cnt := 0 } else x0
    let pair := pairOf rv yv
    let (rlim, vlim) := match pair with
      | some _ => (r, 0#32)
      | none => limiter r rmax (k (LPE_SLOT_SACC s)) dt invDt x.rlim x.vlim
    let yfmt := match yv.exact with | some (f, _) => f | none => 0
    let yx := match yv.exact with | some (_, b) => b | none => 0
    let e := match pair with
      | some z => fDiff yfmt z
      | none => fSub rlim y
    let g := slotGain d s e y rlim
    let gc := LPE_SLOT_GAIN s
    let gp := if cb d gc LPE_SLOT_GAIN_G_P then g else fOne
    let gi := if cb d gc LPE_SLOT_GAIN_G_I then g else fOne
    let gd := if cb d gc LPE_SLOT_GAIN_G_D then g else fOne
    let ePrev := if x.first then e else x.ePrev
    let dy := if x.first then 0#32
      else if yv.exact.isSome then fDiff yfmt (wrap64 (yx - x.yExact)) else fSub y x.yPrev
    let p := fMul (fMul (k (LPE_SLOT_KP s)) gp) e
    let din := if cb d cfg LPE_SLOT_CFG_D_ON_E then fSub e ePrev else fNegate dy
    let dterm := fMul (fMul (fMul (k (LPE_SLOT_KD s)) gd) din) invDt
    let dd := fAdd x.dd (fMul (k (LPE_SLOT_DFILT s)) (fSub dterm x.dd))
    let ffv := fMul (k (LPE_SLOT_KFF s)) ff
    let inc0 := fMul (fMul (fMul ki gi) e) dt
    let rest := fAdd (fAdd (fAdd p dd) ffv) bias
    let manual := cb d (LPE_SLOT_CTRL s) LPE_SLOT_CTRL_MODE
    let trackBy := if manual then none else tracks d s
    let track := trackBy.isSome
    let event := x.first || manual != x.manual || track != x.track || x.lawChanged
    let ho := cf d cfg LPE_SLOT_CFG_HO_STEPS
    -- the ramp (R336)
    let hcnt := if event then ho else x.hcnt - 1
    let h := if event || hcnt == 0 then 0#32
      else fMul x.delta (fDiv (fOfInt hcnt) (fOfInt x.hlen))
    let auto := !manual && !track
    let law := fFlush (match trackBy with
      | some inner => (readSrc d inner (rd d (LPE_SLOT_SRC_Y inner))).f
      | none => cur d (LPE_SLOT_MAN_OUT s))
    -- the integrator
    let uTry := fAdd (fAdd (fAdd (fAdd (fAdd p (fAdd x.i inc0)) dd) ffv) bias) h
    let aw := cf d cfg LPE_SLOT_CFG_AW_MODE
    let inc1 := if aw = 1 ∧ (fGt uTry omax && fGt inc0 0#32 || fLt uTry omin && fLt inc0 0#32) then 0#32 else inc0
    let inc := if holdCasc d s inc1 then 0#32 else inc1
    let preload (target : F32) : F32 := if fNe ki 0#32 then fSub target rest else 0#32
    let iNew := if auto then (if event then preload x.u else fAdd x.i inc) else preload law
    let i1 := if auto && event && fEq ki 0#32 || !auto && fEq ki 0#32 then 0#32 else fClamp iNew imin imax
    let iClamp := fNe i1 iNew && !fIsNan iNew
    let uLaw := if auto then fAdd (fAdd (fAdd (fAdd p i1) dd) ffv) bias else law
    let delta := if event then fSub x.u uLaw else x.delta
    let uRaw := if event then (if ho = 0 then uLaw else x.u) else fAdd uLaw h
    let u := fClamp uRaw omin omax
    let i2 := if auto && aw == 2 then
        fClamp (fAdd i1 (fMul (fMul (k (LPE_SLOT_KAW s)) (fSub u uRaw)) dt)) imin imax else i1
    let iClamp2 := auto && aw == 2 && fNe i2 (fAdd i1 (fMul (fMul (k (LPE_SLOT_KAW s)) (fSub u uRaw)) dt))
    let ramp := (if event then ho != 0 else hcnt != 0)
    let yh := if x.resetSup then y else x.yhat
    let c0 := if x.resetSup then 0 else x.cnt
    let (cnt, yhat, trip, dv) := supervise d s (!auto || ramp) y e u dt yh c0
    let all := [rlim, vlim, e, g, p, din, dterm, dd, ffv, inc0, i1, i2, uLaw, uRaw, u, h, yhat, dv, iNew, delta]
    if all.any fIsNan || (auto && aw == 1 && fIsNan uTry) then .error 2
    else .ok { x with
      i := i2, dd := dd, rlim := rlim, vlim := vlim, yhat := yhat, cnt := cnt, ePrev := e, yPrev := y, yExact := yx,
      first := false, manual := manual, track := track, lawChanged := false, hcnt := hcnt, hlen := if event then ho else x.hlen,
      delta := delta, resetSup := false,
      out := some { u := u, i := i2, rlim := rlim, y := y, yhat := yhat, e := e, satHi := fGt uRaw omax, satLo := fLt uRaw omin,
                    manual := manual, track := track, handover := ramp, stale := stale, iClamp := iClamp || iClamp2, trip := trip,
                    cnt := cnt, nodes := [r, rlim, y, e, g, p, i2, dd, ffv, uLaw, h, u, yhat, dv] } }

/-- One step of a stop ramp (R338); the last one delivers the end value exactly (log entry 44). -/
def slotStop (d : Dev) (s : Nat) (x : Slot) : Slot × Bool :=
  let ho := cf d (LPE_SLOT_CFG s) LPE_SLOT_CFG_HO_STEPS
  let b := slotBias d s
  let j := x.stopJ + 1
  let last := decide (ho ≤ j)
  let u := if last then b
    else fAdd x.stopU (fMul (fSub b x.stopU) (fDiv (fOfInt j) (fOfInt ho)))
  ({ x with stopJ := j, out := some { u := u, law := false } }, last)

/-- A supervision trip (R340). -/
def slotTrip (s : Nat) (e : F32) (d : Dev) : Dev :=
  let d1 := trigger 0x20 0x28 [s, e.toNat] (wf (LPE_TRIP (s / 32)) ⟨s % 32, s % 32⟩ 1 d)
  match cf d1 (LPE_SLOT_SUP s) LPE_SLOT_SUP_ACT with
  | 1 => postOperand (0x400 + s) e d1
  | 2 => detectFault (fnSlot s) 1 d1
  | _ => d1

/-- Has the state of slot s shown an uncorrectable error in this tick (R342)? -/
def slotEcc (d : Dev) (s : Nat) : Bool := match smGet d.ffaults (fnSlot s) with | some e => e.1 == 4 | none => false

/-- The step of slot s in COMPUTE of tick n. -/
def slotStep (s : Nat) (d : Dev) : Dev :=
  let x := getSlot d s
  let d0 := { d with sch := { d.sch with loopSteps := d.sch.loopSteps + 1 } }
  if slotEcc d s then d0
  else if fnIs d (fnSlot s) .stopping then
    let (y, last) := slotStop d s x
    let d1 := setSlot s y d0
    if last then stopDone (fnSlot s) d1 else d1
  else
    match slotLaw d s x with
    | .error c =>
      -- of a step that faults only the two stale flags are left (R325)
      setSlot s { x with out := some { u := x.u, law := false, stale := slotStale d s } } (detectFault (fnSlot s) c d0)
    | .ok y =>
      let d1 := setSlot s y d0
      match y.out with
      | none => d1
      | some o =>
        let d2 := if o.trip then slotTrip s o.e d1 else d1
        if rb d2 (LPE_SLOT_CFG s) LPE_SLOT_CFG_OPERAND then postOperand s o.u d2 else d2

/-- The due slots of a list whose state shows an uncorrectable error: they fault and do not step (R48, R342). -/
def slotsEcc (ecc : List Nat) (n : Nat) (d : Dev) : Dev :=
  forEach (ecc.filter (fun s => (liveSlots d).contains s && slotDue d n s)) (fun s d => detectFault (fnSlot s) 4 (eccRecord 0x28 d)) d

/-- COMPUTE of tick n: the due slots level by level, ascending within a level (R319). -/
def lpeCompute (n : Nat) (d : Dev) : Dev :=
  let due := (liveSlots d).filter (slotDue d n)
  forUpTo 8 (fun l d => forEach (due.filter (fun s => slotLevel d s == l)) slotStep d) d

/-! ### Delivery (R331, R332) -/

/-- A value delivered to the destination of slot s, which holds it and, where it is RUNNING, uses it. -/
def deliver (s : Nat) (u : F32) (d : Dev) : Dev :=
  let w := rd d (LPE_SLOT_DST s)
  let i := fget w LPE_SLOT_DST_INDEX
  let d1 := wr (LPE_SLOT_U s) u (setSlot s { getSlot d s with u := u } d)
  match fget w LPE_SLOT_DST_KIND with
  | 1 => pwmDuty i u d1
  | 2 => stpFrac i u d1
  | 3 => barStretch i (fRoundScaled (if fIsNan u then 0#32 else u) 0 4294967296) d1
  | _ => d1

/-- The included slot that names a destination. -/
def slotFor (d : Dev) (kind idx : Nat) : Option Nat :=
  (inclSlots d).find? (fun s =>
    fget (rd d (LPE_SLOT_DST s)) LPE_SLOT_DST_KIND == kind && fget (rd d (LPE_SLOT_DST s)) LPE_SLOT_DST_INDEX == idx)

/-! ### Trace (R344, R345) -/

def getTrc (d : Dev) (t : Nat) : Trc :=
  match smGet d.lpe.trc t with
  | some x => x
  | none => {}

def setTrc (t : Nat) (x : Trc) (d : Dev) : Dev := { d with lpe := { d.lpe with trc := smPut d.lpe.trc t x } }

/-- Does unit t record now? -/
def trcOn (d : Dev) (t : Nat) : Bool := fget (getTrc d t).cfg LPE_TRC_CFG_EN == 1 && !rb d (LPE_TRC_STAT t) LPE_TRC_STAT_DONE

/-- Bytes written to the region of unit t at its write pointer, after a wrap if they do not fit. -/
def trcPut (t : Nat) (words : List Nat) (d : Dev) : Dev :=
  let x := getTrc d t
  let bytes := words.foldr (fun w acc => leBytes 4 w ++ acc) []
  let size := 2 ^ x.size
  let w := (rd d (LPE_TRC_WPTR t)).toNat
  if w + bytes.length ≤ size then
    wr (LPE_TRC_WPTR t) (BitVec.ofNat 32 (w + bytes.length)) (memPut (x.base + w) bytes d)
  else
    let d1 := if w + 4 ≤ size then memPut (x.base + w) (leBytes 4 0xFFFFFFFF) d else d
    wr (LPE_TRC_WPTR t) (BitVec.ofNat 32 bytes.length)
      (memPut x.base bytes (wf (LPE_TRC_STAT t) LPE_TRC_STAT_WRAPPED 1 d1))

/-- The offset at which a record of `len` bytes would lie. -/
def trcOffset (d : Dev) (t len : Nat) : Nat :=
  let w := (rd d (LPE_TRC_WPTR t)).toNat
  if w + len ≤ 2 ^ (getTrc d t).size then w else 0

/-- The trigger of unit t at a record offset. -/
def trcTrigger (t off : Nat) (d : Dev) : Dev :=
  if rb d (LPE_TRC_STAT t) LPE_TRC_STAT_TRIGGERED || !trcOn d t then d
  else
    let x := getTrc d t
    let d1 := wr (LPE_TRC_TRIGPTR t) (BitVec.ofNat 32 off) (wf (LPE_TRC_STAT t) LPE_TRC_STAT_TRIGGERED 1 (setTrc t { x with left := x.post } d))
    if x.post = 0 then wf (LPE_TRC_STAT t) LPE_TRC_STAT_DONE 1 d1 else d1

/-- The words of the record of a step in tick n. -/
def trcWords (n s mask : Nat) (o : SlotOut) (stat : Nat) : List Nat :=
  let nodes := o.nodes.map (·.toNat) ++ [stat % 65536, o.cnt]
  (s * 4194304 + n % 4194304) :: ((List.range 16).filterMap (fun b => if mask.testBit b then nodes[b]? else none))

/-- The record of an evaluated step of slot s in tick n, after its COMMIT instant, in each unit that traces the slot. A unit of `lpe.late`
cannot write its record before the next COMMIT instant: the record is dropped, and LOST counts it (R344). -/
def trcStep (n s : Nat) (o : SlotOut) (d : Dev) : Dev :=
  forUpTo 16 (fun t d =>
    let x := getTrc d t
    if trcOn d t && fget x.cfg LPE_TRC_CFG_SLOT == s then
      let ws := trcWords n s (fget x.cfg LPE_TRC_CFG_NODES) o (rd d (LPE_SLOT_STAT s)).toNat
      let off := trcOffset d t (4 * ws.length)
      let was := rb d (LPE_TRC_STAT t) LPE_TRC_STAT_TRIGGERED
      let lost := d.lpe.late.contains t
      let d1 := if lost then bump (LPE_TRC_STAT t) LPE_TRC_STAT_LOST d else trcPut t ws d
      let d2 := if fget x.cfg LPE_TRC_CFG_TRIG = 1 ∧ o.trip ∨ fget x.cfg LPE_TRC_CFG_TRIG = 2 ∧ faultWaits d1 (fnSlot s) then trcTrigger t off d1 else d1
      if was && !lost then
        let n := x.left - 1
        let d3 := setTrc t { x with left := n } d2
        if n = 0 then wf (LPE_TRC_STAT t) LPE_TRC_STAT_DONE 1 d3 else d3
      else d2
    else d) d

/-- The fault of slot s is the trigger of the units with TRIG = 2. -/
def trcFault (s : Nat) (d : Dev) : Dev :=
  forUpTo 16 (fun t d =>
    let x := getTrc d t
    if fget x.cfg LPE_TRC_CFG_SLOT = s ∧ fget x.cfg LPE_TRC_CFG_TRIG = 2 then trcTrigger t (rd d (LPE_TRC_WPTR t)).toNat d else d) d

/-- Does the region of unit t allow EN (R345)? -/
def trcRegionOk (d : Dev) (t : Nat) : Bool :=
  let size := rf d (LPE_TRC_CTRL t) LPE_TRC_CTRL_SIZE_LOG2
  let base := (rd d (LPE_TRC_BASE t)).toNat
  decide (10 ≤ size ∧ size ≤ 20 ∧ 0x30000000 ≤ base ∧ base + 2 ^ size ≤ 0x30400000) &&
  !((List.range 16).any (fun k => k != t && fget (getTrc d k).cfg LPE_TRC_CFG_EN == 1 &&
      decide ((getTrc d k).base < base + 2 ^ size ∧ base < (getTrc d k).base + 2 ^ (getTrc d k).size)))

/-- Recording restarts at BASE. -/
def trcRestart (t : Nat) (d : Dev) : Dev :=
  let s := LPE_TRC_STAT t
  wr (LPE_TRC_WPTR t) 0 (wf s LPE_TRC_STAT_DONE 0 (wf s LPE_TRC_STAT_TRIGGERED 0 (wf s LPE_TRC_STAT_WRAPPED 0 d)))

/-- A written configuration or command takes effect at a tick start. -/
def trcTick1 (t : Nat) (d : Dev) : Dev :=
  let x := getTrc d t
  if !(x.dirty || x.trigger || x.rearm) then d
  else
    let cfg := rd d (LPE_TRC_CFG t)
    let on := fget cfg LPE_TRC_CFG_EN = 1
    let was := fget x.cfg LPE_TRC_CFG_EN = 1
    let bad := x.dirty && decide (on ∧ ¬ was) && !trcRegionOk d t
    let cfg' := if bad then fset cfg LPE_TRC_CFG_EN 0 else cfg
    let d1 := if bad then wf (LPE_TRC_STAT t) LPE_TRC_STAT_BAD_REGION 1 (wr (LPE_TRC_CFG t) cfg' d) else d
    let y := { x with cfg := if x.dirty then cfg' else x.cfg, base := (rd d (LPE_TRC_BASE t)).toNat,
                      size := rf d (LPE_TRC_CTRL t) LPE_TRC_CTRL_SIZE_LOG2, post := rf d (LPE_TRC_CTRL t) LPE_TRC_CTRL_POST,
                      dirty := false, trigger := false, rearm := false }
    let d2 := setTrc t y d1
    let d3 := if x.dirty && decide (on ∧ ¬ was) && !bad || x.rearm then trcRestart t d2 else d2
    if x.trigger && fget y.cfg LPE_TRC_CFG_TRIG == 3 then trcTrigger t (rd d3 (LPE_TRC_WPTR t)).toNat d3 else d3

/-- LPE_TRCt_CTRL.CMD. -/
def trcCmd (t cmd : Nat) (d : Dev) : Dev :=
  let x := { getTrc d t with dirty := true }
  setTrc t (if cmd = 1 then { x with trigger := true } else if cmd = 2 then { x with rearm := true } else x) d

/-! ### Ticks -/

/-- SAMPLE of tick n: mailboxes latched; trace configuration in force. -/
def lpeSample (d : Dev) : Dev :=
  let mb := d.regs.filterMap (fun e => if 0x28800 ≤ e.1 ∧ e.1 < 0x28C00 then some ((e.1 - 0x28800) / 4, e.2) else none)
  forUpTo 16 trcTick1 { d with lpe := { d.lpe with mboxIn := mb } }

/-- The COMMIT instant of a slot that stepped in tick n (R346): its registers, its destination, its trace records. -/
def slotCommit (n s : Nat) (d : Dev) : Dev :=
  let x := getSlot d s
  match x.out with
  | none => d
  | some o =>
    let d1 := setSlot s { x with out := none } d
    -- a slot that faults in this tick delivers the value of FLT_OUT instead (R342)
    let d2 := if faultWaits d1 (fnSlot s) then d1 else deliver s o.u d1
    let st := LPE_SLOT_STAT s
    if !o.law then (if o.stale then wf st LPE_SLOT_STAT_STALE_EVT 1 (wf st LPE_SLOT_STAT_IN_STALE 1 d2) else d2)
    else
      let d3 := wf st LPE_SLOT_STAT_SUP_CNT o.cnt (wb st LPE_SLOT_STAT_SAT_HI o.satHi (wb st LPE_SLOT_STAT_SAT_LO o.satLo
        (wb st LPE_SLOT_STAT_MANUAL o.manual (wb st LPE_SLOT_STAT_TRACK o.track (wb st LPE_SLOT_STAT_HANDOVER o.handover
        (wb st LPE_SLOT_STAT_IN_STALE o.stale d2))))))
      let d4 := if o.stale then wf st LPE_SLOT_STAT_STALE_EVT 1 d3 else d3
      let d5 := if o.iClamp then wf st LPE_SLOT_STAT_I_CLAMP 1 d4 else d4
      let d6 := if o.trip then bump st LPE_SLOT_STAT_TRIPS (wf st LPE_SLOT_STAT_SUP_TRIP 1 d5) else d5
      let d7 := wr (LPE_SLOT_R s) o.rlim (wr (LPE_SLOT_I s) o.i (wr (LPE_Y s) o.y (wr (LPE_YHAT s) o.yhat (wr (LPE_E s) o.e d6))))
      trcStep n s o d7

/-- A slot whose fault takes effect at the COMMIT instant of tick n delivers the value of FLT_OUT there, once (R341, R342). -/
def slotFltOut (n s : Nat) (d : Dev) : Dev :=
  let d1 := setSlot s { getSlot d s with fltTick := some n } d
  match cf d1 (LPE_SLOT_SUP s) LPE_SLOT_SUP_FLT_OUT with
  | 0 => d1
  | 1 => deliver s (slotBias d1 s) d1
  | 2 => deliver s (coef d1 (LPE_SLOT_OMIN s)) d1
  | _ => deliver s (coef d1 (LPE_SLOT_OMAX s)) d1

/-- The slots whose faults wait for this COMMIT instant. -/
def slotsFault (d : Dev) : List Nat :=
  (smKeys d.ffaults).filterMap (fun x =>
    if 0x100 ≤ x ∧ x < 0x500 then
      (match (getFn d x).state with
       | .armed | .running | .stopping => some (x - 0x100)
       | _ => none)
    else none)

def lpeCommit (n : Nat) (d : Dev) : Dev :=
  let ss := d.lpe.slots.filterMap (fun e => if e.2.out.isSome then some e.1 else none)
  forEach (slotsFault d) (slotFltOut n) (forEach ss (slotCommit n) d)

/-- CMD RESET_SUP transfers at COMMIT (R339). -/
def lpeResets (d : Dev) : Dev :=
  forEach (smKeys d.lpe.slots) (fun s d =>
    let x := getSlot d s
    if x.resetStaged then setSlot s { x with resetStaged := false, resetSup := true } d else d) d

def slotCmd (s cmd : Nat) (d : Dev) : Dev := if cmd = 1 then setSlot s { getSlot d s with resetStaged := true } d else d

/-! ### Function states (R332, R337, R341, R342) -/

def slotEnable (s : Nat) (d : Dev) : Dev := setSlot s { getSlot d s with first := true, hcnt := 0, out := none } d

def slotDisable (s : Nat) (d : Dev) : Dev :=
  let x := getSlot d s
  setSlot s { x with stopJ := 0, stopU := x.u, hcnt := 0 } (wf (LPE_SLOT_STAT s) LPE_SLOT_STAT_HANDOVER 0 d)

/-- Slot s enters FAULTED (R342); the value of FLT_OUT has been delivered. -/
def slotFaulted (s : Nat) (d : Dev) : Dev :=
  trcFault s (wf (LPE_FLT (s / 32)) ⟨s % 32, s % 32⟩ 1 (setSlot s { getSlot d s with out := none } d))

/-- Slot s leaves FAULTED: its bit is cleared; after an ECC fault its state is 0. -/
def slotCleared (s code : Nat) (d : Dev) : Dev :=
  let d1 := wf (LPE_FLT (s / 32)) ⟨s % 32, s % 32⟩ 0 d
  if code = 4 then
    setSlot s { getSlot d1 s with dd := 0, i := 0, rlim := 0, vlim := 0, yhat := 0, cnt := 0 } d1
  else d1

/-- Is the cause of a fault of slot s still there? -/
def slotCause (d : Dev) (s code : Nat) : Bool :=
  code == 3 && slotStale d s

/-- What destinations hold from the slots of an earlier configuration is gone. -/
def heldNone (d : Dev) : Dev :=
  { d with
    stp := { d.stp with pwm := d.stp.pwm.map (fun e => (e.1, { e.2 with duty := none })), ch := d.stp.ch.map (fun e => (e.1, { e.2 with frac := none })) }
    wpu := { d.wpu with bars := d.wpu.bars.map (fun e => (e.1, { e.2 with held := none })) } }

/-- A configuration becomes armed: every included slot delivers clamp(BIAS, OMIN, OMAX) (R332). -/
def lpeArm (d : Dev) : Dev := forEach (inclSlots d) (fun s d => deliver s (slotBias d s) d) (heldNone d)

/-- The law of slot s as the swap compares it (R336). -/
def lawKey (d : Dev) (s : Nat) : List Word :=
  let g := cur d (LPE_SLOT_GAIN s)
  let base := [cur d (LPE_SLOT_KP s), cur d (LPE_SLOT_KD s), cur d (LPE_SLOT_KFF s), cur d (LPE_SLOT_BIAS s),
    BitVec.ofNat 32 (cf d (LPE_SLOT_CFG s) LPE_SLOT_CFG_D_ON_E), g]
  if fget g LPE_SLOT_GAIN_GEN = 1 then
    let t := fget g LPE_SLOT_GAIN_TBL
    base ++ [cur d (LPE_GTBL_XSPAN t)] ++ (List.range 33).map (fun j => cur d (LPE_GTBL t j))
  else base

/-- After a swap of class LOOP: the included slots whose law changed make a handover at their next due step. -/
def lpeSwapped (old d : Dev) : Dev :=
  forEach (inclSlots d) (fun s d => if lawKey old s = lawKey d s then d else setSlot s { getSlot d s with lawChanged := true } d) d

/-! ### The step budget (R30, R320) -/

/-- Steps per pipeline in COMPUTE. -/
def perPipe (d : Dev) : Nat := (tickP d - 2750 * nsUnits) / (128 * nsUnits)

/-- Σ_L ceil(n_L / 4) for the ticks with n mod 256 = k. -/
def pipeSteps (d : Dev) (incl : List Nat) (k : Nat) : Nat :=
  let due := incl.filter (slotDue d k)
  (List.range 8).foldl (fun acc l => acc + (due.countP (fun s => slotLevel d s == l) + 3) / 4) 0

/-- The largest Σ_L over the 256 phases. -/
def worstSteps (d : Dev) : Nat :=
  let incl := inclSlots d
  if incl.isEmpty then 0 else (List.range 256).foldl (fun m k => max m (pipeSteps d incl k)) 0

/-- LPE_BUDGET written at ARM and at each swap. -/
def lpeBudget (d : Dev) : Dev := wr LPE_BUDGET (BitVec.ofNat 32 (worstSteps d % 65536 * 65536 + perPipe d % 65536)) d

end Sys2Proof.Machine
end

