-- ==== Sys2Proof/Machine/Acq.lean ====
section
/-! DEFINITION. The trigger and acquisition engine (spec/12, R370..R387): channels, mark edges, windows, the sequencer, records. A
record is written once no result in progress can come before it (R377, R381; log entry 60). -/
namespace Sys2Proof.Machine
open Sys2Proof Sys2Proof.Reg

def fnAcq (u : Nat) : Nat := 0x500 + u

def getAcq (d : Dev) (u : Nat) : Acq :=
  match smGet d.acq u with
  | some x => x
  | none => {}

def setAcq (u : Nat) (x : Acq) (d : Dev) : Dev := { d with acq := smPut d.acq u x }

def getAcqCh (x : Acq) (c : Nat) : AcqCh :=
  match smGet x.chans c with
  | some y => y
  | none => {}

def setAcqCh (u c : Nat) (y : AcqCh) (d : Dev) : Dev :=
  let x := getAcq d u
  setAcq u { x with chans := smPut x.chans c y } d

/-- Does unit u record or run its sequencer: RUNNING, or a READY run (R385)? -/
def acqActive (d : Dev) (u : Nat) : Bool :=
  fnIs d (fnAcq u) .running || (rb d (ACQ_STAT u) ACQ_STAT_RUN && fnIs d (fnAcq u) .ready)

def acqStream (d : Dev) (u : Nat) : Bool := !rb d (ACQ_CFG u) ACQ_CFG_MODE
def acqSize (d : Dev) (u : Nat) : Nat := 2 ^ rf d (ACQ_CFG u) ACQ_CFG_SIZE_LOG2
def acqBase (d : Dev) (u : Nat) : Nat := (rd d (ACQ_BASE u)).toNat
def acqPtr (d : Dev) (off : Nat) : Nat := (rd d off).toNat
def setPtr (off n : Nat) (d : Dev) : Dev := wr off (BitVec.ofNat 32 n) d

/-! ### Records (R380..R384) -/

/-- A record: its header and the words behind it. -/
def acqRecord (type src len flags w1 : Nat) (q1 : Nat) (q2 : Option Nat) : List Byte :=
  leBytes 4 (type * 268435456 + src % 256 * 1048576 + len * 65536 + flags) ++ leBytes 4 w1 ++ leBytes 8 q1 ++
  (match q2 with | some v => leBytes 8 v | none => [])

/-- Where a record of `len` bytes goes from write pointer w: its place, and the pointer behind it. -/
def acqPlace (size w len : Nat) : Nat × Nat :=
  let at_ := if size < w + len then 0 else w
  (at_, if at_ + len = size then 0 else at_ + len)

/-- The bytes of the FIFO from RPTR to WPTR. -/
def acqUsed (size r w : Nat) : Nat := (w + size - r) % size

/-- Bytes that records of these lengths take from w on, with the space that a wrap leaves. -/
def acqTake (size : Nat) : Nat → List Nat → Nat
  | _, [] => 0
  | w, l :: t =>
    let (at_, w') := acqPlace size w l
    (if at_ = w then l else size - w + l) + acqTake size w' t

/-- A record written at WPTR, with a WRAP word where it would pass the end (R381). -/
def acqStore (u : Nat) (bytes : List Byte) (isGap : Bool) (d : Dev) : Dev :=
  let size := acqSize d u
  let w := acqPtr d (ACQ_WPTR u)
  let (at_, w') := acqPlace size w bytes.length
  let d1 := if at_ = w then d else memPut (acqBase d u + w) (leBytes 4 0xF0000000) d
  let d2 := setPtr (ACQ_WPTR u) w' (memPut (acqBase d u + at_) bytes d1)
  let d3 := if at_ = w ∧ w' ≠ 0 then d2 else wf (ACQ_STAT u) ACQ_STAT_WRAPPED 1 d2
  if acqStream d u then setAcq u { getAcq d3 u with fifo := (getAcq d3 u).fifo ++ [(at_, bytes, isGap)] } d3 else d3

/-- Records go to the posted buffers of the unit's ring while it has any; RPTR moves past each (R384, R382). -/
def acqCopy : Nat → Nat → Dev → Dev
  | 0, _, d => d
  | n + 1, u, d =>
    let x := getAcq d u
    match x.fifo with
    | (_, bytes, isGap) :: rest =>
      if !(acqStream d u) || !streamOn d 1 u then d
      else
        -- without a buffer the record waits
        let (d1, taken) := streamTake 1 u isGap bytes d
        let next := match rest with | (o, _) :: _ => o | [] => acqPtr d (ACQ_WPTR u)
        if taken then acqCopy n u (setPtr (ACQ_RPTR u) next (setAcq u { getAcq d1 u with fifo := rest } d1)) else d1
    | [] => d

/-- A record is lost: LOST, and the gap opens or is extended (R382). -/
def acqLose (u instant : Nat) (d : Dev) : Dev :=
  let x := getAcq d u
  let g := match x.gap with
    | some (n, a, _) => (satNat 4294967295 (n + 1), a, instant)
    | none => (1, instant, instant)
  wf (ACQ_STAT u) ACQ_STAT_GAP_OPEN 1 (bump (ACQ_LOST u) ⟨31, 0⟩ (setAcq u { x with gap := some g } d))

/-- A record of the unit: written, lost, or discarded after DONE (R381..R383). -/
def acqWrite (u instant : Nat) (bytes : List Byte) (d : Dev) : Dev :=
  let x := getAcq d u
  if acqStream d u then
    let size := acqSize d u
    let w := acqPtr d (ACQ_WPTR u)
    let need := acqTake size w (if x.gap.isSome then [24, bytes.length] else [bytes.length, 24])
    if size ≤ acqUsed size (acqPtr d (ACQ_RPTR u)) w + need then acqLose u instant d
    else
      let d1 := match x.gap with
        | some (n, a, b) =>
          wf (ACQ_STAT u) ACQ_STAT_GAP_OPEN 0 (acqStore u (acqRecord 6 0 3 0 n a (some b)) true (setAcq u { x with gap := none } d))
        | none => d
      let d2 := acqStore u bytes false d1
      acqCopy (getAcq d2 u).fifo.length u d2
  else if rb d (ACQ_STAT u) ACQ_STAT_DONE then d
  else
    let at_ := (acqPlace (acqSize d u) (acqPtr d (ACQ_WPTR u)) bytes.length).1
    let d1 := acqStore u bytes false d
    if rb d (ACQ_STAT u) ACQ_STAT_TRIGGERED then
      let y := getAcq d1 u
      let first := match y.trigAt with | some t => decide (t ≤ instant) | none => false
      let d2 := if first then setPtr (ACQ_TRIGPTR u) at_ d1 else d1
      let d3 := setAcq u { y with trigAt := if first then none else y.trigAt, left := y.left - 1 } d2
      if y.left ≤ 1 then wf (ACQ_STAT u) ACQ_STAT_DONE 1 d3 else d3
    else d1

/-! ### Windows (R374..R376) -/

def winOn (d : Dev) (u w : Nat) : Bool := rb d (ACQ_W_CFG u w) ACQ_W_CFG_EN
def winPos (d : Dev) (u w : Nat) : Bool := rb d (ACQ_W_CFG u w) ACQ_W_CFG_DOMAIN
def winMaster (d : Dev) (u w : Nat) : Nat := rf d (ACQ_W_CFG u w) ACQ_W_CFG_MASTER
def winStart (d : Dev) (u w : Nat) : Int := rdI64 d (ACQ_W_START_LO u w) (ACQ_W_START_HI u w)
def winLen (d : Dev) (u w : Nat) : Nat := (rd d (ACQ_W_LEN u w)).toNat
def winPeriod (d : Dev) (u w : Nat) : Nat := (rd d (ACQ_W_PERIOD u w)).toNat

/-- Is a number of the window's domain inside it (R227)? -/
def winHas (d : Dev) (u w : Nat) (x : Int) : Bool :=
  let o := x - winStart d u w
  winOn d u w && decide (0 ≤ o) && decide ((if winPeriod d u w = 0 then o else o % (winPeriod d u w : Int)) < winLen d u w)

/-- Is an instant, in 1/256 ns, inside window w? -/
def winInside (d : Dev) (u w t256 : Nat) : Bool :=
  winHas d u w (if winPos d u w then chanPosAt d (winMaster d u w) t256 else (t256 / 256 : Nat))

/-- Does an event pass WIN_GATE (R376)? -/
def winGate (d : Dev) (u : Nat) (x : AcqEv) : Bool :=
  match rf d (ACQ_CFG u) ACQ_CFG_WIN_GATE with
  | 0 => true
  | 1 => x.win0
  | 2 => x.win1
  | _ => x.win0 || x.win1

/-- Interval bound j of window w: 2k starts interval k, 2k + 1 ends it. -/
def winBound (d : Dev) (u w j : Nat) : Int :=
  winStart d u w + ((j / 2 : Nat) : Int) * winPeriod d u w + (if j % 2 = 1 then (winLen d u w : Int) else 0)

/-- The first bound that is still ahead of a number of the domain; none when there is no further one. -/
def winAhead (d : Dev) (u w : Nat) (x : Int) : Option Nat :=
  let p := winPeriod d u w
  let k := if p = 0 then 0 else ((x - winStart d u w - winLen d u w) / (p : Int)).toNat
  ([2 * k, 2 * k + 1, 2 * k + 2, 2 * k + 3].filter (fun j => (p != 0 || decide (j < 2)) && decide (x < winBound d u w j))).head?

/-- The present number of a window's domain: TB ns or whole nm. -/
def winNow (d : Dev) (u w : Nat) : Int := if winPos d u w then chanNm d (winMaster d u w) else (tbNs d : Int)

def boundOf (x : Acq) (w : Nat) : Option Nat := if w = 0 then x.bound0 else x.bound1
def setBound (u w : Nat) (b : Option Nat) (d : Dev) : Dev :=
  let x := getAcq d u
  setAcq u (if w = 0 then { x with bound0 := b } else { x with bound1 := b }) d

/-- The bounds of window w that are behind produce no event: the next one is the first that is ahead (R225, R375). -/
def winSeek (u w : Nat) (d : Dev) : Dev := setBound u w (if winOn d u w then winAhead d u w (winNow d u w) else none) d

/-! ### The sequencer (R377..R379) -/

/-- Does a transition word's condition hold at an event (R378)? -/
def seqHolds (d : Dev) (u : Nat) (x : AcqEv) (w : Word) : Bool :=
  let sel := fget w ACQ_S_A_SEL
  let e := x.ev
  let inside := if sel % 2 = 0 then x.win0 else x.win1
  match fget w ACQ_S_A_COND with
  | 1 => true
  | 2 => (match e with | .sample c v => c == sel && decide ((rd d (ACQ_CH_THR u sel)).toInt ≤ v) | _ => false)
  | 3 => (match e with | .sample c v => c == sel && decide (v < (rd d (ACQ_CH_THR u sel)).toInt) | _ => false)
  | 4 => e == .mark sel true
  | 5 => e == .mark sel false
  | 6 => e == .timer (sel % 2)
  | 7 =>
    let (c, l) := if sel % 2 = 0 then (ACQ_CNT_CNT0_or_LIM0, ACQ_CLIM_CNT0_or_LIM0) else (ACQ_CNT_CNT1_or_LIM1, ACQ_CLIM_CNT1_or_LIM1)
    decide (rf d (ACQ_CLIM u) l ≤ rf d (ACQ_CNT u) c)
  | 8 => inside
  | 9 => !inside
  | 10 => e == .force
  | _ => false

/-- Something with its key in a list of ascending keys, behind those of its own key. -/
def putSorted {α : Type} (k : Nat) (v : α) : List (Nat × α) → List (Nat × α)
  | [] => [(k, v)]
  | e :: r => if k < e.1 then (k, v) :: e :: r else e :: putSorted k v r

/-- A record of the instant in progress is formed. -/
def acqMade (u : Nat) (r : AcqRec) (d : Dev) : Dev :=
  let x := getAcq d u
  setAcq u { x with made := putSorted r.place r x.made } d

/-- The records of the instant in progress are written (R381). -/
def acqFlush (u : Nat) (d : Dev) : Dev :=
  let x := getAcq d u
  forEach x.made (fun r d => acqWrite u (r.2.t256 / 256) r.2.bytes d) (setAcq u { x with made := [] } d)

/-- A transition taken at an instant: its actions in order, then NEXT (R379, R383). -/
def seqTake (u t256 : Nat) (w : Word) (d : Dev) : Dev :=
  let ns := t256 / 256
  let st := ACQ_STAT u
  let from_ := rf d st ACQ_STAT_STATE
  let d1 := match fget w ACQ_S_A_CNT with
    | 1 => bump (ACQ_CNT u) ACQ_CNT_CNT0_or_LIM0 d
    | 2 => bump (ACQ_CNT u) ACQ_CNT_CNT1_or_LIM1 d
    | 3 => wr (ACQ_CNT u) 0 d
    | _ => d
  let x := getAcq d1 u
  let d2 := match fget w ACQ_S_A_TMR with
    | 1 => setAcq u { x with tmr0 := some (ns + acqPtr d (ACQ_TMR0 u)) } d1
    | 2 => setAcq u { x with tmr1 := some (ns + acqPtr d (ACQ_TMR1 u)) } d1
    | 3 => setAcq u { x with tmr0 := none, tmr1 := none } d1
    | _ => d1
  let on := fget w ACQ_S_A_REC_ON == 1
  let off := fget w ACQ_S_A_REC_OFF == 1
  let rec_ := if on && off then !rb d st ACQ_STAT_REC else if on then true else if off then false else rb d st ACQ_STAT_REC
  let d3 := wb st ACQ_STAT_REC rec_ d2
  let trig := fget w ACQ_S_A_TRIG == 1
  let d4 :=
    if trig && !acqStream d u && !rb d st ACQ_STAT_TRIGGERED then
      let post := acqPtr d (ACQ_POST u)
      let e := wf st ACQ_STAT_TRIGGERED 1 (setAcq u { getAcq d3 u with trigAt := some ns, left := post } d3)
      if post = 0 then wf st ACQ_STAT_DONE 1 e else e
    else d3
  let d5 := wf st ACQ_STAT_STATE (fget w ACQ_S_A_NEXT) d4
  if rb d (ACQ_CFG u) ACQ_CFG_TRIG_REC then
    acqMade u ⟨256 + from_, t256, acqRecord 5 from_ 2 (fget w ACQ_S_A_NEXT + 8 * b2n trig + 16 * b2n rec_) (rd d5 (ACQ_CNT u)).toNat ns none⟩ d5
  else d5

/-- The current state evaluated at an event: A first, then B, one transition at most (R377). -/
def seqEvent (u : Nat) (x : AcqEv) (d : Dev) : Dev :=
  let s := rf d (ACQ_STAT u) ACQ_STAT_STATE
  let a := rd d (ACQ_S_A u s)
  let b := rd d (ACQ_S_B u s)
  if seqHolds d u x a then seqTake u x.t256 a d
  else if seqHolds d u x b then seqTake u x.t256 b d
  else d

/-! ### The order of events (R377, R381) -/

/-- An event arrives at an active unit: its place among those of its instant is window bounds 0, timers 1, FIRE records 2, channel c 3 + c,
FORCE 100. A record that comes while 64 wait is lost (R382). -/
def acqPut (u ord : Nat) (x : AcqEv) (d : Dev) : Dev :=
  if !(acqActive d u) then d
  else
    let y := getAcq d u
    let full := acqStream d u && x.bytes.isSome && decide (64 ≤ y.wait.countP (fun e => e.2.bytes.isSome))
    let e := { x with win0 := winInside d u 0 x.t256, win1 := winInside d u 1 x.t256, tooMany := full }
    setAcq u { y with wait := putSorted (x.t256 * 256 + ord) e y.wait } d

/-- What an event does when its turn comes: the sequencer, then its own record, with the recording state after the transition; the operand of
a MARK edge that would be recorded (R373, R376, R379, R380). -/
def acqTurn (u : Nat) (x : AcqEv) (d : Dev) : Dev :=
  let fire := x.ev == .fire
  let d1 := if fire then d else seqEvent u x d
  match x.bytes with
  | none => d1
  | some b =>
    if fire || rb d1 (ACQ_STAT u) ACQ_STAT_REC && winGate d1 u x then
      let d2 := if x.tooMany then acqLose u (x.t256 / 256) d1 else acqMade u ⟨if fire then x.src else 256 + x.src, x.t256, b⟩ d1
      match x.post with
      | some (k, v) => postOperand k v d2
      | none => d2
    else d1

/-- T_ODR in µs (R361). -/
def odrUs (code : Nat) : Nat :=
  match code with
  | 0 => 250
  | 1 => 500
  | 2 => 1000
  | 3 => 2000
  | 4 => 4000
  | 5 => 5000
  | 6 => 10000
  | 7 => 20000
  | 8 => 50000
  | _ => 100000

def acqSkew (d : Dev) (u c : Nat) : Int := (rd d (ACQ_CH_SKEW u c)).toInt

/-- Is a SAR input being converted for a result whose instant, before SKEW and in 1/256 ns, passes a test? -/
def sarComing (d : Dev) (n : Nat) (p : Int → Bool) : Bool :=
  match smGet d.adc.sars (n / 6) with
  | none => false
  | some s =>
    match s.conv with
    | none => false
    | some v =>
      let (sum, avg) := match v.kind with
        | .bg e => (s.bg, rf d (ADC_SAR_BG (n / 6) e) ADC_SAR_BG_AVG)
        | .req => (s.req, s.reqSet.1)
        | _ => ({}, 0)
      let ts := if sum.n = 0 then v.ts / nsUnits else sum.ts
      v.mux == n % 6 && !v.dead && decide (2 ^ avg ≤ sum.n + 1) && p (((ts + 125) * 256 : Nat) : Int)

/-- Can channel c of unit u still get a sample or a MARK edge at an instant (1/256 ns) or before it? A MARK edge lies after the channel's last
conversion, for as long as MAXGAP lets it be placed there (R373). -/
def chanComing (d : Dev) (u c t256 : Nat) : Bool :=
  let cfg := ACQ_CH_CFG u c
  let n := rf d cfg ACQ_CH_CFG_INDEX
  let y := getAcqCh (getAcq d u) c
  let skew := acqSkew d u c
  let before (t : Int) : Bool := decide (t - skew ≤ t256)
  rb d cfg ACQ_CH_CFG_EN && y.count % (rf d cfg ACQ_CH_CFG_DECIM + 1) == 0 &&
  match rf d cfg ACQ_CH_CFG_TYPE with
  | 1 =>
    sarComing d n before || (rb d cfg ACQ_CH_CFG_MARK &&
      match y.prev with
      | some (_, t0) => decide ((t0 : Int) * 256 - skew < t256 ∧ tbNs d < t0 + rf d (ACQ_CH_MARK u c) ACQ_CH_MARK_MAXGAP * 1000 + 875)
      | none => false)
  | 2 =>
    let t := odrUs (rf d (ADC_SD_CFG n) ADC_SD_CFG_ODR) * 1000 * nsUnits
    let b := d.tb / t * t
    rb d (ADC_SD_CFG n) ADC_SD_CFG_EN && d.cfg.state == .armed && decide (d.tb < b + tickP d) && before ((b / nsUnits * 256 : Nat) : Int) &&
    (match smGet d.adc.sds n with | some s => s.last != some b && decide (2 ≤ s.seen) | none => false)
  | _ => false

/-- Must an event wait: an earlier one may still come, or a FIRE record's instant lies ahead? -/
def acqHeld (d : Dev) (u : Nat) (x : AcqEv) : Bool :=
  x.ev == .fire && decide (tbNs d * 256 < x.t256) || (List.range 16).any (fun c => chanComing d u c x.t256)

/-! ### Samples and marks (R370..R373) -/

/-- The instant of a sample taken at ns t, in 1/256 ns, rounded down to whole ns (R371). -/
def acqInstant (d : Dev) (u c t : Nat) : Nat := (((t : Int) * 256 - acqSkew d u c).toNat / 256) * 256

def divNearI (a b : Int) : Int :=
  let q := (2 * a.natAbs + b.natAbs) / (2 * b.natAbs)
  if (a < 0) != (b < 0) then -(q : Int) else q

/-- A code of a MARK channel at its effective instant t1: the edge it makes, if any (R373). -/
def acqMark (u c : Nat) (code : Int) (t1 : Nat) (d : Dev) : Dev :=
  let y := getAcqCh (getAcq d u) c
  let thr := (rd d (ACQ_CH_THR u c)).toInt
  let hyst : Int := rf d (ACQ_CH_MARK u c) ACQ_CH_MARK_HYST
  let rise := !y.high && decide (thr + hyst ≤ code)
  let fall := y.high && decide (code < thr - hyst)
  if !rise && !fall then d
  else
    let x := if rise then thr + hyst else thr - hyst
    let (tq, coarse) : Int × Bool := match y.prev with
      | none => ((t1 : Int) * 256, true)
      | some (c0, t0) =>
        if rf d (ACQ_CH_MARK u c) ACQ_CH_MARK_MAXGAP * 1000 < t1 - t0 then ((t1 : Int) * 256, true)
        else ((t0 : Int) * 256 + divNearI ((x - c0) * ((t1 : Int) - t0) * 256) (code - c0), false)
    let t256 := (tq - acqSkew d u c).toNat
    let m := rf d (ACQ_CH_MARK u c) ACQ_CH_MARK_MASTER
    let pos := chanPosAt d m t256
    let bytes := acqRecord 3 c 3 (b2n rise + 2 * b2n coarse + 4 * b2n (chanRuns d m)) (t256 % 256) (t256 / 256) (some (ofInt 64 pos))
    let post := if rb d (ACQ_CH_CFG u c) ACQ_CH_CFG_OPERAND then some (0x900 + 16 * u + c, BitVec.ofInt 32 pos) else none
    acqPut u (3 + c) { t256 := t256, ev := .mark c rise, src := c, bytes := some bytes, post := post } (setAcqCh u c { y with high := rise } d)

/-- A result of type 1 or 2 for channel c of unit u: decimation, mark, sequencer, record. -/
def acqResult (u c : Nat) (code : Int) (t : Nat) (inj : Bool) (d : Dev) : Dev :=
  let cfg := ACQ_CH_CFG u c
  let y := getAcqCh (getAcq d u) c
  let keep := y.count % (rf d cfg ACQ_CH_CFG_DECIM + 1) == 0
  let mark := rb d cfg ACQ_CH_CFG_MARK
  let d0 := setAcqCh u c { y with count := y.count + 1 } d
  let d1 := if mark && keep && !inj then acqMark u c code t d0 else d0
  let at_ := acqInstant d u c t
  let bytes := if mark then none else some (acqRecord 1 c 2 (b2n inj) (ofInt 32 code) (at_ / 256) none)
  let d2 := if keep then acqPut u (3 + c) { t256 := at_, ev := .sample c code, src := c, bytes := bytes } d1 else d1
  if inj then d2 else setAcqCh u c { getAcqCh (getAcq d2 u) c with prev := some (code, t) } d2

/-- Does channel c of unit u take its values from this source? -/
def acqNames (d : Dev) (u c type idx : Nat) : Bool :=
  let cfg := ACQ_CH_CFG u c
  rb d cfg ACQ_CH_CFG_EN && rf d cfg ACQ_CH_CFG_TYPE == type && rf d cfg ACQ_CH_CFG_INDEX == idx

/-- A result handed to every active channel that names its source (R358): `t` the sample instant before SKEW. -/
def acqHand (type idx : Nat) (code : Int) (t : Nat) (inj : Bool) (d : Dev) : Dev :=
  forUpTo 8 (fun u d =>
    if acqActive d u then forUpTo 16 (fun c d => if acqNames d u c type idx then acqResult u c code t inj d else d) d else d) d

/-- The latches of tick n at TB ns t: channels of types 3 and 4 (R371). -/
def acqTick (n t : Nat) (d : Dev) : Dev :=
  forUpTo 8 (fun u d =>
    if !(acqActive d u) then d
    else forUpTo 16 (fun c d =>
      let cfg := ACQ_CH_CFG u c
      let i := rf d cfg ACQ_CH_CFG_INDEX
      let due := rb d cfg ACQ_CH_CFG_EN && n % 2 ^ satNat 8 (rf d cfg ACQ_CH_CFG_RATE) == 0
      let put (v : Int) (stale : Bool) (d : Dev) : Dev :=
        acqPut u (3 + c) { t256 := t * 256, ev := .sample c v, src := c,
                           bytes := some (acqRecord 2 c 3 (b2n stale) 0 t (some (ofInt 64 v))) } d
      match rf d cfg ACQ_CH_CFG_TYPE with
      | 3 => if due then put (rdI64 d (FBK_POS_LO i) (FBK_POS_HI i)) (!fnIs d i .running) d else d
      | 4 => if due then put (rdI64 d (WPU_CH_POS_LO i) (WPU_CH_POS_HI i)) (!chanRuns d i) d else d
      | _ => d) d) d

/-- The records that print bars left for their units (R242): written whatever the recording state and WIN_GATE. -/
def acqBarRecs (d : Dev) : Dev :=
  forEach d.wpu.recs (fun r d =>
    acqPut r.acq 2 { t256 := r.ps / 1000 * 256, ev := .fire, src := r.bar,
                     bytes := some (acqRecord 4 r.bar 3 (r.kind + r.ps % 1000 / 125 * 4) r.k (r.ps / 1000) (some (ofInt 64 r.x))) } d) { d with wpu := { d.wpu with recs := [] } }

/-! ### Events of the unit -/

/-- The TB ns at which the next bound of a time-domain window lies. -/
def winDue (d : Dev) (u w : Nat) : Option Nat :=
  if winOn d u w && !winPos d u w && acqActive d u then (boundOf (getAcq d u) w).map (fun j => (winBound d u w j).toNat) else none

/-- The bound behind bound j of window w. -/
def winNext (d : Dev) (u w j : Nat) : Option Nat := if winPeriod d u w = 0 ∧ 1 ≤ j then none else some (j + 1)

/-- WINDOW_BOUND: a time-domain bound is reached at its instant (the clock has moved there); a position-domain bound is an event
when forward motion has brought the RUNNING master to it. -/
def winBoundEvent (u w : Nat) (d : Dev) : Dev :=
  if !(winOn d u w && acqActive d u) then d
  else match boundOf (getAcq d u) w with
  | none => d
  | some j =>
    let x := winBound d u w j
    if winPos d u w then
      if chanRuns d (winMaster d u w) && decide (x ≤ chanNm d (winMaster d u w)) then
        acqPut u 0 { t256 := tbNs d * 256, ev := .bound } (setBound u w (winNext d u w j) d)
      else d
    else if x ≤ (tbNs d : Int) then acqPut u 0 { t256 := x.toNat * 256, ev := .bound } (setBound u w (winNext d u w j) d)
    else d

/-- The bounds of position windows on channel c that a jump or its return to RUNNING has left behind (R225). -/
def acqLook (c : Nat) (d : Dev) : Dev :=
  forUpTo 8 (fun u d => forUpTo 2 (fun w d =>
    if acqActive d u && winOn d u w && winPos d u w && winMaster d u w == c && chanRuns d c then
      match boundOf (getAcq d u) w, winAhead d u w (winNow d u w) with
      | some j, some k => if j < k then setBound u w (some k) d else d
      | some _, none => setBound u w none d
      | none, _ => d
    else d) d) d

/-- ACQ_TIMER_EXPIRY of timer w at its instant. -/
def acqTimer (u w : Nat) (d : Dev) : Dev :=
  let x := getAcq d u
  match (if w = 0 then x.tmr0 else x.tmr1) with
  | none => d
  | some t =>
    acqPut u 1 { t256 := t * 256, ev := .timer w } (setAcq u (if w = 0 then { x with tmr0 := none } else { x with tmr1 := none }) d)

/-- A time-domain bound or a timer expiry of unit u that comes before an event at an instant: its event arrives now. -/
def acqBefore (u t256 : Nat) (d : Dev) : Option Dev :=
  let x := getAcq d u
  let due (t : Option Nat) : Bool := match t with | some t => decide (t * 256 ≤ t256 ∧ t ≤ tbNs d) | none => false
  if !(acqActive d u) then none
  else if due (winDue d u 0) then some (winBoundEvent u 0 d)
  else if due (winDue d u 1) then some (winBoundEvent u 1 d)
  else if due x.tmr0 then some (acqTimer u 0 d)
  else if due x.tmr1 then some (acqTimer u 1 d)
  else none

/-- The events that need not wait take their turns in order, and the records of each instant are written; `all`: those that must wait too. -/
def acqRun (all : Bool) : Nat → Nat → Dev → Dev
  | 0, _, d => d
  | n + 1, u, d =>
    match (getAcq d u).wait with
    | [] => acqFlush u d
    | (_, x) :: rest =>
      if !all && acqHeld d u x then acqFlush u d
      else match acqBefore u x.t256 d with
        | some e => acqRun all n u e
        | none =>
          let d1 := if (getAcq d u).made.any (fun r => r.2.t256 != x.t256) then acqFlush u d else d
          acqRun all n u (acqTurn u x (setAcq u { getAcq d1 u with wait := rest } d1))

/-- The events of every unit that need not wait. -/
def acqSettle (d : Dev) : Dev := forUpTo 8 (fun u d => if (getAcq d u).wait.isEmpty then d else acqRun false 4096 u d) d

/-- The records in flight of a unit that stops are written (R385). -/
def acqDrain (u : Nat) (d : Dev) : Dev := if (getAcq d u).wait.isEmpty then d else acqRun true 4096 u d

/-- A run starts: sequencer from S0, recording state REC_INIT, WPTR, counters and timers 0 (R385); the FIFO starts empty, DONE,
TRIGGERED and WRAPPED are clear (DEDUCED, log entry 61). -/
def acqStart (u : Nat) (d : Dev) : Dev :=
  let st := ACQ_STAT u
  let keep := rb d st ACQ_STAT_RPTR_ERR
  let d1 := wb st ACQ_STAT_REC (rb d (ACQ_CFG u) ACQ_CFG_REC_INIT) (wb st ACQ_STAT_RPTR_ERR keep (wr st 0 d))
  let d2 := wr (ACQ_CNT u) 0 (setPtr (ACQ_RPTR u) 0 (setPtr (ACQ_WPTR u) 0 (setAcq u {} d1)))
  winSeek u 1 (winSeek u 0 d2)

/-- DISABLE: no new record; the stop completes at the next COMMIT instant. -/
def acqDisable (u : Nat) (d : Dev) : Dev := stopDone (fnAcq u) (acqDrain u d)

/-- A run ends: the timers stop. -/
def acqLeave (u : Nat) (d0 : Dev) : Dev :=
  let d := acqDrain u d0
  wf (ACQ_STAT u) ACQ_STAT_RUN 0 (setAcq u { getAcq d u with tmr0 := none, tmr1 := none, bound0 := none, bound1 := none } d)

/-- REARM (R383). -/
def acqRearm (u : Nat) (d : Dev) : Dev :=
  let st := ACQ_STAT u
  let d1 := wf st ACQ_STAT_STATE 0 (wf st ACQ_STAT_WRAPPED 0 (wf st ACQ_STAT_TRIGGERED 0 (wf st ACQ_STAT_DONE 0 d)))
  setPtr (ACQ_WPTR u) 0 (setAcq u { getAcq d1 u with trigAt := none, left := 0, fifo := [] } d1)

/-- ACQ_Uu_CTRL (R377, R383, R385). -/
def acqCmd (u cmd : Nat) (d : Dev) : Dev :=
  match cmd with
  | 1 => acqPut u 100 { t256 := tbNs d * 256, ev := .force } d
  | 2 => acqRearm u d
  | 3 => if fnIs d (fnAcq u) .ready then wf (ACQ_STAT u) ACQ_STAT_RUN 1 (acqStart u d) else d
  | 4 => if rb d (ACQ_STAT u) ACQ_STAT_RUN then acqLeave u d else d
  | _ => d

/-- A write of RPTR (R384). -/
def acqRptr (u : Nat) (v : Nat) (d : Dev) : Dev :=
  if streamOn d 1 u then d
  else
    let size := acqSize d u
    let r := acqPtr d (ACQ_RPTR u)
    let w := acqPtr d (ACQ_WPTR u)
    if v % 8 ≠ 0 ∨ size ≤ v ∨ acqUsed size r w < acqUsed size r v then wf (ACQ_STAT u) ACQ_STAT_RPTR_ERR 1 d
    else
      let x := getAcq d u
      setPtr (ACQ_RPTR u) v (setAcq u { x with fifo := x.fifo.filter (fun e => decide (acqUsed size r v ≤ acqUsed size r e.1)) } d)

/-- The rings of the acquisition units take what waits for a buffer. -/
def acqRings (d : Dev) : Dev :=
  forUpTo 8 (fun u d => if (getAcq d u).fifo.isEmpty then d else acqCopy (getAcq d u).fifo.length u d) d

end Sys2Proof.Machine
end

