-- ==== Sys2Proof/Machine/Crc.lean ====
section
/-! DEFINITION. The cyclic redundancy checks of the spec: CRC-32 of images, records and twin frames (R103), CRC-32C of the safety
configuration (R475), CRC-16 of the field link (R443). -/
namespace Sys2Proof.Machine
open Sys2Proof

/-- `n` steps of a reflected CRC register with polynomial `p`, bit 0 first. -/
def crcShiftR (p : Nat) : Nat → Nat → Nat
  | 0, c => c
  | n + 1, c => crcShiftR p n (if c % 2 = 1 then Nat.xor (c / 2) p else c / 2)

/-- A reflected 32-bit CRC with initial value and final XOR 0xFFFFFFFF. -/
def crcReflected (p : Nat) (bs : List Byte) : Nat :=
  Nat.xor (bs.foldl (fun c b => crcShiftR p 8 (Nat.xor c b.toNat)) 0xFFFFFFFF) 0xFFFFFFFF

/-- CRC-32 of R103. -/
def crc32 (bs : List Byte) : Nat := crcReflected 0xEDB88320 bs

/-- CRC-32C of R475. -/
def crc32c (bs : List Byte) : Nat := crcReflected 0x82F63B78 bs

/-- `n` steps of the CRC-16 register of R443, bit 15 first. -/
def crc16Shift : Nat → Nat → Nat
  | 0, c => c
  | n + 1, c => crc16Shift n (if 32768 ≤ c then Nat.xor (c * 2 % 65536) 0x1021 else c * 2)

/-- CRC-16 of R443. -/
def crc16 (bs : List Byte) : Nat := bs.foldl (fun c b => crc16Shift 8 (Nat.xor c (b.toNat * 256))) 0xFFFF

end Sys2Proof.Machine
end

