-- ==== Sys2Proof/Machine/Time.lean ====
section
/-! DEFINITION. The timebase (spec/05, R167..R179): the clock, steps of TB time, the servo, scheduled pulses, time captures. -/
namespace Sys2Proof.Machine
open Sys2Proof Sys2Proof.Reg

/-! ### The clock (R167, R168, R543) -/

/-- The cycles of every core counted up to the present instant, before TB time jumps. -/
def accrueAll (d : Dev) : Dev := forUpTo 16 accrue d

/-- TB time is `t` from the present edge on, with the tick in which it lands not started (R544). -/
def landAt (t : Nat) (d : Dev) : Dev := { d with tb := t % 2 ^ 96, phase := .skipped, tick := t % 2 ^ 96 / tickP d }

/-- A field-link port whose frame is on the line when TB time is stepped from `a` to `b` ns: the frame ends as long after its start. -/
def flkShift (a b : Nat) (x : FlkPort) : FlkPort :=
  { x with open_ := x.open_.map (fun F => F + b - a), last := none, stopF := x.stopF.map (fun F => F + b - a) }

/-- TB time set to `t` by a step (R170): STEPPED and an event record. -/
def stepTime (t : Nat) (d : Dev) : Dev :=
  let d1 := accrueAll d
  let d2 := landAt t { d1 with sch := { d1.sch with cores := d1.sch.cores.map (fun e => (e.1, { e.2 with since := t % 2 ^ 96 })) },
                               flk := { d1.flk with ports := d1.flk.ports.map (fun e => (e.1, flkShift (tbNs d1) (t / nsUnits) e.2)) }
                               net := { d1.net with lastMeas := d1.net.lastMeas + (t / nsUnits : Nat) - tbNs d1 } }
  wf TB_STAT TB_STAT_STEPPED 1 (trigger 0x10 0x08 [(rd d TB_SET_LO).toNat, (rd d TB_SET_HI).toNat] d2)

/-- The TBCLK edge at which an accepted STEP or change of the tick period acts, if one waits (R170, R175, R544). -/
def passEdge (d : Dev) : Dev :=
  let a := effAddend d
  let e := { d with tbu := { d.tbu with stepTo := none, oldPeriod := none }, pwr := { d.pwr with opTime := d.pwr.opTime + a } }
  match d.tbu.stepTo, d.tbu.oldPeriod with
  | some t, _ => stepTime t e
  | none, some _ => landAt (d.tb + a) e
  | none, none => d

/-- TB time moved to the first TBCLK edge at which it has reached `t` (TB time units); modulo 2^96. A STEP or a new period that waits
takes the edge before. -/
def clockRaw (t : Nat) (d : Dev) : Dev :=
  if tbRuns d && awake d then
    let e := passEdge d
    let t' := edgeAt e t
    { e with tb := t' % 2 ^ 96, pwr := { e.pwr with opTime := e.pwr.opTime + (t' - e.tb) } }
  else d

/-- TB time moved, and the channels of the web phase unit with it: edges used, standstill declared (R212, R214). -/
def clockTo (t : Nat) (d : Dev) : Dev :=
  let d1 := clockRaw t d
  if tbRuns d1 && clocked d1 then wpuSync (tbNs d1) d1 else d1

/-- TB time moved to the first edge that has reached a whole number of ns. -/
def clockToNs (ns : Nat) (d : Dev) : Dev := clockTo (ns * nsUnits) d

/-- One TBCLK edge: the one at which a STEP or a new period acts, if one waits. -/
def oneEdge (d : Dev) : Dev := if d.tbu.stepTo.isSome || d.tbu.oldPeriod.isSome then clockTo 0 d else clockTo (d.tb + 1) d

/-- STEP of TB_CTRL (R170): discarded with LOCKED_WR while an owning function of R169 is armed; else TB_SET is loaded at the next edge. -/
def tbStep (m : Master) (d : Dev) : Dev :=
  if tbOwnerArmed d then accessErr .lockedWr m TB_CTRL d
  else if tbRuns d then { d with tbu := { d.tbu with stepTo := some (rd64 d TB_SET_LO TB_SET_HI * nsUnits) } } else d

/-- PERIOD has been written where `old` was in force: the new tick period comes into force at the next TBCLK edge (R175). -/
def periodChanged (old : Nat) (d : Dev) : Dev :=
  if tbRuns d then { d with tbu := { d.tbu with oldPeriod := some (d.tbu.oldPeriod.getD old) } } else d

/-! ### The servo (R171..R173) -/

/-- MAX_PPM as the servo uses it: 1..500, other values act as 500. -/
def maxPpm (d : Dev) : Nat :=
  let m := rf d TB_SERVO_CFG TB_SERVO_CFG_MAX_PPM
  if m = 0 ∨ 500 < m then 500 else m

/-- LOCKED clears; LOCK_LOST is set when it was 1. -/
def lockClear (d : Dev) : Dev :=
  if rb d TB_STAT TB_STAT_LOCKED then wf TB_STAT TB_STAT_LOCK_LOST 1 (wf TB_STAT TB_STAT_LOCKED 0 d) else d

/-- LOCKED after a measurement of |o| in 2^-16 ns (R173). -/
def lockJudge (o : Nat) (d : Dev) : Dev :=
  let lim := rf d TB_SERVO_CFG TB_SERVO_CFG_LOCK_NS * 65536
  let good := if o ≤ lim then satNat 8 (d.tbu.good + 1) else 0
  let d1 := { d with tbu := { d.tbu with good := good } }
  if 4 * lim < o then lockClear d1 else if good = 8 then wf TB_STAT TB_STAT_LOCKED 1 d1 else d1

/-- One offset measurement o in 2^-16 ns (R171..R173); a step removes o rounded to the nearest whole ns. -/
def servoMeasure (o : Int) (d : Dev) : Dev :=
  let d0 := wf TB_STAT TB_STAT_HOLDOVER 0 { d with net := { d.net with lastMeas := tbNs d } }
  let d1 := wr TB_SERVO_OFFSET (BitVec.ofInt 32 (satI32 (o / 65536))) d0
  if rb d TB_CTRL TB_CTRL_AUTO_STEP && decide (655360000 < o.natAbs) && !tbOwnerArmed d then
    let t : Int := (d.tb : Int) - (o + 32768) / 65536 * nsUnits
    lockJudge o.natAbs (stepTime t.toNat (wr TB_SERVO_CORR 0 { d1 with tbu := { d1.tbu with servoI := 0, servoC := 0 } }))
  else
    let lim : Int := (maxPpm d * 17179869184 / 1000000 : Nat)
    let i := clampInt (-lim) lim (d.tbu.servoI - o / (2 ^ rf d TB_SERVO_CFG TB_SERVO_CFG_KI_SHIFT : Nat))
    let c := clampInt (-lim) lim (i - o / (2 ^ rf d TB_SERVO_CFG TB_SERVO_CFG_KP_SHIFT : Nat))
    lockJudge o.natAbs (wr TB_SERVO_CORR (BitVec.ofInt 32 c) { d1 with tbu := { d1.tbu with servoI := i, servoC := c } })

/-- The lowest-numbered port in state SLAVE (R173, R188). -/
def slavePort (d : Dev) : Option Nat := (List.range 3).find? (fun p => rf d (NET_PORT_CFG p) NET_PORT_CFG_PTP_STATE == 3)

/-- No measurements: LOCKED clears, C is held, HOLDOVER reads 1 (R173). -/
def servoLost (d : Dev) : Dev := wf TB_STAT TB_STAT_HOLDOVER 1 (lockClear { d with tbu := { d.tbu with good := 0 } })

/-- TB ns at which 8 Sync intervals of the SLAVE port have passed without a measurement. -/
def syncDue (d : Dev) (p : Nat) : Nat :=
  (d.net.lastMeas + (8 * 1000000000 / 2 ^ satNat 7 (rf d (NET_PORT_CFG p) NET_PORT_CFG_LOG_SYNC) : Nat)).toNat

/-- SYNC_TIMEOUT: the clock moves to the instant at which the 8th interval ends. -/
def syncTimeout (d : Dev) : Dev :=
  match slavePort d with
  | none => servoLost d
  | some p => servoLost (clockToNs (syncDue d p) d)

/-! ### Scheduled pulses (R176..R178) -/

def fnPulse (k : Nat) : Nat := 0x520 + k
def fnCap (k : Nat) : Nat := 0x524 + k

def getPulse (d : Dev) (k : Nat) : Pulse :=
  match smGet d.tbu.pulses k with
  | some x => x
  | none => {}

def setPulse (k : Nat) (x : Pulse) (d : Dev) : Dev := { d with tbu := { d.tbu with pulses := smPut d.tbu.pulses k x } }

/-- Where a schedule's domain stands now: TB time or the master's position, in 2^-32 ns or nm. -/
def pulseNow (d : Dev) (s : PulseSched) : Int := if s.web then chanPos d s.master else (d.tb : Int)

/-- Edge j of a schedule. -/
def pulseAt (s : PulseSched) (j : Nat) : Int := (s.start + (j : Int) * s.period) * nsUnits

/-- Edges of a schedule that are at or behind the present are not produced: MISSED counts them (R178 rows 1, 2). -/
def pulseBehind (k : Nat) (d : Dev) : Dev :=
  let x := getPulse d k
  match x.sched with
  | none => d
  | some s =>
    match s.next with
    | none => d
    | some j =>
      if s.web && !chanRuns d s.master then d
      else if pulseNow d s < pulseAt s j then d
      else if s.periodic then
        let n := ((pulseNow d s - pulseAt s j) / (max 1 s.period * nsUnits : Nat)).toNat + 1
        bumpBy (TB_PULSE_STAT k) TB_PULSE_STAT_MISSED n (setPulse k { x with sched := some { s with next := some (j + n) } } d)
      else
        wf (TB_PULSE_STAT k) TB_PULSE_STAT_DONE 1 (bump (TB_PULSE_STAT k) TB_PULSE_STAT_MISSED
          (setPulse k { x with sched := some { s with next := none } } d))

/-- The schedule of pulse k becomes active from its first edge on (acceptance or ENABLE, whichever is later). -/
def pulseActivate (k : Nat) (d : Dev) : Dev :=
  let x := getPulse d k
  match x.sched with
  | none => d
  | some s => pulseBehind k (setPulse k { x with sched := some { s with next := some 0 } } d)

/-- START_HI accepted: the schedule takes effect as a whole, or is discarded with PARAM_ERR (R176, R178). The limits on PERIOD
hold in PERIODIC mode. -/
def pulseAccept (k : Nat) (d : Dev) : Dev :=
  let ctrl := TB_PULSE_CTRL k
  let periodic := rb d ctrl TB_PULSE_CTRL_PERIODIC
  let web := rb d ctrl TB_PULSE_CTRL_DOMAIN
  let width := (rd d (TB_PULSE_WIDTH k)).toNat
  let period := (rd d (TB_PULSE_PERIOD k)).toNat
  if width < 8 ∨ (periodic ∧ (period < 16 ∨ period < width + 8)) then wf (TB_PULSE_STAT k) TB_PULSE_STAT_PARAM_ERR 1 d
  else
    let lo := TB_PULSE_START_LO k
    let hi := TB_PULSE_START_HI k
    let s : PulseSched := { periodic := periodic, web := web, master := rf d ctrl TB_PULSE_CTRL_MASTER,
                            start := if web then rdI64 d lo hi else (rd64 d lo hi : Int), period := period, width := width, next := some 0 }
    let d1 := setPulse k { getPulse d k with sched := some s } d
    if fnIs d (fnPulse k) .running then pulseBehind k d1 else d1

/-- Is a write of START_HI refused (R178)? -/
def pulseRefuses (d : Dev) (k : Nat) : Bool :=
  let width := (rd d (TB_PULSE_WIDTH k)).toNat
  let period := (rd d (TB_PULSE_PERIOD k)).toNat
  decide (width < 8) || (rb d (TB_PULSE_CTRL k) TB_PULSE_CTRL_PERIODIC && decide (period < 16 ∨ period < width + 8))

/-- The next edge of pulse k is there: the output rises, or, while a pulse is still high, the edge is not produced. -/
def pulseEdge (k : Nat) (d : Dev) : Dev :=
  let x := getPulse d k
  match x.sched with
  | none => d
  | some s =>
    match s.next with
    | none => d
    | some j =>
      let s' := { s with next := if s.periodic then some (j + 1) else none }
      let d1 := if s.periodic then d else wf (TB_PULSE_STAT k) TB_PULSE_STAT_DONE 1 d
      if x.high then bump (TB_PULSE_STAT k) TB_PULSE_STAT_MISSED (setPulse k { x with sched := some s' } d1)
      else setPulse k { x with sched := some s', high := true, fallAt := edgeAt d (d.tb + s.width * nsUnits) } d1

/-- TB time of the next edge of pulse k in the time domain, while the function is RUNNING. -/
def pulseDue (d : Dev) (k : Nat) : Option Nat :=
  match (getPulse d k).sched with
  | none => none
  | some s =>
    match s.next with
    | none => none
    | some j => if s.web || !(fnIs d (fnPulse k) .running) then none else some (pulseAt s j).toNat

/-- TB_PULSE_EDGE: the clock moves to the TBCLK edge of the next pulse edge. -/
def pulseEdgeDue (k : Nat) (d : Dev) : Dev :=
  match pulseDue d k with
  | none => d
  | some t => pulseEdge k (clockTo t d)

/-- TB_PULSE_END: the output falls; the stop of a STOPPING pulse output completes. -/
def pulseEnd (k : Nat) (d : Dev) : Dev :=
  let x := getPulse d k
  if x.high then
    let d1 := setPulse k { x with high := false } (clockTo x.fallAt d)
    if fnIs d1 (fnPulse k) .stopping then stopDone (fnPulse k) d1 else d1
  else d

/-- Web-domain edges of pulse k that the position has reached (R177, R225): the first is produced, later ones that were
reached at the same instant meet a high output. -/
def pulseReached : Nat → Nat → Dev → Dev
  | 0, _, d => d
  | n + 1, k, d =>
    match (getPulse d k).sched with
    | none => d
    | some s =>
      match s.next with
      | none => d
      | some j =>
        if s.web && fnIs d (fnPulse k) .running && chanRuns d s.master && decide (pulseAt s j ≤ pulseNow d s) then
          pulseReached n k (pulseEdge k d)
        else d

/-- Does pulse k follow channel c? -/
def pulseFollows (d : Dev) (k c : Nat) : Bool :=
  match (getPulse d k).sched with
  | none => false
  | some s => s.web && s.master == c

def pulseDisable (k : Nat) (d : Dev) : Dev := if (getPulse d k).high then d else stopDone (fnPulse k) d

/-- The output goes low at once: DISARM_NOW, a fault, a reset. -/
def pulseOff (k : Nat) (d : Dev) : Dev := setPulse k { getPulse d k with high := false } d

/-! ### Time captures (R179) -/

def getCap (d : Dev) (k : Nat) : List CapEntry :=
  match smGet d.tbu.caps k with
  | some x => x
  | none => []

def setCap (k : Nat) (x : List CapEntry) (d : Dev) : Dev := { d with tbu := { d.tbu with caps := smPut d.tbu.caps k x } }

/-- The TB ns that a capture stores for a level that changed at the present edge: less the 8 ns of the synchroniser and the
FILT delay of the pin (R81). -/
def capTs (d : Dev) (k : Nat) : Nat := (d.tb - (8 + 4 * rf d (MFP_PIN (252 + k)) MFP_PIN_FILT) * nsUnits) / nsUnits

/-- A selected edge at TB_CAPk stores an entry, or counts in OVERFLOW. -/
def capEdge (k : Nat) (rise : Bool) (d : Dev) : Dev :=
  let ctrl := TB_CAP_CTRL k
  if !(fnIs d (fnCap k) .running) || !(rb d ctrl (if rise then TB_CAP_CTRL_RISE else TB_CAP_CTRL_FALL)) then d
  else
    let q := getCap d k
    if 8 ≤ q.length then bump (TB_CAP_STAT k) TB_CAP_STAT_OVERFLOW d
    else
      let ts := capTs d k
      let d1 := setCap k (q ++ [⟨ts, rise⟩]) d
      if rb d ctrl TB_CAP_CTRL_OPERAND then postOperand (0x830 + k) (BitVec.ofNat 32 ts) d1 else d1

/-- The read of TS_HI removes the oldest entry. -/
def capPop (k : Nat) (d : Dev) : Dev := setCap k ((getCap d k).drop 1) d

/-- TS of the oldest entry, 0 when there is none; its edge. -/
def capHead (d : Dev) (k : Nat) : Nat × Bool :=
  match getCap d k with
  | [] => (0, false)
  | e :: _ => (e.ns, e.rise)

end Sys2Proof.Machine
end

