-- ==== Sys2Proof/Machine/Adc.lean ====
section
/-! DEFINITION. The SAR and sigma-delta converters, reference monitor, test DACs and calibration (spec/11, R348..R369). The input
voltages and references come with the commands, in µV. -/
namespace Sys2Proof.Machine
open Sys2Proof Sys2Proof.Reg

def getSar (d : Dev) (c : Nat) : Sar :=
  match smGet d.adc.sars c with
  | some x => x
  | none => {}

def setSar (c : Nat) (x : Sar) (d : Dev) : Dev := { d with adc := { d.adc with sars := smPut d.adc.sars c x } }

def setAin (n : Nat) (x : AdcRes) (d : Dev) : Dev := { d with adc := { d.adc with ains := smPut d.adc.ains n x } }

def getSd (d : Dev) (k : Nat) : Sd :=
  match smGet d.adc.sds k with
  | some x => x
  | none => {}

def setSd (k : Nat) (x : Sd) (d : Dev) : Dev := { d with adc := { d.adc with sds := smPut d.adc.sds k x } }

/-- Do the conversions that need an armed configuration run (R349)? -/
def adcArmed (d : Dev) : Bool := d.cfg.state == .armed

/-- Is reference g in error (R363)? -/
def refErr (d : Dev) (g : Nat) : Bool := rf d ADC_STAT ADC_STAT_REF_ERR / 2 ^ g % 2 == 1

def convNs : Nat := 1000 * nsUnits

/-! ### Reserved frames (R352) -/

/-- The coils on converter c, in the order of R352: channel and is it coil B. -/
def coilsOn (d : Dev) (c : Nat) : List (Nat × Bool) :=
  ((List.range 32).filter (fun j => (getFn d (fnStp j)).included)).flatMap (fun j =>
    (if rf d (STP_SENSE j) STP_SENSE_AIN_A / 6 = c then [(j, false)] else []) ++
    (if rf d (STP_SENSE j) STP_SENSE_AIN_B / 6 = c then [(j, true)] else []))

/-- SENSE_PER of the coils of a converter. -/
def sensePer (d : Dev) (cs : List (Nat × Bool)) : Nat :=
  match cs with
  | (j, _) :: _ => max 1 (rf d (STP_SENSE j) STP_SENSE_SENSE_PER)
  | [] => 1

/-- Which coil converts in frame f of a tick, if any: f = 1 + i + k × SENSE_PER. -/
def frameCoil (n per f : Nat) : Option Nat := if 1 ≤ f ∧ (f - 1) % per < n then some ((f - 1) % per) else none

/-- The reserved frames of the tick that starts at t0, from frame f on: the first that starts after `t`. -/
def frameFrom (n per frames t0 t : Nat) : Nat → Nat → Option (Nat × Nat)
  | 0, _ => none
  | k + 1, f =>
    if frames ≤ f then none
    else match frameCoil n per f with
      | some i => if t < t0 + f * convNs then some (t0 + f * convNs, i) else frameFrom n per frames t0 t k (f + 1)
      | none => frameFrom n per frames t0 t k (f + 1)

/-- The first reserved frame of converter c that starts after TB time t: its instant and its coil. -/
def nextFrame (d : Dev) (c t : Nat) : Option (Nat × Nat) :=
  let cs := coilsOn d c
  if cs.isEmpty || !adcArmed d then none
  else
    let p := tickP d
    let frames := p / convNs
    let t0 := t / p * p
    match frameFrom cs.length (sensePer d cs) frames t0 t 130 1 with
    | some x => some x
    | none => frameFrom cs.length (sensePer d cs) frames (t0 + p) t 130 1

/-- The first reserved frame of coil i on converter c after t. -/
def nextFrameOf : Nat → Dev → Nat → Nat → Nat → Option Nat
  | 0, _, _, _, _ => none
  | n + 1, d, c, i, t =>
    match nextFrame d c t with
    | none => none
    | some (u, j) => if j = i then some u else nextFrameOf n d c i u

/-! ### PWM trigger instants (R354) -/

/-- The next instant of a TRG entry at or after TB time t: its pair's period starts or peaks plus DELAY × 4 ns. After those of the periods
that have started come those of the periods to come, as long as the present one. -/
def trgNext (d : Dev) (c e t : Nat) : Option Nat :=
  let w := ADC_SAR_TRG c e
  let p := rf d w ADC_SAR_TRG_PAIR
  let x := getPwm d p
  let len := x.len * effAddend d
  if !(rb d w ADC_SAR_TRG_EN) || !adcArmed d || !fnActive d (fnPwm p) || !x.run || len == 0 then none
  else
    let at_ (s l : Nat) : Nat := s + (if rb d w ADC_SAR_TRG_EVENT then l / 2 else 0) + rf d w ADC_SAR_TRG_DELAY * effAddend d
    match x.starts.reverse.find? (fun e => decide (t ≤ at_ e.1 e.2)) with
    | some e => some (at_ e.1 e.2)
    | none =>
      let base := at_ x.t0 len
      some (base + (t - base + len - 1) / len * len)

/-- The next TRG instant of converter c at or after t. -/
def trgSoon (d : Dev) (c t : Nat) : Option Nat :=
  (List.range 4).foldl (fun m e => match m, trgNext d c e t with
    | none, x => x
    | some a, some b => some (min a b)
    | some a, none => some a) none

/-! ### Starting a conversion (R350..R356) -/

/-- Is the converter's TICK entry in use? -/
def tickOn (d : Dev) (c : Nat) : Bool := rb d (ADC_SAR_TICK c) ADC_SAR_TICK_EN && adcArmed d

/-- The start of the next tick. -/
def nextTick (d : Dev) : Nat := (d.tb / tickP d + 1) * tickP d

/-- Would a conversion that starts now end before the next TICK conversion? -/
def clearOfTick (d : Dev) (c : Nat) : Bool := !tickOn d c || decide (d.tb + convNs ≤ nextTick d)

/-- May a BG or REQ conversion start now: no deferred one waits, and it ends in time (R351, R355)? -/
def bgFits (d : Dev) (c : Nat) : Bool :=
  (getSar d c).deferred.isEmpty && clearOfTick d c && (match nextFrame d c d.tb with | some (t, _) => decide (d.tb + convNs ≤ t) | none => true) &&
  (match trgSoon d c d.tb with | some t => decide (d.tb + convNs ≤ t) | none => true)

/-- The input that a value of ADC_TDACg names: an AIN number, or a sigma-delta channel for g = 4 (R348). -/
def tdacInput (g : Nat) (w : Word) : Nat := (if g = 4 then 0 else 24 * g) + fget w ADC_TDAC_TARGET

/-- Is an input injected by its test DAC (R365)? -/
def sarInj (d : Dev) (c mux : Nat) : Bool :=
  let g := c / 4
  rb d (ADC_TDAC g) ADC_TDAC_EN && tdacInput g (rd d (ADC_TDAC g)) == 6 * c + mux

/-- Did test DAC g change within 5 µs (R364)? -/
def tdacRecent (d : Dev) (g : Nat) : Bool :=
  match smGet d.adc.tdacAt g with
  | some t => decide (d.tb < t + 5000 * nsUnits)
  | none => false

/-- Is a result of an input of test DAC g that is converted now unsettled: the DAC names or has named the input, and was written within 5 µs
(R364)? `n`: the input or sigma-delta channel. -/
def tdacUnsettled (d : Dev) (g n : Nat) : Bool :=
  tdacRecent d g && (tdacInput g (rd d (ADC_TDAC g)) == n || smGet d.adc.tdacWas g == some n)

/-- The code that the test DAC gives an injected input in internal mode: CODE / 1,024 of the reference (R364). -/
def tdacCode (d : Dev) (c mux : Nat) : Option Nat :=
  let w := ADC_TDAC (c / 4)
  if sarInj d c mux && !rb d w ADC_TDAC_MODE then some (4 * rf d w ADC_TDAC_CODE) else none

/-- A conversion starts at the present edge. -/
def sarBegin (c : Nat) (kind : SarReq) (mux : Nat) (d : Dev) : Dev :=
  setSar c { getSar d c with
    conv := some ⟨kind, mux, d.tb, sarInj d c mux, refErr d (c / 4), tdacUnsettled d (c / 4) (6 * c + mux), tdacCode d c mux⟩ } d

/-- The BG entry that converts next: the one whose set is in progress, else the next enabled one in rotation. -/
def bgPick (d : Dev) (c : Nat) : Option Nat :=
  let x := getSar d c
  if 0 < x.bg.n then some x.bgEntry
  else (List.range 6).findSome? (fun i =>
    let e := (x.bgEntry + i) % 6
    if rb d (ADC_SAR_BG c e) ADC_SAR_BG_EN then some e else none)

/-- SAR_CONVERSION_START of converter c for a kind of request (a PWM request is a deferred one). A SLOT conversion
moves the clock to its reserved frame. -/
def sarStart (c : Nat) (kind : SarKind) (d : Dev) : Dev :=
  let x := getSar d c
  let idle := x.conv.isNone
  match kind with
  | .tick => if idle && tickOn d c && decide (d.tb % tickP d < effAddend d) then sarBegin c .tick (rf d (ADC_SAR_TICK c) ADC_SAR_TICK_MUX) d else d
  | .slot =>
    (match nextFrame d c (d.tb - effAddend d) with
     | some (t, i) =>
       let d1 := clockTo t d
       (match (coilsOn d1 c).drop i with
        | (j, b) :: _ => if idle then
            sarBegin c (.slot i) (rf d1 (STP_SENSE j) (if b then STP_SENSE_AIN_B else STP_SENSE_AIN_A) % 6) d1 else d1
        | [] => d1)
     | none => d)
  | .pwm =>
    (match sortNat x.deferred with
     | e :: _ => if idle && adcArmed d && clearOfTick d c then
         sarBegin c (.pwm e) (rf d (ADC_SAR_TRG c e) ADC_SAR_TRG_MUX) (setSar c { x with deferred := x.deferred.filter (· != e) } d) else d
     | [] => d)
  | .req =>
    if idle && rb d SYS_READY SYS_READY_ADC && rb d (ADC_SAR_REQ c) ADC_SAR_REQ_BUSY && bgFits d c then sarBegin c .req x.reqSet.2.2 d else d
  | .bg =>
    (match bgPick d c with
     | some e => if idle && adcArmed d && !rb d (ADC_SAR_REQ c) ADC_SAR_REQ_BUSY && bgFits d c then
         sarBegin c (.bg e) (rf d (ADC_SAR_BG c e) ADC_SAR_BG_MUX) (setSar c { x with bgEntry := e } d) else d
     | none => d)

/-- PWM_TRIGGER_INSTANT of entry e at its instant t: the clock has moved to it; the conversion starts or is deferred. Of entries that share
an instant the lowest-numbered starts, whichever is told first (R354). -/
def sarTrigger (c e t : Nat) (d : Dev) : Dev :=
  let w := ADC_SAR_TRG c e
  if !(rb d w ADC_SAR_TRG_EN && adcArmed d && fnActive d (fnPwm (rf d w ADC_SAR_TRG_PAIR))) then d
  else
    let x := getSar d c
    let st := ADC_SAR_STAT c
    let d1 := if x.deferred.contains e then bump st ADC_SAR_STAT_DROP (setSar c { x with deferred := x.deferred.filter (· != e) } d) else d
    let others := (getSar d1 c).deferred.all (fun f => decide (e < f) && smGet x.trgLast f == some t)
    let lower := (List.range e).any (fun f => smGet x.trgLast f != some t && trgNext d1 c f t == some t)
    if x.conv.isNone && others && !lower && clearOfTick d1 c then sarBegin c (.pwm e) (rf d1 w ADC_SAR_TRG_MUX) d1
    else bump st ADC_SAR_STAT_SLIP (setSar c { getSar d1 c with deferred := (getSar d1 c).deferred ++ [e] } d1)

/-! ### Results (R350, R356, R358) -/

/-- The 12-bit code of an input voltage. -/
def sarCode (vin : Int) (vref : Nat) : Nat :=
  if vin < 0 then 0 else if vref = 0 then 4095 else satNat 4095 (4096 * vin.toNat / vref)

/-- The coils that sense input n on its converter, numbered as in R352. -/
def coilsSensing (d : Dev) (n : Nat) : List (Nat × Nat × Bool) :=
  ((coilsOn d (n / 6)).zipIdx.filter (fun e => rf d (STP_SENSE e.1.1) (if e.1.2 then STP_SENSE_AIN_B else STP_SENSE_AIN_A) == n)).map
    (fun e => (e.2, e.1.1, e.1.2))

/-- A completed result of input n, sampled from TB time `at_` on, or with the first conversion of its sum at `ts` ns: registers, the choppers
that sense the input, acquisition, operand (R358). -/
def sarResult (n kind code ts at_ : Nat) (inj operand : Bool) (d : Dev) : Dev :=
  let d1 := wr (ADC_AIN_TS n) (BitVec.ofNat 32 ts) (wf (ADC_AIN_RES n) ADC_AIN_RES_NEW 1 (wr (ADC_AIN_RES n)
    (fset (BitVec.ofNat 32 (b2n inj * 1073741824 + kind * 268435456 + code % 1048576)) ADC_AIN_RES_NEW (rf d (ADC_AIN_RES n) ADC_AIN_RES_NEW)) d))
  let d2 := setAin n { done := d.tb, fresh := true, value := code, inj := inj } d1
  let d3 := if inj then d2 else forEach (coilsSensing d2 n) (fun e d =>
    stpSense e.2.1 e.2.2 code ts ((nextFrameOf 64 d (n / 6) e.1 at_).getD d.tb / nsUnits) d) d2
  let d4 := acqHand 1 n code (ts + 125) inj (wpuSync (tbNs d3) d3)
  if operand then postOperand (0x840 + n) (BitVec.ofNat 32 code) d4 else d4

/-- One conversion of an averaged set added; the set's result when it is complete. -/
def sarAdd (s : SarSum) (code ts : Nat) (inj : Bool) : SarSum :=
  { n := s.n + 1, sum := s.sum + code, ts := if s.n = 0 then ts else s.ts, inj := s.inj || inj }

/-- SAR_CONVERSION_COMPLETE of converter c with its input voltage and reference: the clock moves to ts + 1,000 ns. -/
def sarComplete (c : Nat) (vin : Int) (vref : Nat) (d0 : Dev) : Dev :=
  let x := getSar d0 c
  match x.conv with
  | none => d0
  | some v =>
    let dA := clockTo (v.ts + convNs) d0
    let g := c / 4
    let (free, dB) := if v.unsettled then draw dA else (0, dA)
    let code := if v.unsettled then free.toNat % 4096 else v.dac.getD (sarCode vin vref)
    let ts := v.ts / nsUnits
    let n := 6 * c + v.mux
    let y := { x with conv := none }
    let d := setSar c y dB
    let dead := v.dead || refErr d g
    match v.kind with
    | .tick => if dead then d else sarResult n 0 code ts v.ts v.inj (rb d (ADC_SAR_TICK c) ADC_SAR_TICK_OPERAND) d
    | .slot i =>
      (match (coilsOn d c).drop i with
       | (j, _) :: _ => if dead then stpNoSense j d else sarResult n 1 code ts v.ts v.inj false d
       | [] => d)
    | .pwm e => if dead then d else sarResult n 2 code ts v.ts v.inj (rb d (ADC_SAR_TRG c e) ADC_SAR_TRG_OPERAND) d
    | .req =>
      let (avg, shift, _) := y.reqSet
      let r := ADC_SAR_REQ c
      let fin (d : Dev) : Dev := wf r ADC_SAR_REQ_DONE 1 (wf r ADC_SAR_REQ_BUSY 0 (setSar c { getSar d c with req := {} } d))
      if dead then fin d
      else
        let s := sarAdd y.req code ts v.inj
        if s.n < 2 ^ avg then setSar c { y with req := s } d
        else sarResult n 3 (s.sum / 2 ^ shift) s.ts v.ts s.inj false (fin d)
    | .bg e =>
      let w := ADC_SAR_BG c e
      if dead then setSar c { y with bg := {} } d
      else
        let s := sarAdd y.bg code ts v.inj
        if s.n < 2 ^ rf d w ADC_SAR_BG_AVG then setSar c { y with bg := s } d
        else sarResult n 3 (s.sum / 2 ^ rf d w ADC_SAR_BG_SHIFT) s.ts v.ts s.inj (rb d w ADC_SAR_BG_OPERAND)
          (setSar c { y with bg := {}, bgEntry := (e + 1) % 6 } d)

/-- START of ADC_SARc_REQ (R357); AVG and SHIFT above 8 act as 8. -/
def sarReqStart (c : Nat) (d : Dev) : Dev :=
  let r := ADC_SAR_REQ c
  let mux := rf d r ADC_SAR_REQ_MUX
  if rb d r ADC_SAR_REQ_BUSY || decide (6 ≤ mux) then wf r ADC_SAR_REQ_REQ_REJ 1 d
  else
    let set_ := (satNat 8 (rf d r ADC_SAR_REQ_AVG), satNat 8 (rf d r ADC_SAR_REQ_SHIFT), mux)
    wf r ADC_SAR_REQ_BUSY 1 (setSar c { getSar d c with req := {}, reqSet := set_ } d)

/-! ### The latches (R359, R362) -/

/-- Is a latched result not renewed at TB time t? -/
def notRenewed (d : Dev) (g stale t : Nat) (x : AdcRes) : Bool :=
  !x.fresh || (stale != 0 && decide (x.done + stale * tickP d < t)) || refErr d g || x.inj

/-- The SAR latch at offset 1,250 ns. -/
def sarLatch (d : Dev) : Dev :=
  let t := d.tb / tickP d * tickP d + 1250 * nsUnits
  { d with lpe := { d.lpe with sarIn :=
      (d.adc.ains.map (fun e => (e.1, (e.2.value, notRenewed d (e.1 / 24) (rf d (ADC_AIN_CFG e.1) ADC_AIN_CFG_STALE) t e.2)))) } }

/-- The sigma-delta latch at TB time t. -/
def sdLatch (t : Nat) (d : Dev) : Dev :=
  { d with lpe := { d.lpe with sdIn :=
      (d.adc.sds.map (fun e => (e.1, (e.2.res.value, notRenewed d 4 (rf d (ADC_SD_CFG e.1) ADC_SD_CFG_STALE) t e.2.res)))) } }

/-! ### Sigma-delta results (R361, R362) -/

/-- The boundary that SD_RESULT of channel k belongs to: the one of the present tick start if it has not been taken, else the
next one. -/
def sdDue (d : Dev) (k : Nat) : Nat :=
  let t := odrUs (rf d (ADC_SD_CFG k) ADC_SD_CFG_ODR) * 1000 * nsUnits
  let b := d.tb / t * t
  if d.tb - b < tickP d && (getSd d k).last != some b then b else b + t

/-- The code of a differential voltage: ±VREF_SD gives ±2^23, rounded to nearest (ties away from zero), and whether it saturated. -/
def sdCode (vd : Int) (vref : Nat) : Int × Bool :=
  let z := if vref = 0 then (if vd < 0 then -8388608 else 8388608) else divNearI (vd * 8388608) vref
  (clampInt (-8388607) 8388607 z, decide (z < -8388607 ∨ 8388607 < z))

/-- SD_RESULT of channel k with its differential input and reference. -/
def sdResult (k : Nat) (vd : Int) (vref : Nat) (d0 : Dev) : Dev :=
  let cfg := ADC_SD_CFG k
  if !(rb d0 cfg ADC_SD_CFG_EN && adcArmed d0) then d0
  else
    let t := sdDue d0 k
    let d1 := clockTo t d0
    let x := getSd d1 k
    let d2 := setSd k { x with seen := x.seen + 1, last := some t } d1
    let st := ADC_SD_STAT k
    if x.seen < 2 then d2
    else
      let d3 := wf st ADC_SD_STAT_SETTLING 0 d2
      if refErr d3 4 then d3
      else
        let inj := rb d3 (ADC_TDAC 4) ADC_TDAC_EN && rf d3 (ADC_TDAC 4) ADC_TDAC_TARGET == k
        let loose := tdacUnsettled d3 4 k
        let (free, d4) := if loose then draw d3 else (0, d3)
        let (code, ovr) :=
          if loose then (clampInt (-8388607) 8388607 (sext 24 free.toNat), false)
          else if inj && !rb d3 (ADC_TDAC 4) ADC_TDAC_MODE then (clampInt (-8388607) 8388607 (((rf d3 (ADC_TDAC 4) ADC_TDAC_CODE : Nat) : Int) * 8192 - 4194304), false)
          else sdCode vd vref
        let ns := t / nsUnits
        let d5 := wr (ADC_SD_TS k) (BitVec.ofNat 32 ns) (wr (ADC_SD_RES k) (BitVec.ofInt 32 code) (wf st ADC_SD_STAT_NEW 1 d4))
        let d6 := if ovr then wf st ADC_SD_STAT_OVR 1 d5 else d5
        let d7 := sdLatch t (setSd k { getSd d6 k with res := { done := t, fresh := true, value := code, inj := inj } } d6)
        let d8 := acqHand 2 k code ns inj (wpuSync (tbNs d7) d7)
        if rb d8 cfg ADC_SD_CFG_OPERAND then postOperand (0x8A0 + k) (BitVec.ofInt 32 code) d8 else d8

/-! ### References, test DACs, calibration (R363..R366) -/

/-- REFERENCE_ERROR of reference g: running conversions of the group deliver no result. -/
def refLost (g : Nat) (d : Dev) : Dev :=
  let bit : Fld := ⟨8 + g, 8 + g⟩
  let evt : Fld := ⟨16 + g, 16 + g⟩
  let d1 := forUpTo 16 (fun c d =>
    let x := getSar d c
    match x.conv with
    | some v => if c / 4 = g then setSar c { x with conv := some { v with dead := true } } d else d
    | none => d) d
  if refErr d g then d1
  else trigger 0x21 0x2C [g] (wf ADC_STAT evt 1 (wf ADC_STAT bit 1 d1))

/-- REFERENCE_RECOVERY of reference g. -/
def refBack (g : Nat) (d : Dev) : Dev := wf ADC_STAT ⟨8 + g, 8 + g⟩ 0 d

/-- Does a RUNNING stepper, loop slot or acquisition unit (a READY run counts, R385) use an input (sd: a sigma-delta channel)? -/
def inputInUse (d : Dev) (sd : Bool) (n : Nat) : Bool :=
  (!sd && (List.range 32).any (fun j => fnIs d (fnStp j) .running &&
    (rf d (STP_SENSE j) STP_SENSE_AIN_A == n || rf d (STP_SENSE j) STP_SENSE_AIN_B == n))) ||
  (inclSlots d).any (fun s => fnIs d (fnSlot s) .running &&
    [LPE_SLOT_SRC_SP s, LPE_SLOT_SRC_Y s, LPE_SLOT_SRC_FF s].any (fun o =>
      fget (cur d o) LPE_SLOT_SRC_Y_KIND == (if sd then 7 else 6) && fget (cur d o) LPE_SLOT_SRC_Y_INDEX == n)) ||
  (List.range 8).any (fun u => acqActive d u && (List.range 16).any (fun c => acqNames d u c (if sd then 2 else 1) n))

/-- A write of ADC_TDACg: refused with INJ_REJ, or set (R365). -/
def tdacWrite (g : Nat) (v : Word) (d : Dev) : Dev :=
  let target := fget v ADC_TDAC_TARGET
  let n := tdacInput g v
  let bad := if g = 4 then decide (7 < target) else decide (23 < target)
  if bad || (fget v ADC_TDAC_EN == 1 && inputInUse d (g == 4) n) then wf ADC_STAT ADC_STAT_INJ_REJ 1 d
  else
    let d1 := wr (ADC_TDAC g) (v &&& 0xC01F03FF#32) d
    { d1 with adc := { d1.adc with
      tdacAt := smPut d1.adc.tdacAt g d.tb
      tdacWas := smPut d1.adc.tdacWas g (tdacInput g (rd d (ADC_TDAC g))) } }

/-- After function states have changed: an injection on an input whose user runs ends (R365). -/
def tdacCommit (d : Dev) : Dev :=
  forUpTo 5 (fun g d =>
    if rb d (ADC_TDAC g) ADC_TDAC_EN && inputInUse d (g == 4) (tdacInput g (rd d (ADC_TDAC g))) then
      wf ADC_STAT ADC_STAT_INJ_REJ 1 (wf (ADC_TDAC g) ADC_TDAC_EN 0 d)
    else d) d

/-- CAL of ADC_CTRL (R366). -/
def adcCal (d : Dev) : Dev :=
  if cfgActive d then wf ADC_STAT ADC_STAT_CAL_REJ 1 d else wf ADC_STAT ADC_STAT_CAL_DONE 0 d

def adcCalDone (d : Dev) : Dev := wf ADC_STAT ADC_STAT_CAL_DONE 1 d

/-- At the arming COMMIT instant: reserved frames, rotation, settling (R352, R359, R362). -/
def adcArm (d : Dev) : Dev :=
  let d1 := { d with adc := { d.adc with
    sars := d.adc.sars.map (fun e => (e.1, { e.2 with bg := {}, bgEntry := 0, deferred := [] }))
    ains := d.adc.ains.map (fun e => (e.1, { e.2 with fresh := false }))
    -- the boundary that lies behind belongs to no enabled channel
    sds := (List.range 8).map (fun k =>
      let t := odrUs (rf d (ADC_SD_CFG k) ADC_SD_CFG_ODR) * 1000 * nsUnits
      (k, { last := some (d.tb / t * t) })) } }
  let d2 := forUpTo 16 (fun c d => wf (ADC_SAR_STAT c) ADC_SAR_STAT_COILS (satNat 15 (coilsOn d c).length) d) d1
  forUpTo 8 (fun k d => wb (ADC_SD_STAT k) ADC_SD_STAT_SETTLING (rb d (ADC_SD_CFG k) ADC_SD_CFG_EN) d) d2

end Sys2Proof.Machine
end

