-- ==== Sys2Proof/Machine/Can.lean ====
section
/-! DEFINITION. The CAN FD controllers (spec/15, R461..R467). Their error counters follow ISO 11898-1 (PRESUMED, log entry 73). -/
namespace Sys2Proof.Machine
open Sys2Proof Sys2Proof.Reg

def getCan (d : Dev) (k : Nat) : CanUnit :=
  match smGet d.can k with
  | some x => x
  | none => {}

def setCan (k : Nat) (x : CanUnit) (d : Dev) : Dev := { d with can := smPut d.can k x }

/-- MODE: 0 off, 1 normal, 2 listen-only, 3 internal loopback. -/
def canMode (d : Dev) (k : Nat) : Nat := rf d (CAN_CTRL k) CAN_CTRL_MODE

/-- STATE: 0 error active, 1 error passive, 2 bus-off, 3 off. -/
def canState (d : Dev) (k : Nat) : Nat := rf d (CAN_STAT k) CAN_STAT_STATE

def txPending (d : Dev) (k b : Nat) : Bool := rb d (CAN_TXB_STAT k b) CAN_TXB_STAT_PENDING

/-! ### Configuration (R462) -/

/-- Do the bit times refuse a move of MODE from 0? -/
def canTimingBad (d : Dev) (k : Nat) : Bool :=
  let n := fun f => rf d (CAN_NBT k) f + 1
  let t := fun f => rf d (CAN_DBT k) f + 1
  decide (n CAN_NBT_NBRP * (1 + n CAN_NBT_NTSEG1 + n CAN_NBT_NTSEG2) < 80) ||
  decide (t CAN_DBT_DBRP * (1 + t CAN_DBT_DTSEG1 + t CAN_DBT_DTSEG2) < 10) ||
  decide (n CAN_NBT_NTSEG2 < n CAN_NBT_NSJW) || decide (t CAN_DBT_DTSEG2 < t CAN_DBT_DSJW) || decide (n CAN_NBT_NTSEG1 < 2)

def canCfgRej (k : Nat) (d : Dev) : Dev := wf (CAN_STAT k) CAN_STAT_CFG_REJ 1 d

/-- The bits of CANk_CTRL that are fields. -/
def canCtrlMask : Word := 0x1F3#32

/-- The error counters as CANk_STAT shows them. -/
def canShow (k : Nat) (d : Dev) : Dev :=
  let x := getCan d k
  let st := CAN_STAT k
  wf st CAN_STAT_TEC (satNat 255 x.tec) (wf st CAN_STAT_REC (satNat 127 x.rec_) (wf st CAN_STAT_RP (b2n (decide (127 < x.rec_))) d))

/-- A write to CANk_CTRL: fields other than MODE change only while MODE is 0; a move from 0 needs the bit times (R462). With MODE
from 0 the controller starts error active with cleared counters; with MODE to 0 it is off. -/
def canCtrl (k : Nat) (v : Word) (d : Dev) : Dev :=
  let off := CAN_CTRL k
  let old := rd d off
  let new := v &&& canCtrlMask
  let m := canMode d k
  let m' := fget new CAN_CTRL_MODE
  if m ≠ 0 ∧ (old ^^^ new) &&& 0x1F0#32 ≠ 0 then canCfgRej k d
  else if m = 0 ∧ m' ≠ 0 ∧ canTimingBad d k then canCfgRej k d
  else
    let d1 := wr off new d
    if m = 0 ∧ m' ≠ 0 then
      canShow k (setCan k { getCan d k with tec := 0, rec_ := 0, recovery := false, cur := none } (wf (CAN_STAT k) CAN_STAT_STATE 0 d1))
    else if m ≠ 0 ∧ m' = 0 then setCan k { getCan d k with cur := none, recovery := false } (wf (CAN_STAT k) CAN_STAT_STATE 3 d1)
    else d1

/-- A write to CANk_NBT or CANk_DBT counts only while MODE is 0. -/
def canTiming (k off : Nat) (v : Word) (d : Dev) : Dev := if canMode d k = 0 then wr off v d else canCfgRej k d

/-! ### Transmit buffers (R463, R464) -/

def txCtrl (d : Dev) (k b : Nat) (f : Fld) : Bool := rb d (CAN_TXB_CTRL k b) f

/-- REQ: pending, or REQ_REJ. -/
def canReq (k b : Nat) (d : Dev) : Dev :=
  let fdf := txCtrl d k b CAN_TXB_CTRL_FDF
  let bad := (fdf && !rb d (CAN_CTRL k) CAN_CTRL_FD_EN) || (fdf && txCtrl d k b CAN_TXB_CTRL_RTR) ||
    (txCtrl d k b CAN_TXB_CTRL_BRS && !fdf) || canMode d k == 0 || canMode d k == 2
  if bad then wf (CAN_TXB_STAT k b) CAN_TXB_STAT_REQ_REJ 1 d
  else if txPending d k b then d
  else
    let x := getCan d k
    setCan k { x with order := x.order ++ [b] } (wf (CAN_TXB_STAT k b) CAN_TXB_STAT_PENDING 1 d)

/-- A buffer is no longer pending. -/
def txEnd (k b : Nat) (d : Dev) : Dev :=
  let x := getCan d k
  setCan k { x with order := x.order.filter (fun y => y != b), cur := if x.cur.any (fun c => c.buf == b) then none else x.cur }
    (wf (CAN_TXB_STAT k b) CAN_TXB_STAT_PENDING 0 d)

/-- CANCEL: at once when the buffer is not on the bus, else by the outcome of its frame (R464). -/
def canCancel (k b : Nat) (d : Dev) : Dev :=
  if !txPending d k b then d
  else
    let x := getCan d k
    match x.cur with
    | some c =>
      if c.buf = b ∧ canState d k ≠ 2 then setCan k { x with cur := some { c with cancel := true } } d
      else wf (CAN_TXB_STAT k b) CAN_TXB_STAT_CANCELLED 1 (txEnd k b d)
    | none => wf (CAN_TXB_STAT k b) CAN_TXB_STAT_CANCELLED 1 (txEnd k b d)

/-- A write to ID, CTRL or DATA of a buffer: discarded with WR_REJ while it is pending. -/
def txWrite (k b off : Nat) (v : Word) (d : Dev) : Dev :=
  if txPending d k b then wf (CAN_TXB_STAT k b) CAN_TXB_STAT_WR_REJ 1 d else wr off v d

/-- The bus priority of a buffer: the bits that arbitrate, in their order; the lower number wins. A standard identifier with its
RTR bit comes before an extended one with the same base (ISO 11898-1, PRESUMED). -/
def txPrio (d : Dev) (k b : Nat) : Nat :=
  let id := (rd d (CAN_TXB_ID k b)).toNat % 536870912
  let rtr := b2n (txCtrl d k b CAN_TXB_CTRL_RTR)
  if txCtrl d k b CAN_TXB_CTRL_IDE then (id / 262144) * 2097152 + 1048576 + 524288 + (id % 262144) * 2 + rtr
  else (id % 2048) * 2097152 + rtr * 1048576

/-- The buffer that is offered at a start of frame (R463). -/
def txOffer (d : Dev) (k : Nat) : Option Nat :=
  if rb d (CAN_CTRL k) CAN_CTRL_TX_ORDER then (getCan d k).order.head?
  else
    ((List.range 3).filter (txPending d k)).foldl (fun best b => match best with
      | none => some b
      | some a => if txPrio d k b < txPrio d k a then some b else some a) none

/-! ### Records (R465, R466) -/

/-- The number of data bytes of a DLC. -/
def dlcLen (dlc : Nat) (fd : Bool) : Nat :=
  if dlc ≤ 8 then dlc else if !fd then 8
  else if dlc = 9 then 12 else if dlc = 10 then 16 else if dlc = 11 then 20 else if dlc = 12 then 24 else if dlc = 13 then 32
  else if dlc = 14 then 48 else 64

/-- A record: ID word, DLC, FLAGS, lost records, SOF time, data padded to a multiple of 8. -/
def canRecord (id dlc flags lost ts : Nat) (data : List Byte) : List Byte :=
  leBytes 4 id ++ leBytes 1 (dlc % 16) ++ leBytes 1 flags ++ leBytes 2 (satNat 65535 lost) ++ leBytes 8 ts ++ data ++
  List.replicate ((8 - data.length % 8) % 8) 0

/-- Records go to the streaming ring while it has room. -/
def canDrain : Nat → Nat → Dev → Dev
  | 0, _, d => d
  | n + 1, k, d =>
    let x := getCan d k
    match x.fifo with
    | (r, gap) :: t =>
      if !streamOn d 2 k then d
      else
        let (d1, taken) := streamTake 2 k gap r d
        if taken then canDrain n k (setCan k { getCan d1 k with fifo := t } d1) else d1
    | [] => d

/-- A frame is recorded: into the 32 places, or lost; nothing without an enabled ring. -/
def canKeep (k id dlc flags ts : Nat) (data : List Byte) (d : Dev) : Dev :=
  if !streamOn d 2 k then d
  else
    let x := getCan d k
    let d0 := canDrain 32 k d
    let y := getCan d0 k
    if y.fifo.length < 32 then
      canDrain 33 k (setCan k { y with fifo := y.fifo ++ [(canRecord id dlc flags x.lost ts data, x.lost != 0)], lost := 0 } d0)
    else bump (CAN_CNT k) CAN_CNT_RX_LOST (setCan k { y with lost := y.lost + 1 } d0)

/-! ### Frames on the bus (R463, R464, R466) -/

/-- TS of a start of frame seen now: TB ns minus 8 (R466). -/
def sofTs (d : Dev) : Nat := tbNs d - 8

/-- CAN_START_OF_FRAME: the controller offers a pending buffer and arbitrates; which frame wins shows in what follows. -/
def canSof (k : Nat) (d : Dev) : Dev :=
  let st := canState d k
  if (canMode d k = 1 ∨ canMode d k = 3) ∧ st ≠ 2 ∧ st ≠ 3 then
    match txOffer d k with
    | some b => setCan k { getCan d k with cur := some { buf := b, sof := sofTs d } } d
    | none => d
  else d

/-- Error passive by the counters; bus-off is an event of its own. -/
def canErrState (k : Nat) (d : Dev) : Dev :=
  let x := getCan d k
  let st := canState d k
  if st = 2 ∨ st = 3 then canShow k d
  else
    let passive := decide (127 < x.tec) || decide (127 < x.rec_)
    let d1 := wf (CAN_STAT k) CAN_STAT_STATE (b2n passive) (canShow k d)
    if passive ∧ st = 0 then wf (CAN_STAT k) CAN_STAT_EPASS_EVT 1 d1 else d1

/-- The offered buffer does not get its frame through: CANCELLED with a CANCEL, TX_FAIL with ONESHOT, else it is retried. -/
def txFail (k : Nat) (c : CanTx) (d : Dev) : Dev :=
  if c.cancel then wf (CAN_TXB_STAT k c.buf) CAN_TXB_STAT_CANCELLED 1 (txEnd k c.buf d)
  else if rb d (CAN_CTRL k) CAN_CTRL_ONESHOT then wf (CAN_TXB_STAT k c.buf) CAN_TXB_STAT_TX_FAIL 1 (txEnd k c.buf d)
  else setCan k { getCan d k with cur := none } d

/-- Arbitration lost to another frame. -/
def arbLost (k : Nat) (d : Dev) : Dev :=
  match (getCan d k).cur with
  | none => d
  | some c => txFail k c (bump (CAN_TXB_STAT k c.buf) CAN_TXB_STAT_ARB_LOST d)

/-- Does the controller take part in the bus: on, and not in bus-off? -/
def canLive (d : Dev) (k : Nat) : Bool := canMode d k != 0 && canState d k != 2

/-- CAN_FRAME_RECEIVE: a correct frame of another node, its SOF seen at TB ns `sof`; a buffer that was offered has lost. -/
def canReceive (k id dlc flags sof : Nat) (data : List Byte) (d : Dev) : Dev :=
  if canLive d k && canMode d k != 3 then
    let d1 := arbLost k d
    let x := getCan d1 k
    let r := if 127 < x.rec_ then 127 else x.rec_ - 1
    let d2 := canErrState k (setCan k { x with rec_ := r } d1)
    canKeep k (id % 2147483648) dlc (flags % 8) (sof - 8)
      (if id / 1073741824 % 2 = 1 then [] else data.take (dlcLen (dlc % 16) (flags % 2 == 1))) d2
  else d

/-- The data bytes of a buffer. -/
def txData (d : Dev) (k b : Nat) : List Byte :=
  if txCtrl d k b CAN_TXB_CTRL_RTR then []
  else ((List.range 16).flatMap (fun w => leBytes 4 (rd d (CAN_TXB_DATA k b w)).toNat)).take
    (dlcLen (rf d (CAN_TXB_CTRL k b) CAN_TXB_CTRL_DLC) (txCtrl d k b CAN_TXB_CTRL_FDF))

/-- The ID word of a buffer's record. -/
def txId (d : Dev) (k b : Nat) : Nat :=
  (rd d (CAN_TXB_ID k b)).toNat % 536870912 + 536870912 * b2n (txCtrl d k b CAN_TXB_CTRL_IDE) + 1073741824 * b2n (txCtrl d k b CAN_TXB_CTRL_RTR)

/-- TX_OK: the frame on the bus completes; `tdcv` is the transmitter delay measured in an FD frame, `esi` its ESI bit. -/
def canTxOk (k tdcv : Nat) (esi : Bool) (d : Dev) : Dev :=
  match (getCan d k).cur with
  | none => d
  | some c =>
    let b := c.buf
    let fdf := txCtrl d k b CAN_TXB_CTRL_FDF
    let id := txId d k b
    let dlc := rf d (CAN_TXB_CTRL k b) CAN_TXB_CTRL_DLC
    let fl := b2n fdf + 2 * b2n (txCtrl d k b CAN_TXB_CTRL_BRS) + 4 * b2n esi
    let data := txData d k b
    let d1 := emit (.canFrame k (rd d (CAN_TXB_ID k b)) (rd d (CAN_TXB_CTRL k b)) data) (txEnd k b d)
    let d2 := wr64 (CAN_TXB_TS_LO k b) (CAN_TXB_TS_HI k b) c.sof (wf (CAN_TXB_STAT k b) CAN_TXB_STAT_TX_OK 1 d1)
    let d3 := if fdf then wf (CAN_TDC k) CAN_TDC_TDCV tdcv d2 else d2
    let x := getCan d3 k
    let d4 := canErrState k (setCan k { x with tec := x.tec - 1 } d3)
    let d5 := if rb d4 (CAN_CTRL k) CAN_CTRL_ECHO then canKeep k id dlc (fl + 8) c.sof data d4 else d4
    if canMode d5 k = 3 then canKeep k id dlc fl c.sof data d5 else d5

/-- CAN_ERROR_FRAME: an error frame on the bus. `code` is 1 stuff, 2 form, 3 ack, 4 bit1, 5 bit0, 6 CRC; `data` says in which phase
it came; `tx` that this controller was the transmitter; `first` that, as a receiver, it sees a dominant bit after its flag. -/
def canError (k code : Nat) (data tx first : Bool) (d : Dev) : Dev :=
  if canLive d k then
    let d1 := wf (CAN_STAT k) (if data then CAN_STAT_DLEC else CAN_STAT_LEC) code (bump (CAN_CNT k) CAN_CNT_BUS_ERR d)
    let d2 := match (getCan d1 k).cur with
      | none => d1
      | some c => if tx then txFail k c d1 else arbLost k d1
    let x := getCan d2 k
    let silent := tx && code == 3 && decide (127 < x.tec)
    let y := if canMode d k = 2 ∨ silent then x
      else if tx then { x with tec := x.tec + 8 }
      else { x with rec_ := x.rec_ + (if first then 8 else 1) }
    canErrState k (setCan k y d2)
  else d

/-! ### Bus-off (R467) -/

/-- BUS_OFF: entered when the transmit counter has passed 255; with AUTO_BOR recovery starts at once. -/
def canBusOff (k : Nat) (d : Dev) : Dev :=
  let x := getCan d k
  if canLive d k && decide (255 < x.tec) then
    setCan k { x with cur := none, recovery := rb d (CAN_CTRL k) CAN_CTRL_AUTO_BOR }
      (wf (CAN_STAT k) CAN_STAT_STATE 2 (wf (CAN_STAT k) CAN_STAT_BOFF_EVT 1 d))
  else d

/-- CANk_CMD BOR. -/
def canBor (k : Nat) (d : Dev) : Dev := if canState d k = 2 then setCan k { getCan d k with recovery := true } d else d

/-- BUS_OFF_RECOVERY_END: after 128 occurrences of 11 recessive bits, error active with cleared counters. -/
def canRecovered (k : Nat) (d : Dev) : Dev :=
  let x := getCan d k
  if canState d k = 2 ∧ x.recovery then
    canShow k (setCan k { x with recovery := false, tec := 0, rec_ := 0 } (wf (CAN_STAT k) CAN_STAT_STATE 0 d))
  else d

/-- TXBb_CMD: 1 REQ, 2 CANCEL. -/
def txCmd (k b cmd : Nat) (d : Dev) : Dev := if cmd = 1 then canReq k b d else if cmd = 2 then canCancel k b d else d

end Sys2Proof.Machine
end

