-- ==== Sys2Proof/Machine/Net.lean ====
section
/-! DEFINITION. The switch and the PTP engine (spec/05, R180..R188). Timestamps and corrections of this file are in units of
2^-16 ns where a comment does not say ns. The formulas of IEEE 1588-2019 are PRESUMED (log entry 50). -/
namespace Sys2Proof.Machine
open Sys2Proof Sys2Proof.Reg

def getPort (d : Dev) (p : Nat) : NetPort :=
  match smGet d.net.ports p with
  | some x => x
  | none => {}

def setPort (p : Nat) (x : NetPort) (d : Dev) : Dev := { d with net := { d.net with ports := smPut d.net.ports p x } }

def portEn (d : Dev) (p : Nat) : Bool := rb d (NET_PORT_CFG p) NET_PORT_CFG_EN
def portUp (d : Dev) (p : Nat) : Bool := portEn d p && rb d (NET_PORT_CFG p) NET_PORT_CFG_LINK
def portBlocked (d : Dev) (p : Nat) : Bool := rb d (NET_PORT_CFG p) NET_PORT_CFG_BLOCK
def portLine (d : Dev) (p : Nat) : Bool := rb d (NET_PORT_CFG p) NET_PORT_CFG_LINE
def portCut (d : Dev) (p : Nat) : Bool := rb d (NET_PORT_CFG p) NET_PORT_CFG_CUT

/-- The device's MAC address. -/
def ownMac (d : Dev) : Nat := rf d NET_MAC_HI NET_MAC_HI_MAC * 4294967296 + (rd d NET_MAC_LO).toNat

/-! ### Gates (R183) -/

/-- The offset of gate list entry e of port p. -/
def gclOff (p e : Nat) : Nat := 0xA140 + 0x100 * p + 4 * e

/-- The entries of a list up to the one with LAST. -/
def upToLast : List Word → List Word
  | [] => []
  | w :: t => if bitOf w 8 then [w] else w :: upToLast t

/-- The list that the live bank holds for port p. -/
def gateLive (d : Dev) (p : Nat) : GateList :=
  { en := cb d (NET_PORT_CFG p) NET_PORT_CFG_GATE_EN
    cyc := satNat 2 (cf d (NET_PORT_CFG p) NET_PORT_CFG_CYC_LOG2)
    entries := upToLast ((List.range 16).map (fun e => cur d (gclOff p e))) }

/-- The list in force: that of before a swap until the first cycle that starts at or after it. -/
def gateNow (d : Dev) (p : Nat) : GateList :=
  match (getPort d p).old with
  | some (g, t) => if d.tb < t then g else gateLive d p
  | none => gateLive d p

/-- The gate cycle in TB time units. -/
def gateCycle (d : Dev) (g : GateList) : Nat := tickP d * 2 ^ g.cyc

/-- Before a swap of class CONFIG at TB time t: the present list stays in force until the first cycle that starts at or after t. -/
def gateKeep (t p : Nat) (d : Dev) : Dev :=
  let g := gateNow d p
  let c := gateCycle d g
  setPort p { getPort d p with old := some (g, (t + c - 1) / c * c) } d

/-- The segments of a list: (start, gates), starts in TB time units of the cycle; END counts 8 ns. -/
def gateSegs : Nat → List Word → List (Nat × Nat)
  | _, [] => []
  | start, [w] => [(start, w.toNat % 256)]
  | start, w :: t => (start, w.toNat % 256) :: gateSegs (max start (w.toNat / 65536 * 8 * nsUnits)) t

/-- The gates in force at position x of the cycle. -/
def gatesAt (segs : List (Nat × Nat)) (x : Nat) : Nat := segs.foldl (fun g s => if s.1 ≤ x then s.2 else g) 255

/-- The time from position x until the gate of class c next closes, over this cycle and the following one; none when it stays
open. -/
def gateCloses (segs : List (Nat × Nat)) (cyc c x : Nat) : Option Nat :=
  let closed := (segs.filter (fun s => s.2 / 2 ^ c % 2 == 0)).map (·.1)
  match closed.filter (fun s => x < s) with
  | s :: _ => some (s - x)
  | [] =>
    match closed with
    | s :: _ => some (s + cyc - x)
    | [] => none

/-- Bytes of a frame on the wire: addresses, tag, EtherType, body and FCS; at least 64. -/
def frameLen (f : EthFrame) : Nat := max 64 (18 + (if f.tag.isSome then 4 else 0) + f.body.length)

/-- Bytes that an item counts for its gate: a cut-through frame as 1,522; a PTP message by its type and transport. -/
def itemLen : NetItem → Nat
  | .frame _ true _ => 1522
  | .frame f false _ => frameLen f
  | .ptp t m _ => max 64 (18 + (if t = 0 ∨ t = 1 ∨ t = 8 then 44 else 54) + (if m.udp then 28 else 0))

/-- May item `it` of class c start now on port p: its gate is open, and it ends before the gate closes (1 Gb/s, with preamble
and gap of 20 bytes). -/
def gateOpen (d : Dev) (p c : Nat) (it : NetItem) : Bool :=
  let g := gateNow d p
  if !g.en then true
  else
    let cyc := gateCycle d g
    let x := d.tb % cyc
    let segs := gateSegs 0 g.entries
    let need := (itemLen it + 20) * 8 * nsUnits
    decide (gatesAt segs x / 2 ^ c % 2 = 1) &&
    (match gateCloses segs cyc c x with
     | none => true
     | some t => decide (need ≤ t))

/-- The instant of the next change of gates of port p: the next segment or cycle start. -/
def gateNext (d : Dev) (p : Nat) : Nat :=
  let g := gateNow d p
  let cyc := gateCycle d g
  let x := d.tb % cyc
  match (gateSegs 0 g.entries).filter (fun s => decide (x < s.1)) with
  | s :: _ => d.tb - x + s.1
  | [] => d.tb - x + cyc

/-! ### Classes (R181) -/

/-- The Celivo group address 03-4B-46-4C-00-00. -/
def celivoGroup : Nat := 0x034B464C0000

def celEtype (d : Dev) : Nat := rf d NET_CELIVO_CFG NET_CELIVO_CFG_ETYPE

/-- Where the PTP message of a frame starts in its body: IEEE 802.3 transport, or UDP over IPv4 ports 319 and 320. -/
def ptpStart (d : Dev) (f : EthFrame) : Option Nat :=
  if f.etype = 0x88F7 then some 0
  else if f.etype = 0x0800 && rb d NET_PTP_CFG NET_PTP_CFG_UDP4 then
    let ihl := leNat (f.body.take 1) % 16 * 4
    let port := beNat ((f.body.drop (ihl + 2)).take 2)
    if leNat ((f.body.drop 9).take 1) = 17 ∧ (port = 319 ∨ port = 320) then some (ihl + 8) else none
  else none

/-- The class that the switch gives a frame whatever its priority: TC for Celivo, 6 for PTP. -/
def fixedClass (d : Dev) (f : EthFrame) : Option Nat :=
  if f.etype = celEtype d then some (rf d NET_CELIVO_CFG NET_CELIVO_CFG_TC)
  else if (ptpStart d f).isSome then some 6
  else none

/-- The traffic class of a frame (R181); the PCP is bits 15:13 of the tag. -/
def frameClass (d : Dev) (f : EthFrame) : Nat :=
  (fixedClass d f).getD (match f.tag with
    | some tci => tci / 8192 % 8
    | none => 0)

/-! ### Timestamps and messages of the PTP engine (R186..R188) -/

/-- The receive timestamp of an SFD that passes the PCS boundary of port p at TB ns `ts`. -/
def rxStamp (d : Dev) (p ts : Nat) : Int := (ts * 65536 : Nat) - ((rd d (NET_PORT_DLY_RX p)).toNat : Int)

/-- The transmit timestamp of an SFD that passes it `after` ns after the present instant. -/
def txStamp (d : Dev) (p after : Nat) : Int := ((tbNs d + after) * 65536 + (rd d (NET_PORT_DLY_TX p)).toNat : Nat)

/-- The whole ns and the fraction of a timestamp. -/
def tsNs (t : Int) : Nat := (t / 65536).toNat
def tsFrac (t : Int) : Int := t % 65536

/-! ### Egress (R181, R182, R187) -/

/-- Bytes of a list replaced from a place on. -/
def patch (bs : List Byte) (at_ : Nat) (new : List Byte) : List Byte := bs.take at_ ++ new ++ bs.drop (at_ + new.length)

/-- An event message that a transparent clock forwards: this copy's residence time, and with P2P the ingress link delay, added to its
correctionField; the UDP checksum set to 0 (R187). The residence time is a free value (log entry 21). -/
def residence (ing : Nat) (f : EthFrame) (d : Dev) : EthFrame × Dev :=
  match ptpStart d f with
  | none => (f, d)
  | some s =>
    if leNat ((f.body.drop s).take 1) % 16 < 4 then
      let (r, d1) := draw d
      let link := if rb d (NET_PORT_CFG ing) NET_PORT_CFG_P2P then (rd d (NET_PORT_LINK_DLY ing)).toNat else 0
      let c := beNat ((f.body.drop (s + 8)).take 8) + r.toNat + link
      let b1 := patch f.body (s + 8) (beBytes 8 c)
      ({ f with body := if s = 0 then b1 else patch b1 (s - 2) (beBytes 2 0) }, d1)
    else (f, d)

/-- A message of the PTP engine leaves port p. A one-step Sync takes its originTimestamp, a one-step Pdelay_Resp its turnaround time;
a two-step one queues its follow-up; a Delay_Req and a Pdelay_Req leave their transmit time behind (R187). How long after the present
instant the SFD passes is a free value (log entry 240). -/
def ptpLeave (p type : Nat) (m : PtpMsg) (base : Int) (d : Dev) : Dev :=
  let (w, d1) := draw d
  let t := txStamp d p w.toNat
  let x := getPort d1 p
  let follow (k : Nat) : Dev := setPort p { x with queue := x.queue ++ [(6, .ptp k { m with twoStep := false, ts := tsNs t, corr := base + tsFrac t } 0)] }
    (emit (.ptp p type m) d1)
  match type, m.twoStep with
  | 0, false => emit (.ptp p 0 { m with ts := tsNs t, corr := base + tsFrac t }) d1
  | 0, true => follow 8
  | 1, _ => emit (.ptp p 1 m) (setPort p { x with t3 := some t } d1)
  | 2, _ => emit (.ptp p 2 m) (setPort p { x with pT1 := (m.udp, t) :: x.pT1.filter (fun e => e.1 != m.udp) } d1)
  | 3, false => emit (.ptp p 3 { m with corr := base + t }) d1
  | 3, true => follow 10
  | _, _ => emit (.ptp p type m) d1

/-- An item leaves port p. -/
def itemLeave (p : Nat) (x : NetItem) (d : Dev) : Dev :=
  match x with
  | .frame f _ none => emit (.ethFrame p f) d
  | .frame f _ (some i) => let (f', d1) := residence i f d; emit (.ethFrame p f') d1
  | .ptp t m base => ptpLeave p t m base d

/-- The waiting item that leaves next: the first one of the highest class that may start. -/
def egressNext (d : Dev) (p : Nat) (q : List (Nat × NetItem)) : Option (Nat × NetItem) :=
  ([7, 6, 5, 4, 3, 2, 1, 0] : List Nat).findSome? (fun c =>
    match q.findIdx? (fun e => e.1 == c), q.find? (fun e => e.1 == c) with
    | some i, some e => if gateOpen d p c e.2 then some (i, e.2) else none
    | _, _ => none)

/-- Items leave port p in strict priority while a gate lets one go. -/
def egress : Nat → Nat → Dev → Dev
  | 0, _, d => d
  | n + 1, p, d =>
    let x := getPort d p
    match egressNext d p x.queue with
    | none => d
    | some (i, y) => egress n p (itemLeave p y (setPort p { x with queue := x.queue.eraseIdx i } d))

/-- Everything that may leave port p leaves; a two-step message brings one more. -/
def egressAll (p : Nat) (d : Dev) : Dev := egress (2 * (getPort d p).queue.length) p d

/-- An item for egress port p in class c. -/
def queueItem (p c : Nat) (x : NetItem) (d : Dev) : Dev :=
  egressAll p (setPort p { getPort d p with queue := (getPort d p).queue ++ [(c, x)] } d)

/-- A frame for egress port p: only where its link is up, and no BLOCK port forwards it (R180). -/
def enqueue (p c : Nat) (x : NetItem) (d : Dev) : Dev := if portUp d p && !portBlocked d p then queueItem p c x d else d

/-- A message of the PTP engine for port p, in class 6; a BLOCK port keeps its PTP (R180, R181). -/
def ptpOut (p type : Nat) (m : PtpMsg) (base : Int) (d : Dev) : Dev := if portUp d p then queueItem p 6 (.ptp type m base) d else d

/-! ### Forwarding (R180..R182) -/

/-- The port that an address was learnt on. -/
def learntPort (d : Dev) (mac : Nat) : Option Nat := (d.net.fdb.find? (fun e => e.1 == mac)).map (fun e => e.2.1)

/-- The egress ports of a frame that came in on `ing` (none: from the device itself). -/
def egressPorts (d : Dev) (ing : Option Nat) (dst : Nat) : List Nat :=
  let others := (List.range 3).filter (fun p => some p != ing)
  if dst = celivoGroup then others.filter (portLine d)
  else if dst = ownMac d then []
  else match learntPort d dst with
    | some p => if some p = ing then [] else [p]
    | none => others

/-- A frame forwarded to its egress ports; one whose FCS is wrong leaves only in cut-through, with an inverted FCS. A transparent clock
adds the residence time of each copy. -/
def forward (ing : Option Nat) (c : Nat) (f : EthFrame) (d : Dev) : Dev :=
  let stamp := if rf d NET_PTP_CFG NET_PTP_CFG_ROLE = 3 then ing else none
  forEach (egressPorts d ing f.dst) (fun p d =>
    let cut := ing.isSome && portCut d p
    if f.fcsOk || cut then enqueue p c (.frame f cut stamp) d else d) d

/-- A unicast source address is learnt, or its entry refreshed; at most 1,024 addresses. -/
def learn (mac p : Nat) (d : Dev) : Dev :=
  if mac / 1099511627776 % 2 = 1 then d
  else
    let rest := d.net.fdb.filter (fun e => e.1 != mac)
    if rest.length < 1024 then { d with net := { d.net with fdb := rest ++ [(mac, p, tbNs d)] } } else d

/-- Does the PTP engine keep a PTP frame for itself (a clock of its own, or a peer-delay message of a P2P transparent clock)? -/
def ptpEnds (d : Dev) (ing : Nat) (f : EthFrame) : Bool :=
  match ptpStart d f with
  | none => false
  | some s =>
    let role := rf d NET_PTP_CFG NET_PTP_CFG_ROLE
    let t := leNat ((f.body.drop s).take 1) % 16
    role == 1 || role == 2 || (role == 3 && rb d (NET_PORT_CFG ing) NET_PORT_CFG_P2P && (t == 2 || t == 3 || t == 10))

/-- FRAME_INGRESS: the switch forwards a frame that port p received (R180..R183). -/
def frameIngress (p : Nat) (f : EthFrame) (d : Dev) : Dev :=
  if !(portUp d p) then d
  else
    let d1 := if f.fcsOk then learn f.src p d else d
    if portBlocked d1 p || ptpEnds d1 p f then d1 else forward (some p) (frameClass d1 f) f d1

/-- MAC_AGEING: addresses whose last frame is 300 s old go; the clock moves to the instant of the oldest one. -/
def macAgeing (d : Dev) : Dev :=
  match d.net.fdb with
  | [] => d
  | e :: t =>
    let oldest := t.foldl (fun m x => min m x.2.2) e.2.2
    let d1 := clockToNs (oldest + 300000000000) d
    { d1 with net := { d1.net with fdb := d1.net.fdb.filter (fun x => decide (tbNs d1 < x.2.2 + 300000000000)) } }

/-- GATE_ENTRY_CHANGE of port p: the clock moves to the change; frames whose gate is open leave. -/
def gateChange (p : Nat) (d : Dev) : Dev :=
  if (gateNow d p).en then egressAll p (clockTo (gateNext d p) d) else d

/-- PORT_LINK_CHANGE: LINK; with the link down waiting frames and learnt addresses of the port go (PRESUMED, log entry 51). -/
def portLinkChange (p : Nat) (up : Bool) (d : Dev) : Dev :=
  let d1 := wb (NET_PORT_CFG p) NET_PORT_CFG_LINK up d
  if up then egressAll p d1
  else setPort p { getPort d1 p with queue := [], wait := none, t3 := none, pT1 := [], pWait := none }
    { d1 with net := { d1.net with fdb := d1.net.fdb.filter (fun e => e.2.1 != p) } }

/-- A frame from its bytes (without FCS). -/
def parseFrame (bs : List Byte) : EthFrame :=
  let e := beNat ((bs.drop 12).take 2)
  if e = 0x8100 then
    let tci := beNat ((bs.drop 14).take 2)
    ⟨beNat (bs.take 6), beNat ((bs.drop 6).take 6), some tci, beNat ((bs.drop 16).take 2), bs.drop 18, true⟩
  else ⟨beNat (bs.take 6), beNat ((bs.drop 6).take 6), none, e, bs.drop 14, true⟩

/-- Is every egress port down (LINK_DOWN of R148)? -/
def allPortsDown (d : Dev) : Bool := (List.range 3).all (fun p => !portUp d p)

/-- A frame of the management MAC: Celivo and PTP frames in their class (R181), any other in the class of its priority (DEDUCED, log
entry 52). -/
def mgmtSend (prio : Nat) (bs : List Byte) (d : Dev) : Dev :=
  let f := parseFrame bs
  forward none ((fixedClass d f).getD (prio % 8)) f d

/-! ### PTP (R185..R188) -/

/-- The engine's clockIdentity: NET_MAC with 0xFF, 0xFE after the third octet (R188). -/
def ownClock (d : Dev) : Nat := ownMac d / 16777216 * 1099511627776 + 0xFFFE * 16777216 + ownMac d % 16777216

def ptpRole (d : Dev) : Nat := rf d NET_PTP_CFG NET_PTP_CFG_ROLE

/-- PTP_STATE of port p: 0 DISABLED, 1 PASSIVE, 2 MASTER, 3 SLAVE; 4..7 act as 0. -/
def ptpState (d : Dev) (p : Nat) : Nat :=
  let s := rf d (NET_PORT_CFG p) NET_PORT_CFG_PTP_STATE
  if s ≤ 3 then s else 0

def isP2p (d : Dev) (p : Nat) : Bool := rb d (NET_PORT_CFG p) NET_PORT_CFG_P2P
def isTwoStep (d : Dev) (p : Nat) : Bool := rb d (NET_PORT_CFG p) NET_PORT_CFG_TWO_STEP

/-- Does the SLAVE port accept the sender (R188)? -/
def ptpParent (d : Dev) (m : PtpMsg) : Bool :=
  let parent := (rd d NET_PTP_PARENT_HI).toNat * 4294967296 + (rd d NET_PTP_PARENT_LO).toNat
  parent == 0 || m.clock == parent

/-- Is a received message one that the engine processes on port p: role, port, domain, majorSdoId, transport (R185); on the SLAVE port
the sender (R188)? -/
def ptpTakes (d : Dev) (p : Nat) (m : PtpMsg) : Bool :=
  ptpRole d != 0 && portUp d p && ptpState d p != 0 && m.domain == rf d NET_PTP_CFG NET_PTP_CFG_DOMAIN &&
  m.sdo == rf d NET_PTP_CFG NET_PTP_CFG_MAJOR_SDO && (!m.udp || rb d NET_PTP_CFG NET_PTP_CFG_UDP4) &&
  (ptpState d p != 3 || ptpParent d m)

/-- A message of this device on port p, over UDP/IPv4 or the IEEE 802.3 transport. -/
def ptpMake (d : Dev) (p : Nat) (udp : Bool) (seq ts : Nat) (corr : Int) (twoStep : Bool) (reqClock reqPort : Nat) : PtpMsg :=
  { udp := udp, sdo := rf d NET_PTP_CFG NET_PTP_CFG_MAJOR_SDO, domain := rf d NET_PTP_CFG NET_PTP_CFG_DOMAIN, twoStep := twoStep,
    corr := corr, clock := ownClock d, port := p + 1, seq := seq, ts := ts, reqClock := reqClock, reqPort := reqPort, raw := [] }

/-- The transports of a message that the device originates: IEEE 802.3, with UDP4 also UDP/IPv4 (R185; DEDUCED, log entry 241). An answer
takes the transport of its request. -/
def ptpTransports (d : Dev) : List Bool := if rb d NET_PTP_CFG NET_PTP_CFG_UDP4 then [false, true] else [false]

/-- With MIRROR an event message that a port receives is also copied to the management MAC (R188). -/
def ptpMirror (p : Nat) (m : PtpMsg) (d : Dev) : Dev :=
  if rb d NET_PTP_CFG NET_PTP_CFG_MIRROR && portUp d p then streamFrame m.raw d else d

/-- A complete Sync measurement on port p: t2 − t1 − corrections, less the path delay; only the lowest SLAVE port feeds the
servo. An end-to-end slave then sends a Delay_Req over the same transport. -/
def syncDone (p : Nat) (udp : Bool) (diff : Int) (d : Dev) : Dev :=
  let x := getPort d p
  let delay : Int := if isP2p d p then (rd d (NET_PORT_LINK_DLY p)).toNat else x.meanPath
  let d1 := setPort p { x with diff := diff, wait := none } d
  let d2 := if slavePort d = some p then servoMeasure (diff - delay) d1 else d1
  if isP2p d p then d2 else ptpOut p 1 (ptpMake d2 p udp (getPort d2 p).reqSeq 0 0 false 0 0) 0 d2

/-- SYNC received on port p at TB ns `ts`. -/
def ptpSync (p : Nat) (m : PtpMsg) (ts : Nat) (d : Dev) : Dev :=
  let d := ptpMirror p m d
  if ptpTakes d p m && ptpState d p == 3 then
    if m.twoStep then setPort p { getPort d p with wait := some (m, rxStamp d p ts) } d
    else syncDone p m.udp (rxStamp d p ts - (m.ts * 65536 : Nat) - m.corr) d
  else d

/-- FOLLOW_UP received on port p: it completes the two-step Sync of the same sender, transport and sequence. -/
def ptpFollowUp (p : Nat) (m : PtpMsg) (d : Dev) : Dev :=
  match (getPort d p).wait with
  | none => d
  | some (y, t2) =>
    if ptpTakes d p m && ptpState d p == 3 && y.clock == m.clock && y.port == m.port && y.seq == m.seq && y.udp == m.udp then
      syncDone p m.udp (t2 - (m.ts * 65536 : Nat) - y.corr - m.corr) d
    else d

/-- DELAY_REQ received on a MASTER port at TB ns `ts`: answered with Delay_Resp. -/
def ptpDelayReq (p : Nat) (m : PtpMsg) (ts : Nat) (d : Dev) : Dev :=
  let d := ptpMirror p m d
  if ptpTakes d p m && ptpState d p == 2 && ptpRole d != 3 && !isP2p d p then
    let t4 := rxStamp d p ts
    ptpOut p 9 (ptpMake d p m.udp m.seq (tsNs t4) (m.corr - tsFrac t4) false m.clock m.port) 0 d
  else d

/-- DELAY_RESP received for this port: the mean path delay of the end-to-end mechanism. -/
def ptpDelayResp (p : Nat) (m : PtpMsg) (d : Dev) : Dev :=
  let x := getPort d p
  match x.t3 with
  | none => d
  | some t3 =>
    if ptpTakes d p m && ptpState d p == 3 && m.reqClock == ownClock d && m.reqPort == p + 1 && m.seq == x.reqSeq then
      setPort p { x with t3 := none, reqSeq := (x.reqSeq + 1) % 65536,
                         meanPath := (x.diff + ((m.ts * 65536 : Nat) - t3 - m.corr)) / 2 } d
    else d

/-- PDELAY_REQ received at TB ns `ts`: answered one-step with the turnaround time, or two-step (R187). -/
def ptpPdelayReq (p : Nat) (m : PtpMsg) (ts : Nat) (d : Dev) : Dev :=
  let d := ptpMirror p m d
  if ptpTakes d p m && isP2p d p then
    let t2 := rxStamp d p ts
    if isTwoStep d p then ptpOut p 3 (ptpMake d p m.udp m.seq (tsNs t2) (-tsFrac t2) true m.clock m.port) m.corr d
    else ptpOut p 3 (ptpMake d p m.udp m.seq 0 0 false m.clock m.port) (m.corr - t2) d
  else d

/-- A peer delay measured on port p over one transport: meanLinkDelay in 16.16 ns. -/
def linkDelay (p : Nat) (udp : Bool) (v : Int) (d : Dev) : Dev :=
  let x := getPort d p
  wr (NET_PORT_LINK_DLY p) (BitVec.ofNat 32 (clampInt 0 4294967295 v).toNat)
    (setPort p { x with pT1 := x.pT1.filter (fun e => e.1 != udp), pWait := none } d)

/-- Does a message answer a request of port p with sequence s? -/
def ptpMine (d : Dev) (p s : Nat) (m : PtpMsg) : Bool := m.reqClock == ownClock d && m.reqPort == p + 1 && m.seq == s

/-- t1 of the Pdelay_Req that port p sent over a transport and that has no answer yet. -/
def pdelayT1 (d : Dev) (p : Nat) (udp : Bool) : Option Int := ((getPort d p).pT1.find? (fun e => e.1 == udp)).map (·.2)

/-- PDELAY_RESP received at TB ns `ts`: one-step completes the measurement, two-step waits for its follow-up. -/
def ptpPdelayResp (p : Nat) (m : PtpMsg) (ts : Nat) (d : Dev) : Dev :=
  let d := ptpMirror p m d
  let x := getPort d p
  match pdelayT1 d p m.udp with
  | none => d
  | some t1 =>
    if ptpTakes d p m && isP2p d p && ptpMine d p x.pSeq m then
      let t4 := rxStamp d p ts
      if m.twoStep then setPort p { x with pWait := some (m, t4) } d else linkDelay p m.udp ((t4 - t1 - m.corr) / 2) d
    else d

/-- PDELAY_RESP_FOLLOW_UP received: it completes the two-step peer delay measurement. -/
def ptpPdelayFollow (p : Nat) (m : PtpMsg) (d : Dev) : Dev :=
  match pdelayT1 d p m.udp, (getPort d p).pWait with
  | some t1, some (y, t4) =>
    if ptpTakes d p m && isP2p d p && ptpMine d p y.seq m && y.udp == m.udp then
      linkDelay p m.udp ((t4 - t1 - ((m.ts * 65536 : Nat) - (y.ts * 65536 : Nat)) - y.corr - m.corr) / 2) d
    else d
  | _, _ => d

/-- SYNC_INTERVAL_EXPIRY: a MASTER port of a clock sends a Sync, two-step with its Follow_Up (R187). -/
def ptpSendSync (p : Nat) (d : Dev) : Dev :=
  if (ptpRole d == 1 || ptpRole d == 2) && portUp d p && ptpState d p == 2 then
    let x := getPort d p
    forEach (ptpTransports d) (fun u d => ptpOut p 0 (ptpMake d p u x.syncSeq 0 0 (isTwoStep d p) 0 0) 0 d)
      (setPort p { x with syncSeq := (x.syncSeq + 1) % 65536 } d)
  else d

/-- PDELAY_INTERVAL_EXPIRY: a P2P port sends a Pdelay_Req. -/
def ptpSendPdelay (p : Nat) (d : Dev) : Dev :=
  if ptpRole d != 0 && portUp d p && ptpState d p != 0 && isP2p d p then
    let x := getPort d p
    let s := (x.pSeq + 1) % 65536
    forEach (ptpTransports d) (fun u d => ptpOut p 2 (ptpMake d p u s 0 0 false 0 0) 0 d)
      (setPort p { x with pSeq := s, pT1 := [], pWait := none } d)
  else d

end Sys2Proof.Machine
end

