-- ==== Sys2Proof/Machine/Line.lean ====
section
/-! DEFINITION. The Celivo line (spec/05, R189..R207): acceptance of frames, streams, stop requests, set-points to drives, joining
and the frames that the device forms in its COMMIT phases. -/
namespace Sys2Proof.Machine
open Sys2Proof Sys2Proof.Reg

def modCel (f : CelUnit → CelUnit) (d : Dev) : Dev := { d with cel := f d.cel }

/-- Is Celivo enabled and its block ready? -/
def celOn (d : Dev) : Bool := rb d NET_CELIVO_CFG NET_CELIVO_CFG_EN && rb d SYS_READY SYS_READY_NET

def devId (d : Dev) : Nat := rf d NET_NODE NET_NODE_DEV_ID

/-- Its own SRC_HIER (R189). -/
def ownHier (d : Dev) : Nat := (rd d NET_NODE).toNat / 4096 % 65536

/-- The device's epoch: power cycles plus joins since the last cold reset, modulo 256 (R205). -/
def ownEpoch (d : Dev) : Nat := (d.pwr.pcyc + d.cel.joins) % 256

def jstate (d : Dev) : Nat := rf d NET_CELIVO_CTRL NET_CELIVO_CTRL_JSTATE
def setJstate (s : Nat) (d : Dev) : Dev := wf NET_CELIVO_CTRL NET_CELIVO_CTRL_JSTATE s d

/-- Is a 32-bit tick at or after another one (serial arithmetic; DEDUCED, log entry 53)? -/
def tickAfter (a b : Nat) : Bool := decide ((a + 4294967296 - b % 4294967296) % 4294967296 < 2147483648)

/-- A big-endian field of a payload. -/
def pay (p : List Byte) (off len : Nat) : Nat := beNat ((p.drop off).take len)

/-! ### Acceptance (R193, R194) -/

/-- The payload length that a class needs (R190). -/
def classLen (cls : Nat) (p : List Byte) : Nat :=
  match cls with
  | 1 => 48
  | 2 => 16 + 6 * pay p 0xC 1
  | 3 => 28 + pay p 0x18 2
  | 4 => 32
  | 5 => 32
  | 6 => 16
  | 7 => 12 + 16 * pay p 2 2
  | _ => 8

/-- Step 1 of R193. -/
def formatOk (d : Dev) (f : CelFrame) : Bool :=
  f.fcsOk && f.etype == celEtype d && f.version == 1 && decide (1 ≤ f.cls ∧ f.cls ≤ 8) &&
  decide (classLen f.cls (f.payload.take f.len) ≤ f.len) && decide (f.len ≤ f.payload.length)

/-- A watch entry that names a station. -/
def watchesOf (d : Dev) (id : Nat) : List Nat :=
  (List.range 64).filter (fun w => rb d (NET_WATCH w) NET_WATCH_EN && rf d (NET_WATCH w) NET_WATCH_DEV_ID == id)

def watchState (d : Dev) (w : Nat) : Nat := rf d (NET_WATCH w) NET_WATCH_STATE
def setWatch (s : Nat) (w : Nat) (d : Dev) : Dev := wf (NET_WATCH w) NET_WATCH_STATE s d

/-- Watch entry w changes to LOST: an event record (R204). -/
def watchLost (w : Nat) (d : Dev) : Dev := trigger 0x11 0x0A [rf d (NET_WATCH w) NET_WATCH_DEV_ID] (setWatch 2 w d)

def getWatch (d : Dev) (w : Nat) : WatchSt :=
  match smGet d.cel.watch w with
  | some x => x
  | none => {}

def putWatch (w : Nat) (x : WatchSt) (d : Dev) : Dev := modCel (fun c => { c with watch := smPut c.watch w x }) d

/-- An epoch recorded for a station, shown in its watch entries. -/
def recordEpoch (id e : Nat) (d : Dev) : Dev :=
  forEach (watchesOf d id) (fun w d => wf (NET_WATCH w) NET_WATCH_EPOCH e d) (modCel (fun c => { c with epochs := smPut c.epochs id e }) d)

/-- Step 4 of R193: the epoch is the recorded one, the first one, or that of an offer in force whose JOIN_AT has come. -/
def epochStep (f : CelFrame) (d : Dev) : Option Dev :=
  let id := f.srcId % 4096
  match smGet d.cel.epochs id with
  | none => some (recordEpoch id f.epoch d)
  | some e =>
    if e = f.epoch then some d
    else if d.cel.offers.any (fun o => o.joiner == id && o.newEpoch == f.epoch && tickAfter f.tickLo o.joinAt) then
      some (recordEpoch id f.epoch d)
    else none

/-- Steps 1 to 4 of R193; the answer says whether the frame goes on. -/
def celPre (f : CelFrame) (d : Dev) : Dev × Bool :=
  if !(celOn d) then (d, false)
  else if !(formatOk d f) then (bump NET_CELIVO_ERR NET_CELIVO_ERR_FORMAT d, false)
  else if f.srcId % 4096 = devId d ∧ f.flags % 2 = 0 then (wf NET_CELIVO_CTRL NET_CELIVO_CTRL_DUP_ID 1 d, false)
  else if f.cls = 3 ∨ 6 ≤ f.cls then (d, true)
  else match epochStep f d with
    | some d' => (d', true)
    | none => (bump NET_CELIVO_ERR NET_CELIVO_ERR_UNJOINED d, false)

/-- Step 5 of R193 fails. -/
def celOld (d : Dev) : Dev := bump NET_CELIVO_ERR NET_CELIVO_ERR_OLD d

/-- The frames missing between two sequence numbers of one stream (R194). -/
def seqGap (last new : Nat) : Nat := (new + 8589934591 - last) % 4294967296

def celPayload (f : CelFrame) : List Byte := f.payload.take f.len

/-! ### Streams (R192..R196, R203) -/

/-- Subscriptions of a stream. -/
def subsOf (d : Dev) (stream : Nat) : List Nat :=
  (List.range 16).filter (fun k => rb d (NET_RXS_CFG k) NET_RXS_CFG_EN && rf d (NET_RXS_CFG k) NET_RXS_CFG_STREAM == stream)

/-- An operand of a source whose enable is bit `bit` of a SCH_OPEN register (R397). -/
def postOpen (reg bit key : Nat) (v : Word) (d : Dev) : Dev := if bitOf (rd d reg) bit then postOperand key v d else d

/-- What follows an accepted MASTER_POS frame at subscription k: its sender, loss, operand, and the channels that use it. -/
def subTake (k src loss seq : Nat) (m : MpStream) (d : Dev) : Dev :=
  let st := NET_RXS_STAT k
  let d1 := bumpBy st NET_RXS_STAT_LOSS loss (wf st NET_RXS_STAT_SRC_ID src d)
  let d2 := postOpen SCH_OPEN0 k (0x980 + k) (BitVec.ofNat 32 seq) d1
  forUpTo 4 (fun c d => forEach [false, true] (fun b d =>
    if srcKind d c b = 2 ∧ srcIdx d c b = k then celFrame c b m d else d) d) d2

/-- MASTER_POS received (R193, R194, R218). -/
def celMasterPos (f : CelFrame) (d : Dev) : Dev :=
  match celPre f d with
  | (d, false) => d
  | (d, true) =>
    let p := celPayload f
    let stream := pay p 2 2
    let m : MpStream := { src := f.srcId % 4096, epoch := f.epoch, seq := pay p 4 4, validAt := pay p 8 8, pos := sext 64 (pay p 0x10 8),
                          vel := sext 64 (pay p 0x18 8), acc := sext 64 (pay p 0x20 8), still := pay p 1 1 % 2 == 1, rev := pay p 1 1 / 2 % 2 == 1 }
    let last := smGet d.cel.streams stream
    let old := match last with | some l => decide (m.validAt ≤ l.validAt) | none => false
    if old then celOld d
    else
      let loss := match last with
        | some l => if l.src = m.src ∧ l.epoch = m.epoch then seqGap l.seq m.seq else 0
        | none => 0
      let d1 := bumpBy NET_CELIVO_ERR NET_CELIVO_ERR_LOSS loss (modCel (fun c => { c with streams := smPut c.streams stream m }) d)
      forEach (subsOf d1 stream) (fun k d => subTake k m.src loss m.seq m d) d1

/-- LINE_STATE received: the watch entries of its sender (R192, R199, R204). -/
def celLineState (f : CelFrame) (d : Dev) : Dev :=
  match celPre f d with
  | (d, false) => d
  | (d, true) =>
    let p := celPayload f
    let leaving := pay p 0 1 == 255
    let list := (List.range (pay p 0xC 1)).map (fun i => (pay p (0x10 + 6 * i) 2, pay p (0x12 + 6 * i) 1, pay p (0x14 + 6 * i) 2))
    forEach (watchesOf d (f.srcId % 4096)) (fun w d =>
      setWatch (if leaving then 0 else 1) w
        (putWatch w { lastTick := tickNum d, heard := true, list := list, ovf := pay p 2 1 / 8 % 2 == 1 } d)) d

/-- STATION_LOST of watch entry w: no LINE_STATE accepted for DROP_TICKS ticks (R204). -/
def stationLost (w : Nat) (d : Dev) : Dev :=
  if watchState d w = 1 ∧ (getWatch d w).lastTick + max 1 (rf d NET_CELIVO_CFG2 NET_CELIVO_CFG2_DROP_TICKS) ≤ tickNum d then
    watchLost w d
  else d

/-- The key of a SETPOINT (class 4) or DRIVE_STATUS (class 5) stream: SRC_ID and DRIVE (R194). -/
def driveKey (cls src drive : Nat) : Nat := (cls * 4096 + src % 4096) * 64 + drive % 64

/-- SETPOINT received: step 5 of R193 and the loss count of its stream; no rule gives the device a use of its values. -/
def celSetpoint (f : CelFrame) (d : Dev) : Dev :=
  match celPre f d with
  | (d, false) => d
  | (d, true) =>
    let p := celPayload f
    let key := driveKey 4 f.srcId (pay p 0 1)
    let x : DrvStream := { epoch := f.epoch, seq := pay p 4 4, validAt := pay p 8 8, state := 0, echo := 0, pos := sext 64 (pay p 0x10 8),
                           vel := BitVec.ofNat 32 (pay p 0x18 4), trq := BitVec.ofNat 32 (pay p 0x1C 4) }
    match smGet d.cel.drives key with
    | none => modCel (fun c => { c with drives := smPut c.drives key x }) d
    | some l =>
      if x.validAt ≤ l.validAt then celOld d
      else bumpBy NET_CELIVO_ERR NET_CELIVO_ERR_LOSS (if l.epoch = x.epoch then seqGap l.seq x.seq else 0)
        (modCel (fun c => { c with drives := smPut c.drives key x }) d)

/-- A received frame of class `cls`, or one that has no row of its own: a SETPOINT, a CLASS that step 1 discards. -/
def celTake (cls : Nat) (act : CelFrame → Dev → Dev) (f : CelFrame) (d : Dev) : Dev :=
  if f.cls = cls then act f d else if f.cls = 4 then celSetpoint f d else (celPre f d).1

def getSpt (d : Dev) (i : Nat) : SptSt :=
  match smGet d.cel.spt i with
  | some x => x
  | none => {}

def setSpt (i : Nat) (x : SptSt) (d : Dev) : Dev := modCel (fun c => { c with spt := smPut c.spt i x }) d

def sptEn (d : Dev) (i : Nat) : Bool := rb d (NET_SPT_MAC_HI i) NET_SPT_MAC_HI_EN
def sptDrive (d : Dev) (i : Nat) : Nat := rf d (NET_SPT_MAC_HI i) NET_SPT_MAC_HI_DRIVE
def sptLimit (d : Dev) (i : Nat) : Nat := max 1 (rf d (NET_SPT_MAC_HI i) NET_SPT_MAC_HI_ECHO_LIMIT)

/-- The stream of the drive of NET_SPT_i: a drive uses its owning device's ID (R189). -/
def sptStream (d : Dev) (i : Nat) : Option DrvStream := smGet d.cel.drives (driveKey 5 (devId d) (sptDrive d i))

/-- DRIVE_STATUS received (R193, R194, R201, R203). -/
def celDriveStatus (f : CelFrame) (d : Dev) : Dev :=
  match celPre f d with
  | (d, false) => d
  | (d, true) =>
    let p := celPayload f
    let src := f.srcId % 4096
    let key := driveKey 5 src (pay p 0 1)
    let x : DrvStream := { epoch := f.epoch, seq := f.seq, validAt := pay p 8 8, state := pay p 1 1, echo := pay p 4 4, pos := sext 64 (pay p 0x10 8),
                           vel := BitVec.ofNat 32 (pay p 0x18 4), trq := BitVec.ofNat 32 (pay p 0x1C 4) }
    let last := smGet d.cel.drives key
    let old := match last with | some l => decide (x.validAt ≤ l.validAt) | none => false
    if old then celOld d
    else
      let loss := match last with
        | some l => if l.epoch = x.epoch then (x.seq + 131071 - l.seq % 65536) % 65536 else 0
        | none => 0
      let d1 := bumpBy NET_CELIVO_ERR NET_CELIVO_ERR_LOSS loss (modCel (fun c => { c with drives := smPut c.drives key x }) d)
      if src ≠ devId d1 then d1
      else forUpTo 64 (fun i d =>
        if sptEn d i && sptDrive d i == pay p 0 1 % 64 then
          let s := getSpt d i
          let adv := match s.lastEcho with | some e => decide (x.echo ≠ e) && tickAfter x.echo e | none => true
          let d2 := if adv then setSpt i { s with lastEcho := some x.echo, lag := 0 } d else d
          let d3 := wf (NET_SPT_STAT i) NET_SPT_STAT_STATE x.state d2
          postOpen (if i < 32 then SCH_OPEN1 else SCH_OPEN2) (i % 32) (0x9A0 + i) (BitVec.ofNat 32 x.echo) d3
        else d) d1

/-- The state of a stream at SAMPLE instant `at_` (TB time): 0 NONE, 1 FRESH, 2 STALE (R195). -/
def streamState (d : Dev) (at_ : Nat) (validAt : Option Nat) : Nat :=
  match validAt with
  | none => 0
  | some v => if at_ ≤ v * nsUnits + rf d NET_CELIVO_CFG2 NET_CELIVO_CFG2_STALE_TICKS * tickP d then 1 else 2

/-- The streams at the SAMPLE instant of tick n: states, echo lags, drives that have come back, the drive values that the loop
engine latches (R195, R203, R322). -/
def celSample (n : Nat) (d : Dev) : Dev :=
  let t := n * tickP d
  let d1 := forUpTo 16 (fun k d =>
    let s := if rb d (NET_RXS_CFG k) NET_RXS_CFG_EN then
        streamState d t ((smGet d.cel.streams (rf d (NET_RXS_CFG k) NET_RXS_CFG_STREAM)).map (·.validAt)) else 0
    wf (NET_RXS_STAT k) NET_RXS_STAT_STATE s d) d
  forUpTo 64 (fun i d =>
    if sptEn d i then
      let s := getSpt d i
      let st := streamState d t ((sptStream d i).map (·.validAt))
      let d2 := if rb d (NET_SPT_STAT i) NET_SPT_STAT_LOST && s.lag == 0 then wf (NET_SPT_STAT i) NET_SPT_STAT_LOST 0 d else d
      let d3 := setSpt i { s with lag := s.lag + 1, staleTicks := if st = 2 then s.staleTicks + 1 else 0 } d2
      let d4 := wf (NET_SPT_STAT i) NET_SPT_STAT_ECHO_LAG (satNat 255 (s.lag + 1)) d3
      match sptStream d i with
      | some x => { d4 with lpe := { d4.lpe with drvIn := smPut d4.lpe.drvIn i ⟨x.pos, x.vel, x.trq, st == 2⟩ } }
      | none => d4
    else d) d1

/-- DRIVE_LOST of NET_SPT_i (R203). -/
def driveLost (i : Nat) (d : Dev) : Dev :=
  let s := getSpt d i
  let st := NET_SPT_STAT i
  if sptEn d i && !(rb d st NET_SPT_STAT_LOST) && decide (sptLimit d i ≤ s.lag ∨ sptLimit d i ≤ s.staleTicks) then
    mpgDriveLost i (wf st NET_SPT_STAT_LOST_EVT 1 (wf st NET_SPT_STAT_LOST 1 d))
  else d

/-! ### Stop requests (R197..R200) -/

/-- Does the device lie within SCOPE of TARGET? -/
def stopMatches (d : Dev) (scope target : Nat) : Bool :=
  let h := ownHier d
  match scope with
  | 0 => true
  | 1 => h / 1024 == target / 1024
  | 2 => h / 16 == target / 16
  | 3 => h == target
  | _ => false

def stopKey (r : StopReq) : Nat × Nat × Nat := (r.src, r.epoch, r.req)

/-- A request whose key has not acted waits for its COMMIT instant (R198). -/
def stopWait (r : StopReq) (d : Dev) : Dev :=
  let waits := d.cel.pend.any (fun e => match e.1 with | .put q => stopKey q == stopKey r | _ => false)
  if !(d.cel.seen.contains (stopKey r)) && !waits then modCel (fun c => { c with pend := c.pend ++ [(.put r, d.tb)] }) d else d

/-- A request that matches this device is accepted (R198). -/
def stopAccept (r : StopReq) (d : Dev) : Dev := if stopMatches d r.scope r.target then stopWait r d else d

def parseStop (f : CelFrame) : StopReq :=
  let p := celPayload f
  { src := f.srcId % 4096, epoch := f.epoch, req := pay p 4 2, kind := pay p 0 1, scope := pay p 1 1, target := pay p 2 2, origin := pay p 6 1,
    reason := pay p 7 1, issuedAt := pay p 8 8, decel := pay p 0x10 8, safe := (p.drop 0x1C).take (pay p 0x18 2) }

/-- STOP_REQ received with KIND STOP or QUICK; another KIND does nothing here. -/
def celStopReq (f : CelFrame) (d : Dev) : Dev :=
  match celPre f d with
  | (d, false) => d
  | (d, true) =>
    let r := parseStop f
    if r.kind = 1 ∨ r.kind = 2 then stopAccept r d else d

/-- RELEASE received: from a station whose epoch is the recorded one; a request of a safety island by its safety release
(R200, R489). -/
def celRelease (f : CelFrame) (d : Dev) : Dev :=
  match celPre f d with
  | (d, false) => d
  | (d, true) =>
    let r := parseStop f
    let joined := smGet d.cel.epochs r.src == some r.epoch
    let safeOk := r.origin != 1 || leNat ((r.safe.drop 3).take 1) == 0x80
    if r.kind = 0x80 && joined && safeOk then
      modCel (fun c => { c with pend := c.pend ++ [(.lift r.src r.epoch r.req r.origin, d.tb)] }) d
    else d

/-- A request is put in force: it takes a place, or joins the overflow stop (R198, R200). -/
def stopPut (r : StopReq) (d : Dev) : Dev :=
  if d.cel.seen.contains (stopKey r) then d
  else
    let c := d.cel
    let seen := c.seen ++ [stopKey r]
    if c.stops.length < 16 then
      modCel (fun _ => { c with stops := c.stops ++ [r], seen := seen, ackSrc := r.src, ackReq := r.req }) d
    else
      let (k, s) := c.ovf.getD (0, false)
      modCel (fun _ => { c with ovf := some (max k r.kind, s || r.origin == 1), seen := seen }) d

/-- What was accepted acts (R198, R200). A RELEASE lifts the request with its key; one whose ORIGIN is 1 only as a safety release. -/
def stopAct (e : StopEvt) (d : Dev) : Dev :=
  match e with
  | .put r => stopPut r d
  | .lift src epoch req origin =>
    modCel (fun c => { c with stops := c.stops.filter (fun r => !(stopKey r == (src, epoch, req) && (r.origin == 0 || origin == 1))) }) d
  | .forceAll =>
    modCel (fun c => { c with
      stops := c.stops.filter (fun r => r.origin == 1)
      ovf := match c.ovf with | some (k, true) => some (k, true) | _ => none }) d

/-- At a COMMIT instant everything accepted at least 500 ns ago acts, in its order; when the last request is lifted the print
bars may fire again (R198, R239). -/
def celStops (d : Dev) : Dev :=
  let due := d.cel.pend.filter (fun e => decide (e.2 + 500 * nsUnits ≤ d.tb))
  if due.isEmpty then d
  else
    let was := stopInForce d
    let d1 := forEach due (fun e d => stopAct e.1 d)
      (modCel (fun c => { c with pend := c.pend.filter (fun e => !decide (e.2 + 500 * nsUnits ≤ d.tb)) }) d)
    if was && !stopInForce d1 then barsLifted d1 else d1

/-- NET_STOP_STAT as it reads. -/
def stopStat (d : Dev) : Nat :=
  let c := d.cel
  let own := c.issued.reverse.head?
  (if stopInForce d then 2147483648 else 0) + b2n c.ovf.isSome * 1073741824 +
  b2n (match c.ovf with | some (_, s) => s | none => false) * 536870912 + c.stops.length * 16777216 +
  b2n (match own with | some i => i.stands | none => false) * 65536 + (match own with | some i => i.r.req | none => 0)

/-- A hierarchy address without the bits that SCOPE ignores (R197): a line ignores all, a segment keeps bits 15:10, a module 15:4. -/
def scopeBits (scope target : Nat) : Nat :=
  match scope with
  | 0 => 0
  | 1 => target / 1024 * 1024
  | 2 => target / 16 * 16
  | _ => target

/-- A request issued by this device: it is sent from the coming COMMIT phase on and put in force here (R199). -/
def stopIssue (r : StopReq) (d : Dev) : Dev :=
  let r := { r with src := devId d, epoch := ownEpoch d, req := d.cel.nextReq, issuedAt := tbNs d, target := scopeBits r.scope r.target }
  stopAccept r (modCel (fun c => { c with issued := c.issued ++ [{ r := r }], nextReq := if c.nextReq = 65535 then 1 else c.nextReq + 1 }) d)

/-- ISSUE of NET_STOP_CTRL. -/
def stopHostIssue (scope kind reason target : Nat) (d : Dev) : Dev :=
  if kind = 1 ∨ kind = 2 then
    stopIssue { src := 0, epoch := 0, req := 0, kind := kind, scope := scope, target := target, origin := 0, reason := reason,
                decel := rd64 d NET_STOP_DECEL_LO NET_STOP_DECEL_HI } d
  else d

/-- The standing request issued here with this EPOCH and REQ_ID is released: RELEASE is sent with the present time as its ISSUED_AT
(DEDUCED, log entry 57), and the request is lifted here. -/
def stopRelease (epoch req : Nat) (safe : List Byte) (d : Dev) : Dev :=
  match d.cel.issued.find? (fun i => i.r.epoch == epoch && i.r.req == req && i.stands) with
  | none => d
  | some i =>
    modCel (fun c => { c with
      issued := c.issued.map (fun x => if x.r.epoch = epoch ∧ x.r.req = req then { x with r := { x.r with safe := safe, issuedAt := tbNs d }, release := true, stands := false, sends := 0 } else x)
      pend := c.pend ++ [(.lift i.r.src i.r.epoch i.r.req i.r.origin, d.tb)] }) d

/-- RELEASE_OWN: the last request issued by host or firmware. -/
def stopReleaseOwn (d : Dev) : Dev :=
  match d.cel.issued.reverse.find? (fun i => i.r.origin == 0) with
  | none => d
  | some i => stopRelease i.r.epoch i.r.req [] d

/-- FORCE_RELEASE_ALL. -/
def stopForceAll (d : Dev) : Dev := modCel (fun c => { c with pend := c.pend ++ [(.forceAll, d.tb)] }) d

/-- The PRESENT watch entries. -/
def presentWatches (d : Dev) : List Nat :=
  (List.range 64).filter (fun w => rb d (NET_WATCH w) NET_WATCH_EN && watchState d w == 1)

/-- Has every PRESENT watched station acknowledged a request (its LIST shows the key, or STOP_OVF)? For a RELEASE: no LIST
shows the key any more. -/
def stopAcked (d : Dev) (i : Issued) : Bool :=
  (presentWatches d).all (fun w =>
    let x := getWatch d w
    let has := x.list.contains (stopKey i.r)
    if i.release then !has else has || x.ovf)

/-! ### Forming frames (R189..R192, R201, R206) -/

/-- A frame formed in the COMMIT phase of tick n: header and payload; queued at the start of the next tick. -/
def celForm (n cls : Nat) (dst : Option Nat) (payload : List Byte) (d : Dev) : Dev :=
  let seq := (match smGet d.cel.seqs cls with | some s => s | none => 0) % 65536
  let hdr := beBytes 1 (16 + cls) ++ beBytes 1 0 ++ beBytes 2 (devId d) ++ beBytes 2 (ownHier d) ++ beBytes 2 seq ++ beBytes 4 n ++
    beBytes 2 payload.length ++ beBytes 1 (ownEpoch d) ++ beBytes 1 0
  modCel (fun c => { c with seqs := smPut c.seqs cls (seq + 1), formed := c.formed ++ [⟨cls, dst, hdr ++ payload⟩] }) d

/-- At the start of a tick the frames formed are queued (R191); the zero padding of R189 fills the shortest Ethernet frame (PRESUMED,
IEEE 802.3; log entry 56). -/
def celSend (d : Dev) : Dev :=
  forEach d.cel.formed (fun t d =>
    let tag := if rb d NET_CELIVO_CFG NET_CELIVO_CFG_VLAN_EN then
        some (rf d NET_CELIVO_CFG NET_CELIVO_CFG_PCP * 8192 + rf d NET_CELIVO_CFG2 NET_CELIVO_CFG2_VID) else none
    let f : EthFrame := ⟨t.dst.getD celivoGroup, ownMac d, tag, celEtype d, t.payload ++ List.replicate ((if tag.isSome then 42 else 46) - t.payload.length) 0, true⟩
    forward none (rf d NET_CELIVO_CFG NET_CELIVO_CFG_TC) f d) (modCel (fun c => { c with formed := [] }) d)

/-- Is a device of a twin pair the one that publishes MASTER_POS and SETPOINT: neither shadow, nor syncing, nor demoted (R495,
R501)? -/
def twnPublishes (d : Dev) : Bool := rf d TWN_STAT TWN_STAT_ROLE < 2 && !d.twn.demoted

/-- TB ns of the SAMPLE instant of tick n. -/
def tickNs (d : Dev) (n : Nat) : Nat := n * tickP d / nsUnits

/-- MASTER_POS of channel c, with the values latched at the SAMPLE instant (R192, R243). -/
def formMasterPos (n c : Nat) (d : Dev) : Dev :=
  if rb d (NET_MPTX c) NET_MPTX_EN && chanRuns d c && twnPublishes d then
    let x := getChan d c
    let st := WPU_CH_STAT c
    let syn := x.carried || srcKind d c (actB d c) == 3
    let seq := ((match smGet d.cel.mpSeq c with | some s => s | none => 0) + 1) % 4294967296
    celForm n 1 none
      (beBytes 1 c ++ beBytes 1 (rf d st WPU_CH_STAT_STANDSTILL + 2 * rf d st WPU_CH_STAT_REVERSE + 4 * b2n syn) ++ beBytes 2 (rf d (NET_MPTX c) NET_MPTX_STREAM) ++ beBytes 4 seq ++
       beBytes 8 (tickNs d n) ++ beBytes 8 (ofInt 64 (x.pos / 4294967296)) ++ beBytes 8 (ofInt 64 x.vel) ++ beBytes 8 (ofInt 64 x.acc) ++
       beBytes 4 (rd d (WPU_CH_EPOCH c)).toNat ++ beBytes 4 0)
      (modCel (fun u => { u with mpSeq := smPut u.mpSeq c seq }) d)
  else d

/-- Does something move here: a RUNNING channel or an active generator (DEDUCED, log entry 54)? -/
def anyMotion (d : Dev) : Bool :=
  (List.range 4).any (fun c => chanRuns d c && (getChan d c).vel != 0) ||
  (List.range 64).any (fun m => fnActive d (fnMpg m) && ((getMpg d m).v != 0 || !rb d (MPG_STAT m) MPG_STAT_STANDSTILL))

/-- CFG_STAT.STATE (R105 and its register). -/
def cfgStateNum (d : Dev) : Nat :=
  match d.cfg.state with
  | .empty => 0
  | .loading => 1
  | .loaded => 2
  | .incomplete => 3
  | .arming => 4
  | .armed => 5
  | .disarming => 6

/-- LINE_STATE (R192); with `leaving` its CFG_STATE is 0xFF. -/
def formLineState (n : Nat) (leaving : Bool) (d : Dev) : Dev :=
  let c := d.cel
  let st := TB_STAT
  let flags := rf d st TB_STAT_LOCKED + 2 * rf d st TB_STAT_HOLDOVER + 4 * b2n (slavePort d).isNone + 8 * b2n c.ovf.isSome
  let role := rf d TWN_STAT TWN_STAT_ROLE
  let moves := anyMotion d
  let faulted := (d.fns.filter (fun e => e.2.state == .faulted)).length
  celForm n 2 none
    (beBytes 1 (if leaving then 255 else cfgStateNum d) ++ beBytes 1 (rf d SAF_STAT SAF_STAT_STATE) ++ beBytes 1 flags ++
     beBytes 1 (min role 2) ++ beBytes 4 (rd d CFG_IMAGE_ID).toNat ++ beBytes 2 c.ackSrc ++ beBytes 2 c.ackReq ++
     beBytes 1 c.stops.length ++ beBytes 1 (if moves then (if stopInForce d then 2 else 1) else 0) ++ beBytes 2 (satNat 65535 faulted) ++
     c.stops.flatMap (fun r => beBytes 2 r.src ++ beBytes 1 r.epoch ++ beBytes 1 0 ++ beBytes 2 r.req)) d

/-- The payload of a STOP_REQ (R197). -/
def stopPayload (r : StopReq) (release : Bool) : List Byte :=
  beBytes 1 (if release then 0x80 else r.kind) ++ beBytes 1 r.scope ++ beBytes 2 r.target ++ beBytes 2 r.req ++ beBytes 1 r.origin ++
  beBytes 1 r.reason ++ beBytes 8 r.issuedAt ++ beBytes 8 r.decel ++ beBytes 2 r.safe.length ++ beBytes 2 0 ++ r.safe

/-- One STOP_REQ frame of an issued request. A DUPLICATE sends nothing more (R207). -/
def formStop (n : Nat) (i : Issued) (d : Dev) : Dev :=
  if jstate d = 6 then d
  else celForm n 3 none (stopPayload i.r i.release) (modCel (fun c => { c with
    issued := c.issued.map (fun x => if stopKey x.r = stopKey i.r then { x with sends := x.sends + 1, last := n } else x) }) d)

/-- Is an issued request repeated in tick n: in each of at least 8 ticks and until it is acknowledged; then every 64 ticks while it
stands (R199); a RELEASE until no PRESENT station lists the request? -/
def repeats (d : Dev) (n : Nat) (i : Issued) : Bool :=
  i.sends != 0 && n != i.last && (decide (i.sends < 8) || !stopAcked d i || (!i.release && decide (i.last + 64 ≤ n)))

/-- STOP_REQ_REPEAT of the requests issued here with this REQ_ID (one for each epoch). -/
def stopRepeat (req : Nat) (d : Dev) : Dev :=
  forEach (d.cel.issued.filter (fun i => i.r.req == req)) (fun i d => if repeats d (tickNum d) i then formStop (tickNum d) i d else d) d

/-- The set-point and its velocity feed-forward for NET_SPT_i in tick n, or none when none is sent (R101, R201; OUT = 2 of a generator, a slot
routed to it; the value that a fault delivers goes out once, R341). The CTRL bits are free values (log entry 21). -/
def sptValue (n : Nat) (d : Dev) (i : Nat) : Option (Int × Word) :=
  let genOn := mpgOut d i == 2 && fnActive d (fnMpg i)
  let g := getMpg d i
  let tps : Int := ticksPerSecond d
  let vff := fOfRat (g.v * tps) (2 ^ 40)
  match rf d (NET_SPT_MAC_HI i) NET_SPT_MAC_HI_MODE with
  | 2 =>
    (match slotFor d 5 i with
     | some s => if fnActive d (fnSlot s) || (fnIs d (fnSlot s) .faulted && (getSlot d s).fltTick == some n) then
         some (satI64 (fRoundScaled (getSlot d s).u 32 9223372036854775808), if mpgOut d i == 2 && (getFn d (fnMpg i)).included then vff else 0) else none
     | none => none)
  | 1 => if genOn then some (satI64 (g.v * tps / 256), vff) else none
  | _ => if genOn then some (satI64 g.p, vff) else none

/-- The SETPOINT frame of NET_SPT_i in tick n (R201). -/
def formSetpoint (n i : Nat) (d : Dev) : Dev :=
  if sptEn d i && twnPublishes d then
    match sptValue n d i with
    | none => d
    | some (v, vff) =>
      let (fr, d) := draw d
      let s := getSpt d i
      let mac := rf d (NET_SPT_MAC_HI i) NET_SPT_MAC_HI_MAC * 4294967296 + (rd d (NET_SPT_MAC_LO i)).toNat
      celForm n 4 (some mac)
        (beBytes 1 (sptDrive d i) ++ beBytes 1 (rf d (NET_SPT_MAC_HI i) NET_SPT_MAC_HI_MODE % 3) ++ beBytes 2 (fr.toNat % 8) ++ beBytes 4 s.seq ++
         beBytes 8 (tickNs d (n + 2)) ++ beBytes 8 (ofInt 64 v) ++ beBytes 4 vff.toNat ++ beBytes 4 0)
        (setSpt i { s with seq := s.seq + 1 } d)
  else d

/-- JOIN_REQ (R206 step 1). -/
def formJoinReq (n : Nat) (d : Dev) : Dev :=
  let a := d.cel.attempt + 1
  setJstate 2 (celForm n 6 none (beBytes 4 (rd d CFG_IMAGE_ID).toNat ++ beBytes 1 (ownEpoch d + 1) ++ beBytes 1 a ++ beBytes 2 0 ++ beBytes 8 (tbNs d))
    (modCel (fun u => { u with attempt := a, reqTick := n }) d))

/-- JOIN_OFFER with its list of requests in force (R206 step 2). -/
def formOffer (n joiner newEpoch result joinAt : Nat) (d : Dev) : Dev :=
  celForm n 7 none (beBytes 1 result ++ beBytes 1 newEpoch ++ beBytes 2 d.cel.stops.length ++ beBytes 4 joinAt ++ beBytes 2 joiner ++ beBytes 2 0 ++
    d.cel.stops.flatMap (fun r => beBytes 2 r.src ++ beBytes 1 r.kind ++ beBytes 1 r.scope ++ beBytes 2 r.target ++ beBytes 2 r.req ++
      beBytes 1 r.epoch ++ beBytes 7 0)) d

/-- The frames of a join that wait for this COMMIT phase: an offer only of a device that is JOINED (R205). -/
def formTodo (n : Nat) (t : CelTodo) (d : Dev) : Dev :=
  let at_ := (n + 16) % 4294967296
  match t with
  | .answer j e 0 => if jstate d ≠ 4 then d else
    formOffer n j e 0 at_ (forEach (watchesOf d j) (fun w d => if watchState d w = 1 then d else setWatch 3 w d)
      (modCel (fun c => { c with made := c.made ++ [⟨j, e, at_, false⟩], offers := c.offers ++ [{ sponsor := devId d, joiner := j, newEpoch := e, joinAt := at_ }] }) d))
  | .answer j e r => if jstate d ≠ 4 then d else formOffer n j e r at_ d
  | .ack =>
    (match d.cel.taken with
     | some o => celForm n 8 (some o.mac) (beBytes 4 o.joinAt ++ beBytes 1 o.newEpoch ++ beBytes 3 0) d
     | none => d)
  | .withdraw j e at_ => if jstate d ≠ 4 then d else formOffer n j e 3 at_ d

/-- The Celivo frames of the COMMIT phase of tick n (R190, R191, R205). -/
def celCommit (n : Nat) (d : Dev) : Dev :=
  if !(celOn d) then d
  else
    let d1 := if jstate d = 1 then formJoinReq n d else d
    let todo := d1.cel.todo
    let d2 := forEach todo (formTodo n) (modCel (fun c => { c with todo := [] }) d1)
    let d3 := forEach (d2.cel.issued.filter (fun i => i.sends == 0)) (formStop n) d2
    let d4 :=
      if jstate d3 = 4 then
        let due := n % 8 == rf d3 NET_CELIVO_CFG NET_CELIVO_CFG_PHASE
        let e0 := if due then forUpTo 4 (formMasterPos n) d3 else d3
        let e1 := if due || d3.cel.joinedNow then formLineState n false e0 else e0
        forUpTo 64 (formSetpoint n) (modCel (fun c => { c with joinedNow := false }) e1)
      else d3
    if d4.cel.leaving then formLineState n true (modCel (fun c => { c with leaving := false }) d4) else d4

/-! ### Joining (R204..R207) -/

/-- The device is joined: a new epoch, in which REQ_ID counts afresh (R197), and LINE_STATE in this tick. -/
def celJoined (d : Dev) : Dev :=
  setJstate 4 (modCel (fun c => { c with joins := c.joins + 1, nextReq := 1, joinedNow := true, forceJoin := false, taken := none }) d)

/-- A join starts: LISTEN; no join starts while LOCKED is 0. -/
def celJoin (d : Dev) : Dev :=
  let s := jstate d
  if celOn d && rb d TB_STAT TB_STAT_LOCKED && (s == 0 || s == 5 || s == 6) then
    setJstate 1 (modCel (fun c => { c with attempt := 0, taken := none }) d)
  else d

/-- AUTOJOIN (R206). -/
def celAutojoin (d : Dev) : Dev :=
  if rb d NET_CELIVO_CFG2 NET_CELIVO_CFG2_AUTOJOIN && jstate d == 0 then celJoin d else d

/-- FORCE_JOIN: JOINED at the next tick (R207). -/
def celForceJoin (d : Dev) : Dev :=
  if celOn d && jstate d != 4 then modCel (fun c => { c with forceJoin := true }) d else d

/-- LEAVE: the join ends, and with it the offers and acknowledgements still to be sent; a joined device sends one LINE_STATE with
CFG_STATE 0xFF (R205). -/
def celLeave (d : Dev) : Dev :=
  let was := jstate d == 4
  setJstate 0 (modCel (fun c => { c with leaving := c.leaving || was, forceJoin := false, taken := none, todo := [], made := [] }) d)

/-- JOIN_REQ received by a joined sponsor (R206 step 2, R207). -/
def celJoinReq (f : CelFrame) (d : Dev) : Dev :=
  match celPre f d with
  | (d, false) => d
  | (d, true) =>
    let j := f.srcId % 4096
    let ws := watchesOf d j
    if jstate d = 4 && ws.any (fun w => rb d (NET_WATCH w) NET_WATCH_SPONSOR) then
      let dup := ws.any (fun w => watchState d w == 1)
      modCel (fun c => { c with todo := c.todo ++ [.answer j (pay (celPayload f) 4 1) (if dup then 1 else 0)] }) d
    else d

/-- The requests that an offer lists (R206); their ORIGIN and DECEL are not carried (log entry 55). -/
def offerStops (p : List Byte) : List StopReq :=
  (List.range (pay p 2 2)).map (fun i =>
    let o := 12 + 16 * i
    { src := pay p o 2, kind := pay p (o + 2) 1, scope := pay p (o + 3) 1, target := pay p (o + 4) 2, req := pay p (o + 6) 2, epoch := pay p (o + 8) 1,
      origin := 0 })

/-- A withdrawn offer for a joiner: its entries that read JOINING become LOST, unless another offer for it is in force (R204, R207;
DEDUCED, log entry 153). -/
def offerGone (joiner : Nat) (d : Dev) : Dev :=
  if d.cel.offers.any (fun o => o.joiner == joiner) then d
  else forEach (watchesOf d joiner) (fun w d => if watchState d w = 3 then watchLost w d else d) d

/-- JOIN_OFFER received (R206 step 3, R207). -/
def celJoinOffer (f : CelFrame) (d : Dev) : Dev :=
  match celPre f d with
  | (d, false) => d
  | (d, true) =>
    let p := celPayload f
    let o : Offer := { sponsor := f.srcId % 4096, joiner := pay p 8 2 % 4096, newEpoch := pay p 1 1, joinAt := pay p 4 4, mac := f.mac }
    let mine := o.joiner == devId d && jstate d == 2
    match pay p 0 1 with
    | 0 =>
      let d1 := forEach (watchesOf d o.joiner) (fun w d => if watchState d w = 1 then d else setWatch 3 w d)
        (modCel (fun c => { c with offers := c.offers ++ [o] }) d)
      if mine then
        forEach (offerStops p) stopWait (setJstate 3 (modCel (fun c => { c with taken := some o, todo := c.todo ++ [.ack] }) d1))
      else d1
    | 1 => if mine then setJstate 6 d else d
    | 3 =>
      let same : Offer → Bool := fun x => x.sponsor == o.sponsor && x.joiner == o.joiner && x.newEpoch == o.newEpoch
      let d1 := offerGone o.joiner (modCel (fun c => { c with offers := c.offers.filter (fun x => !same x) }) d)
      (match d.cel.taken with
       | some x => if same x && jstate d == 3 then setJstate 2 (modCel (fun c => { c with taken := none }) d1) else d1
       | none => d1)
    | _ => d

/-- JOIN_ACK received by the sponsor. -/
def celJoinAck (f : CelFrame) (d : Dev) : Dev :=
  match celPre f d with
  | (d, false) => d
  | (d, true) =>
    let p := celPayload f
    modCel (fun c => { c with made := c.made.map (fun m =>
      if m.joiner = f.srcId % 4096 ∧ m.joinAt = pay p 0 4 ∧ m.newEpoch = pay p 4 1 then { m with acked := true } else m) }) d

/-- JOIN_REQ_TIMEOUT: no offer for 16 ticks (R207). -/
def celReqTimeout (d : Dev) : Dev :=
  if jstate d = 2 ∧ d.cel.reqTick + 16 ≤ tickNum d then
    if d.cel.attempt < 4 then setJstate 1 d else setJstate 5 d
  else d

/-- JOIN_ACK_TIMEOUT for a joiner: no JOIN_ACK by JOIN_AT − 4 (R206 step 3). -/
def celAckTimeout (joiner : Nat) (d : Dev) : Dev :=
  let late : Made → Bool := fun m => m.joiner == joiner && !m.acked && tickAfter (tickNum d) (m.joinAt + 4294967292)
  match d.cel.made.find? late with
  | none => d
  | some m =>
    offerGone joiner (modCel (fun c => { c with
      made := c.made.filter (fun x => x != m)
      offers := c.offers.filter (fun x => !(x.sponsor == devId d && x.joiner == m.joiner && x.newEpoch == m.newEpoch))
      todo := c.todo ++ [.withdraw m.joiner m.newEpoch m.joinAt] }) d)

/-- JOIN_AT_REACHED: the joiner is joined (R206 step 4). -/
def celJoinAt (d : Dev) : Dev :=
  match d.cel.taken with
  | some o => if jstate d = 3 && tickAfter (tickNum d) o.joinAt then celJoined d else d
  | none => d

/-- The start of a tick: FORCE_JOIN takes effect, the frames formed are queued. -/
def celTick (d : Dev) : Dev := celSend (if d.cel.forceJoin then celJoined d else d)

end Sys2Proof.Machine
end

