-- ==== Sys2Proof/Machine/Twn.lean ====
section
/-! DEFINITION. Twin pairs (spec/16, R493..R505): roles and the ownership token, frames of the twin link, state alignment, takeover
and handover. -/
namespace Sys2Proof.Machine
open Sys2Proof Sys2Proof.Reg

def fnTwn : Nat := 0x51C

def modTwn (f : TwnUnit → TwnUnit) (d : Dev) : Dev := { d with twn := f d.twn }

/-! ### Roles and token (R493..R495) -/

/-- The role: 0 none, 1 OWNER, 2 SHADOW, 3 SYNCING. -/
def twnRole (d : Dev) : Nat := rf d TWN_STAT TWN_STAT_ROLE

def twnToken (d : Dev) : Nat := rf d TWN_STAT TWN_STAT_TOKEN

/-- Does the configuration include the twin link? -/
def twnIncluded (d : Dev) : Bool := (getFn d fnTwn).included

/-- Does a field-link frame carry OWNER = 1: always without a twin (R444), else as the owner (R495)? -/
def twnOwns (d : Dev) : Bool := !twnIncluded d || twnRole d == 1

/-- The TOKEN of a field-link frame: 0 without a twin (R444). -/
def twnFrameToken (d : Dev) : Nat := if twnIncluded d then twnToken d else 0

/-- The TOKEN after this one: 1 to 255, then 1 again (R494). -/
def tokenNext (t : Nat) : Nat := if t < 255 then t + 1 else 1

/-- A role taken: OWN_PIN is driven 1 by the owner alone (R495). -/
def setRole (r : Nat) (d : Dev) : Dev :=
  modTwn (fun t => { t with ownPin := r == 1 }) (wf TWN_STAT TWN_STAT_ROLE r d)

/-- A TWIN record (R518). -/
def twnRecord (what : Nat) (d : Dev) : Dev :=
  trigger 0x40 0x3A [what, rf d TWN_STAT TWN_STAT_LAST_CAUSE, twnToken d] d

/-! ### Committed state (R498) -/

/-- The functions of a range that a configuration includes. -/
def inclIdx (d : Dev) (base n : Nat) : List Nat := (List.range n).filter (fun i => (getFn d (base + i)).included)

/-- The committed state that the pair aligns: the function states, and the continuous quantities and latches of the slots,
generators, channels and bars of the configuration. -/
def twnSnapshot (d : Dev) : List TwnItem :=
  (d.fns.filter (fun e => e.2.included && e.1 != fnTwn)).map (fun e => .fn e.1 e.2) ++
  (inclSlots d).map (fun s => let x := getSlot d s; .slot s x.i x.dd x.rlim x.yhat) ++
  (inclIdx d 0x40 64).flatMap (fun m => let g := getMpg d m; [.gen m g.p g.v, .genMode m g.latch g.held g.fault]) ++
  (inclIdx d 0xD0 4).map (fun c => .chan c (getChan d c).konst) ++
  (inclIdx d 0xE0 32).map (fun b => .bar b (getBar d b).k (getBar d b).upd)

/-- The shadow's own record of tick n. -/
def ownItems (d : Dev) (n : Nat) : List TwnItem :=
  match smGet d.twn.own n with
  | some xs => xs
  | none => []

/-- x_shadow + (x_owner − x_shadow(n)) in binary32 and in integers. -/
def alignF (x o s : F32) : F32 := fAdd x (fSub o s)
def alignI (x o s : Int) : Int := x + (o - s)

/-- A discrete quantity that differed takes the owner's value; MISMATCH counts (R498). -/
def twnMismatch (n : Nat) (d : Dev) : Dev :=
  modTwn (fun t => { t with lastBad := some n }) (bump TWN_CNT TWN_CNT_MISMATCH d)

/-- One quantity of the owner's STATE of tick n aligned. -/
def alignItem (n : Nat) (own : List TwnItem) (it : TwnItem) (d : Dev) : Dev :=
  match it with
  | .fn x f => if own.contains it then d else twnMismatch n (setFn x f d)
  | .genMode m latch held fault =>
    if own.contains it then d else twnMismatch n (setMpg m { getMpg d m with latch := latch, held := held, fault := fault } d)
  | .bar b k upd =>
    if own.contains it then d else twnMismatch n (setBar b { getBar d b with k := k, upd := upd } d)
  | .slot s i dd rlim yhat =>
    own.foldl (fun d o => match o with
      | .slot s' i' dd' rlim' yhat' =>
        if s' = s then
          let x := getSlot d s
          setSlot s { x with i := alignF x.i i i', dd := alignF x.dd dd dd', rlim := alignF x.rlim rlim rlim', yhat := alignF x.yhat yhat yhat' } d
        else d
      | _ => d) d
  | .gen m p v =>
    own.foldl (fun d o => match o with
      | .gen m' p' v' =>
        if m' = m then let g := getMpg d m; setMpg m { g with p := alignI g.p p p', v := alignI g.v v v' } d else d
      | _ => d) d
  | .chan c k =>
    own.foldl (fun d o => match o with
      | .chan c' k' => if c' = c then let x := getChan d c; setChan c { x with konst := alignI x.konst k k' } d else d
      | _ => d) d

/-- Has the STATE of tick n arrived with every chunk up to its last one? -/
def stateComplete (d : Dev) (n : Nat) : Bool :=
  match smGet d.twn.states n with
  | some t => (match t.last with | some l => (List.range (l + 1)).all (fun c => t.got.contains c) | none => false)
  | none => false

/-- Offset 0 of tick m: the alignment with the owner's STATE of tick m − 2; a SYNCING device whose transfer is complete becomes
SHADOW at the first one without a discrete mismatch (R498, R503). -/
def twnAlign (m : Nat) (d : Dev) : Dev :=
  if (twnRole d = 2 ∨ twnRole d = 3) ∧ 2 ≤ m ∧ stateComplete d (m - 2) then
    match smGet d.twn.states (m - 2) with
    | none => d
    | some t =>
      let d0 := modTwn (fun t => { t with lastBad := none }) d
      let d1 := forEach t.items (alignItem (m - 2) (ownItems d (m - 2))) d0
      let clean := d1.twn.lastBad.isNone
      let d2 := if clean then modTwn (fun t => { t with lastBad := d.twn.lastBad }) d1 else d1
      let d3 := modTwn (fun t => { t with states := t.states.filter (fun e => decide (m - 2 < e.1)) }) d2
      if twnRole d3 = 3 ∧ d3.twn.synced ∧ clean then twnRecord 3 (setRole 2 d3) else d3
  else d

/-! ### Frames sent (R497) -/

/-- A frame of the twin link leaves while a lane is locked. -/
def twnSend (cls tick : Nat) (payload : List Byte) (d : Dev) : Dev :=
  if rb d TWN_STAT TWN_STAT_LANE0 || rb d TWN_STAT TWN_STAT_LANE1 then
    emit (.twnFrame cls (d.twn.txSeq % 65536) tick payload) (modTwn (fun t => { t with txSeq := t.txSeq + 1 }) d)
  else d

def twnSendBulk (cls tick : Nat) (c : TwnBulk) (d : Dev) : Dev :=
  if rb d TWN_STAT TWN_STAT_LANE0 || rb d TWN_STAT TWN_STAT_LANE1 then
    emit (.twnState cls (d.twn.txSeq % 65536) tick c) (modTwn (fun t => { t with txSeq := t.txSeq + 1 }) d)
  else d

/-- Does the shadow allow a handover: nothing FAULTED that the owner holds RUNNING, no discrete mismatch in 8 ticks (R502)? -/
def shadowFit (n : Nat) (d : Dev) : Bool :=
  (match d.twn.lastBad with | some b => decide (b + 8 < n) | none => true) &&
  !(d.fns.any (fun e => e.2.state == .faulted && (d.twn.states.any (fun t => t.2.items.any (fun i => match i with
    | .fn x f => x == e.1 && f.state == .running
    | _ => false)))))

/-- The health byte of a HELLO, whose code the spec leaves open (DESIGN CHOICE, log entry 71): bit 0 a handover is barred,
bit 1 a full SYNC is wanted, bit 2 a SYNC of the scan areas is wanted, bit 7 PREF. -/
def healthByte (n : Nat) (d : Dev) : Nat :=
  b2n (!shadowFit n d) + 2 * b2n (d.twn.sync == some true || (twnRole d == 3 && !d.twn.synced)) + 4 * b2n (d.twn.sync == some false) +
  128 * rf d TWN_CFG TWN_CFG_PREF

/-- HELLO of tick n, after its COMMIT instant: STREAM_SEQ of the last frame of each stream (R192, R497). -/
def twnHello (n : Nat) (d : Dev) : Dev :=
  if !fnIs d fnTwn .running then d else twnSend 1 n
    (leBytes 1 (twnRole d) ++ leBytes 1 (twnToken d) ++ leBytes 2 (devId d) ++ leBytes 4 (rd d CFG_IMAGE_ID).toNat ++ leBytes 1 (cfgStateNum d) ++
     leBytes 1 (healthByte n d) ++ leBytes 2 0 ++
     (List.range 4).flatMap (fun c => leBytes 4 (match smGet d.cel.mpSeq c with | some s => s | none => 0))) d

/-- A write that the owner accepted, mirrored with the tick at whose COMMIT instant it transfers (R499). -/
def twnMirror (off : Nat) (v : Word) (d : Dev) : Dev :=
  if twnRole d = 1 then
    twnSend 3 (tickNum d) (leBytes 4 off ++ leBytes 4 v.toNat ++ leBytes 4 (transferTick d)) d
  else d

/-- Are writes to this offset mirrored (R499); CFG_CTRL only for the commands DISARM and DISARM_NOW? -/
def twnMirrored (off : Nat) (v : Word) : Bool :=
  decide (0x10000 ≤ off ∧ off < 0x2C000) || decide (0x34000 ≤ off ∧ off < 0x38000) || decide (0x40000 ≤ off ∧ off < 0x80000) ||
  (List.range 0x528).any (fun x => isFn x && CFG_FSTATE x == off) || off == CFG_SWAP_CTRL || off == CFG_SWAP_AT_LO || off == CFG_SWAP_AT_HI ||
  (off == CFG_CTRL && (fget v CFG_CTRL_CMD == 3 || fget v CFG_CTRL_CMD == 4))

/-! ### Takeover and demotion (R500, R501) -/

/-- The device takes ownership: the next TOKEN, OWN_PIN, publishing with the owner's stream sequence. -/
def twnOwn (cause token : Nat) (d : Dev) : Dev :=
  let seqs := match d.twn.peer with | some h => h.seqs | none => []
  let d1 := forEach (seqs.zipIdx) (fun e d => modCel (fun u => { u with mpSeq := smPut u.mpSeq e.2 e.1 }) d) d
  let d2 := wf TWN_STAT TWN_STAT_TAKEOVER 1 (wf TWN_STAT TWN_STAT_LAST_CAUSE cause (wf TWN_STAT TWN_STAT_TOKEN token d1))
  twnRecord 0 (setRole 1 (modTwn (fun t => { t with faultAt := none, lanesAt := none, ho := none, demoted := false }) d2))

/-- The owner lost its shadow. -/
def twnPeerLost (d : Dev) : Dev :=
  twnRecord 2 (wf TWN_STAT TWN_STAT_PEER_LOST 1 (wr TWN_PEER 0 (modTwn (fun t => { t with peer := none }) d)))

/-- A fault of the twin link itself: FAULT leaves at once (R497). -/
def twnOwnFault (code : Nat) (d : Dev) : Dev :=
  detectFault fnTwn code (twnSend 4 (tickNum d) (leBytes 1 code ++ leBytes 3 0) d)

/-- The owner finds itself not applied by an expander: DEMOTED. -/
def twnDemote (d : Dev) : Dev :=
  if twnIncluded d ∧ twnRole d = 1 then
    twnRecord 1 (twnOwnFault 2 (modTwn (fun t => { t with demoted := true }) (setRole 0 d)))
  else d

/-- The twin link enters FAULTED: the role is given up. -/
def twnFaulted (d : Dev) : Dev := setRole 0 d

/-- The twin link starts or ends: no role until the next pairing. -/
def twnEnable (d : Dev) : Dev := modTwn (fun t => { t with states := [], own := [], lastBad := none, ho := none, synced := false, faultAt := none, lanesAt := none }) d
def twnDisable (d : Dev) : Dev := setRole 0 (stopDone fnTwn d)

/-- Is the cause of a fault of the twin link still there (R503)? -/
def twnCause (d : Dev) (code : Nat) : Bool :=
  code == 1 && (match d.twn.peer with | some h => h.image != (rd d CFG_IMAGE_ID).toNat | none => true)

/-! ### The COMMIT instant -/

/-- The shadow's detections at the COMMIT instant of tick n (R500). -/
def twnDetect (n : Nat) (d : Dev) : Dev :=
  let t := d.twn
  let byFault := match t.faultAt with | some ns => decide (ns + 500 ≤ tbNs d) | none => false
  let missing := decide (0 < n) && !stateComplete d (n - 1)
  let byLanes := match t.lanesAt with | some k => decide (k < n) | none => false
  let heard := d.twn.states.any (fun e => e.1 == n - 1)
  let d1 := if missing && (twnRole d == 2 || heard) then bump TWN_CNT TWN_CNT_STATE_MISS d else d
  if twnRole d = 2 then
    if byFault then twnOwn 1 (tokenNext (twnToken d)) d1
    else if byLanes then twnOwn 3 (tokenNext (twnToken d)) d1
    else if missing then twnOwn 2 (tokenNext (twnToken d)) d1
    else d1
  else d1

/-- The handover at the COMMIT instant of tick AT (R502). -/
def twnHandover (n : Nat) (d : Dev) : Dev :=
  match d.twn.ho with
  | none => d
  | some (at_, token, acked) =>
    if n < at_ then d
    else
      let d0 := modTwn (fun t => { t with ho := none }) d
      let peerFit : Bool := match d.twn.peer with | some h => h.health % 2 == 0 | none => false
      if twnRole d = 1 then
        if acked ∧ peerFit then setRole 2 (wf TWN_STAT TWN_STAT_LAST_CAUSE 4 (wf TWN_STAT TWN_STAT_TOKEN token d0))
        else wf TWN_STAT TWN_STAT_HO_REJ 1 d0
      else if twnRole d = 2 ∧ shadowFit n d then twnOwn 4 token d0
      else d0

/-- The twin link at the COMMIT instant of tick n: takeover or handover, the record of the tick, STATE and SYNC. -/
def twnCommit (n : Nat) (d : Dev) : Dev :=
  if fnIs d fnTwn .running then
    let items := twnSnapshot d
    let d1 := modTwn (fun t => { t with own := smPut (t.own.filter (fun e => decide (n < e.1 + 3))) n items }) (twnHandover n (twnDetect n d))
    if twnRole d1 = 1 then
      let d3 := twnSendBulk 2 n { items := items, scan := none, final := true } d1
      let wants := match d3.twn.peer with | some h => h.health / 2 % 4 | none => 0
      let full := wants % 2 == 1 || d3.twn.sync == some true
      if wants = 0 ∧ !full then d3
      else
        twnSendBulk 7 n { items := if full then items else [], scan := some ⟨d3.scn.m, d3.scn.dw, d3.scn.tmrs, d3.scn.ctrs⟩, final := true }
          (modTwn (fun t => { t with sync := none }) d3)
    else d1
  else d

/-! ### Frames received -/

/-- HELLO: pairing, the peer's report (R494, R503). -/
def twnRxHello (h : TwnHello) (d : Dev) : Dev :=
  let d1 := wr TWN_PEER (BitVec.ofNat 32 (2147483648 + h.dev % 4096)) (modTwn (fun t => { t with peer := some h }) d)
  if !fnIs d fnTwn .running then d1
  else if twnRole d = 0 then
    if h.image ≠ (rd d CFG_IMAGE_ID).toNat then twnOwnFault 1 d1
    else if h.role = 1 then
      setRole 3 (wf TWN_STAT TWN_STAT_TOKEN h.token (modTwn (fun t => { t with demoted := false, synced := false }) d1))
    else
      let pref := rf d TWN_CFG TWN_CFG_PREF == 1
      let peerPref := decide (128 ≤ h.health)
      let owns := if pref == peerPref then decide (devId d < h.dev) else pref
      if owns then setRole 1 (wf TWN_STAT TWN_STAT_TOKEN 1 (modTwn (fun t => { t with demoted := false }) d1))
      else setRole 3 (wf TWN_STAT TWN_STAT_TOKEN 1 (modTwn (fun t => { t with demoted := false, synced := true }) d1))
  else if twnRole d = 1 then d1
  else if h.role = 1 then wf TWN_STAT TWN_STAT_TOKEN h.token d1
  else d1

/-- A chunk of the owner's STATE of a tick; after the COMMIT instant of the tick that follows it comes too late (R498). -/
def twnRxState (tick chunk : Nat) (last : Bool) (items : List TwnItem) (d : Dev) : Dev :=
  let late := decide (tick + 1 < d.tick) || (tick + 1 == d.tick && d.phase == .commit)
  if (twnRole d = 2 ∨ twnRole d = 3) ∧ !late then
    let t := (smGet d.twn.states tick).getD {}
    let t' : TwnTick := if t.got.contains chunk then t else
      { got := chunk :: t.got, last := if last then some chunk else t.last, items := t.items ++ items }
    modTwn (fun u => { u with states := smPut u.states tick t' }) d
  else d

/-- FAULT: the shadow takes over, an owner has lost its shadow (R500, R501, R504). -/
def twnRxFault (d : Dev) : Dev :=
  if twnRole d = 2 then modTwn (fun t => { t with faultAt := match t.faultAt with | some x => some x | none => some (tbNs d) }) d
  else if twnRole d = 1 then twnPeerLost d
  else d

/-- HANDOVER at the shadow: it answers HANDOVER_ACK. -/
def twnRxHandover (at_ token : Nat) (d : Dev) : Dev :=
  if twnRole d = 2 then twnSend 6 (tickNum d) (leBytes 4 at_) (modTwn (fun t => { t with ho := some (at_, token, true) }) d) else d

/-- HANDOVER_ACK at the owner: it counts when it comes before the COMMIT instant of tick AT − 1. -/
def twnRxAck (at_ : Nat) (d : Dev) : Dev :=
  match d.twn.ho with
  | some (a, token, false) =>
    let before := decide (tickNum d + 1 < a) || (decide (tickNum d + 1 = a) && d.phase != .commit)
    if a = at_ ∧ twnRole d = 1 ∧ before then modTwn (fun t => { t with ho := some (a, token, true) }) d else d
  | _ => d

/-- SYNC: the owner's values; a frame for the scan areas alone carries no others. -/
def twnRxSync (b : TwnBulk) (d : Dev) : Dev :=
  if twnRole d = 2 ∨ twnRole d = 3 then
    let put (it : TwnItem) (d : Dev) : Dev := match it with
      | .fn x f => setFn x f d
      | .slot s i dd rlim yhat => setSlot s { getSlot d s with i := i, dd := dd, rlim := rlim, yhat := yhat } d
      | .gen m p v => setMpg m { getMpg d m with p := p, v := v } d
      | .genMode m latch held fault => setMpg m { getMpg d m with latch := latch, held := held, fault := fault } d
      | .chan c k => setChan c { getChan d c with konst := k } d
      | .bar b k upd => setBar b { getBar d b with k := k, upd := upd } d
    let d1 := forEach b.items put d
    let d2 := match b.scan with
      | some x => { d1 with scn := { d1.scn with m := x.m, dw := x.dw, tmrs := x.tmrs, ctrs := x.ctrs } }
      | none => d1
    if b.final then modTwn (fun t => { t with sync := none, synced := true }) d2 else d2
  else d

/-- The scan areas of owner and shadow differ: MISMATCH, and a SYNC of them is wanted (R498). -/
def crcDiffers (d : Dev) : Dev :=
  twnMismatch (tickNum d) (modTwn (fun t => { t with sync := if t.sync = some true then t.sync else some false }) d)

/-- SCAN_CRC: one that differs from the shadow's for the same cycle number makes it ask for a SYNC of the scan areas. -/
def twnRxCrc (cycle crc : Nat) (d : Dev) : Dev :=
  if twnRole d = 2 then
    if d.twn.crcs.any (fun e => e.1 == cycle) then (if d.twn.crcs.contains (cycle, crc) then d else crcDiffers d)
    else modTwn (fun t => { t with theirs := (cycle, crc) :: t.theirs.take 15 }) d
  else d

/-- The device's own SCAN_CRC: sent, and compared with the owner's if that came first (R497, R498). -/
def twnOwnCrc (cycle crc : Nat) (d : Dev) : Dev :=
  let bad := twnRole d == 2 && d.twn.theirs.any (fun e => e.1 == cycle && e.2 != crc)
  let d1 := twnSend 8 (tickNum d) (leBytes 8 cycle ++ leBytes 4 crc)
    (modTwn (fun t => { t with crcs := (cycle, crc) :: t.crcs.take 15, theirs := t.theirs.filter (fun e => e.1 != cycle) }) d)
  if bad then crcDiffers d1 else d1

/-! ### Lanes and commands (R497, R500, R502, R505) -/

/-- One lane lost (0 or 1): LANE_EVT. -/
def twnLaneLoss (lane : Nat) (d : Dev) : Dev :=
  wf TWN_STAT TWN_STAT_LANE_EVT 1 (wf TWN_STAT (if lane = 0 then TWN_STAT_LANE0 else TWN_STAT_LANE1) 0 d)

def twnSymbolLock (lane : Nat) (d : Dev) : Dev :=
  wf TWN_STAT (if lane = 0 then TWN_STAT_LANE0 else TWN_STAT_LANE1) 1 d

/-- Both lanes without symbol lock for 1 µs: the shadow takes over at the COMMIT instant of the tick that follows. -/
def twnLanesLost (d : Dev) : Dev :=
  let d1 := wf TWN_STAT TWN_STAT_LANE0 0 (wf TWN_STAT TWN_STAT_LANE1 0 d)
  if twnRole d = 2 then modTwn (fun t => { t with lanesAt := some (tickNum d) }) d1
  else if twnRole d = 1 then twnPeerLost d1
  else d1

/-- TWN_CMD: 1 HANDOVER, 2 RESYNC. -/
def twnCmd (cmd : Nat) (d : Dev) : Dev :=
  if cmd = 1 then
    if twnRole d = 1 then
      let at_ := tickNum d + 16
      let token := tokenNext (twnToken d)
      twnSend 5 (tickNum d) (leBytes 4 at_ ++ leBytes 1 token ++ leBytes 3 0) (modTwn (fun t => { t with ho := some (at_, token, false) }) d)
    else wf TWN_STAT TWN_STAT_HO_REJ 1 d
  else if cmd = 2 then modTwn (fun t => { t with sync := some true }) d
  else d

end Sys2Proof.Machine
end

