-- ==== Sys2Proof/Machine/Saf.lean ====
section
/-! DEFINITION. The safety island (spec/16, R468..R492): its configuration, inputs, outputs, demands, squall window, seal, requests
on the line and mirror. A cycle is 250 µs of a channel's clock. -/
namespace Sys2Proof.Machine
open Sys2Proof Sys2Proof.Reg

def modSaf (f : SafUnit → SafUnit) (d : Dev) : Dev := { d with saf := f d.saf }

/-! ### Configuration (R475..R477) -/

/-- Byte and little-endian field of a safety configuration. -/
def cfgLe (c : List Byte) (off n : Nat) : Nat := leNat ((c.drop off).take n)

def inMode (c : List Byte) (k : Nat) : Nat := cfgLe c (0x20 + 8 * k) 1
def inCat (c : List Byte) (k : Nat) : Nat := cfgLe c (0x21 + 8 * k) 1
def inDisc (c : List Byte) (k : Nat) : Nat := cfgLe c (0x22 + 8 * k) 2
def inMask (c : List Byte) (k : Nat) : Nat := cfgLe c (0x24 + 8 * k) 1
def inFilt (c : List Byte) (k : Nat) : Nat := cfgLe c (0x25 + 8 * k) 1
def outUsed (c : List Byte) (k : Nat) : Bool := cfgLe c (0xA0 + 8 * k) 1 == 1
def outTestS (c : List Byte) (k : Nat) : Nat := cfgLe c (0xA4 + 8 * k) 2
def safCrcA (c : List Byte) : Nat := cfgLe c 0xE0 4
def squallMs (c : List Byte) : Nat := cfgLe c 0x0C 4
def stillMode (c : List Byte) : Nat := cfgLe c 0x0B 1
def stillMs (c : List Byte) : Nat := cfgLe c 0x10 4

/-- An input that can demand: used, of CAT 0 to 2. -/
def inDemands (c : List Byte) (k : Nat) : Bool := inMode c k != 0 && decide (inCat c k ≤ 2)

/-- One channel's own CRC of a configuration: CRC_A by CRC-32, CRC_B by CRC-32C. -/
def safCrcOk (c : List Byte) (chB : Bool) : Bool :=
  if chB then crc32c (c.take 0xE0) == cfgLe c 0xE4 4 else crc32 (c.take 0xE0) == cfgLe c 0xE0 4

/-- Are the fields of R475 within their ranges? Those of an unused input or output are not looked at but for MODE, EN and the
zero bytes (DEDUCED, log entry 80). -/
def safFieldsOk (c : List Byte) : Bool :=
  let f := cfgLe c
  let btw (lo x hi : Nat) : Bool := decide (lo ≤ x ∧ x ≤ hi)
  c.length == 232 && f 0 4 == 0x4641534B && f 4 2 == 1 && f 6 2 == 232 && btw 1 (f 8 2) 65535 && decide (f 0x0B 1 ≤ 1) &&
  btw 100 (f 0x0C 4) 60000 && btw 10 (f 0x10 4) 10000 && decide (f 0x14 1 ≤ 3) && decide (f 0x15 1 ≤ 1) && f 0x18 8 == 0 &&
  (List.range 16).all (fun k => decide (inMode c k ≤ 2) && f (0x26 + 8 * k) 2 == 0 &&
    (inMode c k == 0 || (decide (inCat c k ≤ 4) && btw 10 (inDisc c k) 2000 && decide (inFilt c k ≤ 20)))) &&
  (List.range 8).all (fun k => decide (f (0xA0 + 8 * k) 1 ≤ 1) && f (0xA1 + 8 * k) 1 == 0 && f (0xA6 + 8 * k) 2 == 0 &&
    (!outUsed c k || (btw 100 (f (0xA2 + 8 * k) 2) 1000 && btw 1 (f (0xA4 + 8 * k) 2) 3600)))

/-- The rules of R476 between the fields. -/
def safRulesOk (c : List Byte) : Bool :=
  let used := (List.range 16).filter (fun k => inMode c k != 0)
  let demand := used.filter (inDemands c)
  (cfgLe c 0x0B 1 != 1 || (used.filter (fun k => inCat c k == 4)).length == 1) &&
  demand.all (fun k => inMask c k != 0 && (List.range 8).all (fun o => inMask c k / 2 ^ o % 2 == 0 || outUsed c o)) &&
  (demand.isEmpty || used.any (fun k => inCat c k == 3))

/-- Is a safety output on, or in SQUALL? -/
def getOut (u : SafUnit) (k : Nat) : SafOut := match smGet u.outs k with | some o => o | none => {}
def anyOut (u : SafUnit) : Bool := u.outs.any (fun o => o.2.st != .off)

/-- Does the island accept a SAFETY section (R476..R478)? -/
def safAccepts (u : SafUnit) (c : List Byte) : Bool :=
  if (match u.cfg with | some f => safCrcA f == safCrcA c | none => false) then true
  else
    !u.init && safCrcOk c false && safCrcOk c true && safFieldsOk c && safRulesOk c && !anyOut u &&
    (!u.sealed || u.sealCrc == safCrcA c)

/-- An accepted configuration comes into force: no contact level has counted, every output is off. -/
def safInForce (c : List Byte) (d : Dev) : Dev :=
  modSaf (fun u =>
    if (match u.cfg with | some f => safCrcA f == safCrcA c | none => false) then u
    else { u with cfg := some c, chA := { u.chA with ins := [], ack := 0 }, chB := { u.chB with ins := [], ack := 0 }, outs := [], sealMatch := 0 }) d

/-! ### States (R485) -/

/-- SAF_STATE. -/
def safState (u : SafUnit) : Nat :=
  if u.lockout ≠ 0 then 6
  else if u.init then 0
  else match u.cfg with
    | none => 1
    | some c =>
      let outs := (List.range 8).filter (outUsed c)
      if outs.any (fun k => (getOut u k).st == .squall) then 4
      else if outs.isEmpty || outs.any (fun k => (getOut u k).st == .off) then 2
      else if u.sealed then 3 else 5

/-- The remaining squall window in ms: that of the output whose window ends last (DEDUCED, log entry 81). -/
def squallLeft (u : SafUnit) : Nat :=
  match u.cfg with
  | none => 0
  | some c =>
    u.outs.foldl (fun m o => if o.2.st = .squall then
      max m ((4 * squallMs c - max (u.chA.n - o.2.from_.1) (u.chB.n - o.2.from_.2)) / 4) else m) 0

def getIn (ch : SafChan) (k : Nat) : SafIn := match smGet ch.ins k with | some x => x | none => {}

/-- Is input k in demand, has it a discrepancy fault, as either channel finds? -/
def inDemand (u : SafUnit) (k : Nat) : Bool := (getIn u.chA k).demand || (getIn u.chB k).demand
def inDiscFault (u : SafUnit) (k : Nat) : Bool := (getIn u.chA k).disc || (getIn u.chB k).disc

/-- The used inputs in demand, by bit. -/
def demandBits (u : SafUnit) : Nat :=
  match u.cfg with
  | none => 0
  | some c => (List.range 16).foldl (fun s k => s + 2 ^ k * b2n (inMode c k != 0 && inDemand u k)) 0

def discBits (u : SafUnit) : Nat :=
  match u.cfg with
  | none => 0
  | some c => (List.range 16).foldl (fun s k => s + 2 ^ k * b2n (inMode c k != 0 && inDiscFault u k)) 0

/-- Bits 15:0 of the status word for the scan engine: used, healthy and not in demand (R473). -/
def safScanBits (u : SafUnit) : Nat :=
  match u.cfg with
  | none => 0
  | some c => (List.range 16).foldl (fun s k => s + 2 ^ k * b2n (inMode c k != 0 && !inDemand u k && !inDiscFault u k)) 0

/-! ### Requests on the line (R489, R490) -/

/-- The safety data of a message: kind 1 demand, 0x80 release, over the first 24 bytes of the STOP_REQ payload. -/
def safData (u : SafUnit) (kind : Nat) (head : List Byte) : List Byte :=
  let c := u.cfg.getD []
  let body := beBytes 2 (cfgLe c 8 2) ++ beBytes 1 (safState u) ++ beBytes 1 kind ++ beBytes 4 u.scnt ++ beBytes 2 (demandBits u) ++
    beBytes 2 (satNat 65535 (squallLeft u)) ++ beBytes 4 0
  body ++ beBytes 4 (crc32 (head ++ body)) ++ beBytes 4 (crc32c (head ++ body))

/-- A stop request of the island: ORIGIN 1, SCOPE and TARGET of R475, REASON 0, for a demand on some outputs. -/
def safRequest (kind : Nat) (outs : List Nat) (d : Dev) : Dev :=
  let c := d.saf.cfg.getD []
  let req := d.cel.nextReq
  let r : StopReq := { src := devId d, epoch := ownEpoch d, req := req, kind := kind, scope := cfgLe c 0x14 1, target := scopeBits (cfgLe c 0x14 1) (cfgLe c 0x16 2),
                       origin := 1, issuedAt := tbNs d }
  let d1 := modSaf (fun u => { u with scnt := u.scnt + 1 }) d
  let safe := safData d1.saf 1 ((stopPayload r false).take 0x18)
  modSaf (fun u => { u with reqs := u.reqs ++ [⟨r.epoch, req, outs⟩] }) (stopIssue { r with safe := safe } d1)

/-- Output k was acknowledged: requests all of whose outputs have been acknowledged are released. -/
def safReleases (k : Nat) (d : Dev) : Dev :=
  let reqs := d.saf.reqs.map (fun r => { r with outs := r.outs.filter (fun o => o != k) })
  let done := reqs.filter (fun r => r.outs.isEmpty)
  forEach done (fun r d =>
    match d.cel.issued.find? (fun i => i.r.epoch == r.epoch && i.r.req == r.req && i.stands) with
    | none => d
    | some i =>
      let d1 := modSaf (fun u => { u with scnt := u.scnt + 1 }) d
      stopRelease r.epoch r.req (safData d1.saf 0x80 ((stopPayload { i.r with issuedAt := tbNs d1 } true).take 0x18)) d1)
    (modSaf (fun u => { u with reqs := reqs.filter (fun r => !r.outs.isEmpty) }) d)

/-! ### Cuts, squall, faults (R487, R488) -/

def setOut (k : Nat) (o : SafOut) (d : Dev) : Dev := modSaf (fun u => { u with outs := smPut u.outs k o }) d

/-- LOCKOUT: every output off, for good. -/
def safLock (cause what : Nat) (d : Dev) : Dev :=
  modSaf (fun u =>
    if u.lockout ≠ 0 then u
    else { u with lockout := cause, lockWhat := what, outs := u.outs.map (fun o => (o.1, { o.2 with st := .off, lock := false })) }) d

/-- Output k is cut: off; with a fault behind it LOCKOUT. -/
def safCut (k : Nat) (d : Dev) : Dev :=
  let o := getOut d.saf k
  if o.st = .off then d
  else
    let d1 := setOut k { o with st := .off, lock := false } d
    if o.lock then safLock (if d.saf.intFault then 2 else 1) d.saf.lockWhat d1 else d1

/-- Output k goes to SQUALL at this cycle if it is on; `lock` leads to LOCKOUT at its cut. -/
def safSquall (lock : Bool) (k : Nat) (d : Dev) : Dev :=
  let o := getOut d.saf k
  match o.st with
  | .on => setOut k { o with st := .squall, lock := lock, from_ := (d.saf.chA.n, d.saf.chB.n) } d
  | .squall => setOut k { o with lock := o.lock || lock } d
  | .off => d

def usedOuts (u : SafUnit) : List Nat := match u.cfg with | some c => (List.range 8).filter (outUsed c) | none => []

def inSquall (u : SafUnit) : List Nat := (usedOuts u).filter (fun k => (getOut u k).st == .squall)

/-- The outputs of a mask. -/
def maskOuts (u : SafUnit) (m : Nat) : List Nat := (usedOuts u).filter (fun k => m / 2 ^ k % 2 == 1)

/-- A fault of an output (kind 1, `what` the output) or an internal one (kind 2): the first leads through SQUALL to LOCKOUT, a
second one, or an output fault during SQUALL, cuts what is in SQUALL at once; with nothing in SQUALL the lock-out comes at once. -/
def safFault (kind what : Nat) (d : Dev) : Dev :=
  let u := d.saf
  if u.lockout ≠ 0 then d
  else
    let second := decide (0 < u.faults) || (kind == 1 && !(inSquall u).isEmpty)
    let d1 := modSaf (fun u => { u with faults := u.faults + 1, intFault := u.intFault || kind == 2, cause := 3 + kind,
                                        lockWhat := if u.faults = 0 then what else u.lockWhat }) d
    let d2 := forEach (usedOuts u) (safSquall true) d1
    let d3 := if second then forEach (inSquall u) safCut d2 else d2
    let d4 := if (inSquall d3.saf).isEmpty then safLock kind what d3 else d3
    if u.faults = 0 then safRequest 2 (usedOuts u) d4 else d4

/-! ### Inputs (R480..R482) -/

/-- The filter of a contact: whether it is at its no-demand level, counted once it has been stable for f cycles (R480). Before any
level has counted it shows no demand level (DEDUCED, log entry 82). -/
def filtStep (f : Nat) (raw : Bool) (x : SafFilt) : SafFilt :=
  if raw == x.lvl then { x with n := 0 } else if f ≤ x.n then { lvl := raw, n := 0 } else { x with n := x.n + 1 }

/-- One cycle of an input; answers the input and whether a RESET press ended. -/
def inStep (c : List Byte) (k : Nat) (rawA rawB : Bool) (x : SafIn) : SafIn × Bool :=
  let f := max 1 (4 * inFilt c k)
  let a := filtStep f rawA x.a
  let b := filtStep f (if inMode c k = 1 then rawB else !rawB) x.b
  let okA := a.lvl
  let okB := b.lvl
  let none_ := okA && okB
  let both := !okA && !okB
  let differ := if okA == okB then 0 else x.differ + 1
  let long := decide (4 * inDisc c k < differ)
  let seen := (x.discSeen || (both && decide (x.differ ≤ 4 * inDisc c k))) && !long
  let disc := (x.disc || long) && !(none_ && x.discSeen && !long)
  let demand := if disc then true else if !okA || !okB then true else false
  let press := if none_ then none else match x.press with
    | some n => some (n + 1)
    | none => if !x.demand then some 0 else none
  let bad := if press.isNone then false else x.bad || long
  let reached := if press.isNone then false else x.both || both
  let ack := none_ && x.both && !x.bad && (match x.press with | some n => decide (400 ≤ n + 1 ∧ n + 1 ≤ 12000) | none => false)
  let still := if demand || disc then 0 else x.still + 1
  ({ a := a, b := b, demand := demand, differ := differ, disc := disc, discSeen := if disc then seen else false, press := press,
     both := reached, bad := bad, still := still }, ack)

/-! ### The evaluation of a channel (R469, R480..R487) -/

def getCh (u : SafUnit) (chB : Bool) : SafChan := if chB then u.chB else u.chA
def putCh (chB : Bool) (x : SafChan) (u : SafUnit) : SafUnit := if chB then { u with chB := x } else { u with chA := x }

/-- The inputs of a channel at this cycle. -/
def safInputs (chB : Bool) (x : SafSample) (d : Dev) : Dev :=
  match d.saf.cfg with
  | none => d
  | some c =>
    let ch := getCh d.saf chB
    let used := (List.range 16).filter (fun k => inMode c k != 0)
    let (ins, ack) := used.foldl (fun (acc : SMap SafIn × Bool) k =>
      let (i, a) := inStep c k (x.a / 2 ^ k % 2 == 1) (x.b / 2 ^ k % 2 == 1) (getIn ch k)
      (smPut acc.1 k i, acc.2 || (a && inCat c k == 3))) (ch.ins, false)
    modSaf (putCh chB { ch with ins := ins, ack := if ack then 4 else ch.ack - 1 }) d

/-- The demand mask that a channel finds itself. -/
def ownDemand (u : SafUnit) (chB : Bool) : Nat :=
  match u.cfg with
  | none => 0
  | some c => (List.range 16).foldl (fun s k => s + 2 ^ k * b2n (inMode c k != 0 && (getIn (getCh u chB) k).demand)) 0

/-- The exchange of results (R469): a partner that was not heard for 3 cycles, or a decision that differs for 3, is an internal
fault. -/
def safExchange (chB : Bool) (d : Dev) : Dev :=
  let u := d.saf
  let me := getCh u chB
  let other := getCh u (!chB)
  let dis := if ownDemand u false = ownDemand u true then 0 else me.disagree + 1
  let d1 := modSaf (fun u => putCh (!chB) { other with miss := 0 } (putCh chB { me with disagree := dis } u)) d
  if (3 < me.miss ∨ 3 ≤ dis) ∧ !u.intFault ∧ !other.dead then safFault 2 (b2n chB) d1 else d1

/-- The readback of each used output against its switch (R483): channel A compares RBHS, channel B RBLS. -/
def safReadback (chB : Bool) (x : SafSample) (d : Dev) : Dev :=
  forEach (usedOuts d.saf) (fun k d =>
    let u := d.saf
    let ch := getCh u chB
    let drive := (if chB then u.ls else u.hs) / 2 ^ k % 2 == 1
    let level := (if chB then x.rbls else x.rbhs) / 2 ^ k % 2 == 1
    let good := if chB then level != drive else level == drive
    let n := if good then 0 else (match smGet ch.rbBad k with | some n => n | none => 0) + 1
    let d1 := modSaf (putCh chB { ch with rbBad := smPut ch.rbBad k n }) d
    let o := getOut d1.saf k
    if 2 ≤ n ∧ !o.fault then safFault 1 k (setOut k { o with fault := true } d1) else d1) d

/-- What the inputs in demand and the discrepancy faults do to the outputs; a new demand sends its request. -/
def safDemands (before : Nat) (d : Dev) : Dev :=
  match d.saf.cfg with
  | none => d
  | some c =>
    forEach ((List.range 16).filter (inDemands c)) (fun k d =>
      if inDemand d.saf k then
        let outs := maskOuts d.saf (inMask c k)
        let isNew := before / 2 ^ k % 2 == 0
        let d1 := if inCat c k = 0 then forEach outs safCut d else forEach outs (safSquall false) d
        let d2 := if inDiscFault d1.saf k && outs.any (fun o => (getOut d.saf o).st == .squall) then forEach (inSquall d1.saf) safCut d1 else d1
        if isNew then
          safRequest (if inCat c k = 1 then 1 else 2) outs (modSaf (fun u => { u with demands := satNat 65535 (u.demands + 1), cause := if inCat c k = 0 then u.cause else 1 }) d2)
        else d2
      else d) d

/-- SAF_TAMPER: high for more than 10 ms it clears SEALED and demands as category 1 on every used output, until it has been low
for 1 s (R479). -/
def safTamper (level : Bool) (d : Dev) : Dev :=
  let u := d.saf
  let n := if level == u.tamper then u.tamperN + 1 else 1
  let d1 := modSaf (fun u => { u with tamper := level, tamperN := n }) d
  if level && decide (40 < n) && !u.tamperDemand then
    let d2 := modSaf (fun u => { u with tamperDemand := true, sealed := false, sealCnt := satNat 65535 (u.sealCnt + 1), demands := satNat 65535 (u.demands + 1), cause := 2 }) d1
    let d3 := trigger 0x31 0x38 [2, d2.saf.sealCnt] d2
    if (usedOuts u).isEmpty then d3 else safRequest 1 (usedOuts u) d3
  else if !level && decide (4000 ≤ n) && u.tamperDemand then modSaf (fun u => { u with tamperDemand := false }) d1
  else d1

/-- The seal (R478): open for 2 s it clears SEALED; closed on the pattern in force for 2 s it seals. -/
def safSeal (lv : Nat) (d : Dev) : Dev :=
  let u := d.saf
  let pat := match u.cfg with | some c => some (cfgLe c 0x0A 1) | none => none
  let openN := if u.sealed && lv != u.sealPat then u.sealOpen + 1 else 0
  let matchN := if !u.sealed && pat == some lv && !u.tamper && !u.init then u.sealMatch + 1 else 0
  let d1 := modSaf (fun u => { u with sealLv := lv, sealOpen := openN, sealMatch := matchN }) d
  if 8000 ≤ openN then
    trigger 0x31 0x38 [0, u.sealCnt] (modSaf (fun u => { u with sealed := false, sealOpen := 0 }) d1)
  else if 8000 ≤ matchN then
    let c := u.cfg.getD []
    let d2 := modSaf (fun u => { u with sealed := true, sealCrc := safCrcA c, sealPat := lv, sealCnt := satNat 65535 (u.sealCnt + 1), sealMatch := 0 }) d1
    trigger 0x31 0x38 [1, d2.saf.sealCnt] d2
  else d1

/-- Tamper and remote demands act on every used output that is on. -/
def safGeneral (d : Dev) : Dev :=
  if d.saf.tamperDemand || !d.saf.remote.isEmpty then forEach (usedOuts d.saf) (safSquall false) d else d

/-- May output k turn on at an acknowledgement (R486)? -/
def mayTurnOn (u : SafUnit) (c : List Byte) (k : Nat) : Bool :=
  u.lockout == 0 && !u.init && u.faults == 0 && !u.tamperDemand && u.remote.isEmpty && !(getOut u k).fault &&
  (List.range 16).all (fun i => !(inDemands c i) || inMask c i / 2 ^ k % 2 == 0 || (!inDemand u i && !inDiscFault u i))

/-- An acknowledgement that both channels have seen turns on every output that may. -/
def safAck (d : Dev) : Dev :=
  match d.saf.cfg with
  | none => d
  | some c =>
    if 0 < d.saf.chA.ack ∧ 0 < d.saf.chB.ack then
      let d1 := modSaf (fun u => { u with chA := { u.chA with ack := 0 }, chB := { u.chB with ack := 0 } }) d
      forEach (usedOuts d1.saf) (fun k d =>
        if (getOut d.saf k).st = .off ∧ mayTurnOn d.saf c k then
          safReleases k (setOut k { getOut d.saf k with st := .on, lock := false, tested := d.saf.chA.n } d)
        else d) d1
    else d

/-- The switches that a channel drives after its evaluation. -/
def safDrive (chB : Bool) (d : Dev) : Dev :=
  modSaf (fun u =>
    let m := (List.range 8).foldl (fun s k => s + 2 ^ k * b2n ((getOut u k).st != .off)) 0
    if chB then { u with ls := if u.chB.dead then 0 else m } else { u with hs := if u.chA.dead then 0 else m }) d

/-! ### The mirror (R471, R492) -/

/-- The mirror registers; a change of SAF_STATE is a HIF event and a record. -/
def safMirror (d : Dev) : Dev :=
  let u := d.saf
  let st := safState u
  let bits (p : Nat → Bool) : Nat := (List.range 8).foldl (fun s k => s + 2 ^ k * b2n (p k)) 0
  let outs (q : SafOutSt → Bool) : Nat := bits (fun k => q (getOut u k).st)
  let closed := u.sealLv == u.sealPat && !u.tamper
  let sq := squallLeft u
  let cause := if (inSquall u).isEmpty then 0 else u.cause
  let w (n : Nat) : Word := BitVec.ofNat 32 n
  let stat := bits (fun k => (getOut u k).fault) * 16777216 + outs (fun s => s == .squall) * 65536 + outs (fun s => s != .off) * 256 +
    b2n u.tamperDemand * 32 + b2n closed * 16 + b2n u.sealed * 8 + st
  let d1 := wr SAF_STAT (w stat) (wr SAF_IN (w (demandBits u + 65536 * discBits u)) (wr SAF_RB (w (u.rb + 65536 * u.hs + 16777216 * u.ls))
    (wr SAF_SEAL (w (u.sealLv % 256 + 256 * b2n u.tamper + 65536 * u.sealCnt)) (wr SAF_CRC (w (match u.cfg with | some c => safCrcA c | none => 0))
    (wr SAF_SEALED_CRC (w u.sealCrc) (wr SAF_SQUALL (w (satNat 16777215 sq + 16777216 * cause)) (wr SAF_LOCK (w (if u.lockout = 0 then 0 else u.lockout + 256 * u.lockWhat))
    (wr SAF_CNT (w (u.testFails + 65536 * u.demands)) d))))))))
  if st = u.shown then d1
  else trigger 0x30 0x38 [u.shown, st, cause] (hifEvent 5 (modSaf (fun u => { u with shown := st }) d1))

/-- CHANNEL_A_EVALUATION and CHANNEL_B_EVALUATION. A dead channel evaluates nothing; in LOCKOUT only the mirror moves. -/
def safEval (chB : Bool) (x : SafSample) (d : Dev) : Dev :=
  let ch := getCh d.saf chB
  if ch.dead then d
  else
    let d0 := modSaf (fun u => { putCh chB { ch with n := ch.n + 1, miss := ch.miss + 1 } u with
      rb := if chB then u.rb % 256 + 256 * (x.rbls % 256) else x.rbhs % 256 + 256 * (x.rbls % 256) }) d
    let before := demandBits d0.saf
    let d1 := safInputs chB x d0
    let d2 := safExchange chB d1
    let d3 := if d2.saf.init then d2 else safReadback chB x d2
    let d4 := if chB then d3 else safSeal (x.sealLv % 256) (safTamper x.tamper d3)
    let d5 := if d4.saf.lockout = 0 then safAck (safGeneral (safDemands before d4)) else d4
    let d6 := safDrive chB d5
    if chB then d6 else safMirror d6

/-! ### Timed events (R484, R487, R488) -/

/-- SQUALL_WINDOW_END: every output whose window has run out on either channel's clock is cut. -/
def squallEnd (d : Dev) : Dev :=
  match d.saf.cfg with
  | none => d
  | some c =>
    let w := 4 * squallMs c
    let due := (inSquall d.saf).filter (fun k => let o := getOut d.saf k
      decide (o.from_.1 + w ≤ d.saf.chA.n) || decide (o.from_.2 + w ≤ d.saf.chB.n))
    safDrive true (safDrive false (forEach due safCut d))

/-- STANDSTILL_HOLD_END: with STILL_MODE 1 every output in SQUALL is cut once a channel has seen standstill for STILL_MS. -/
def standstillEnd (d : Dev) : Dev :=
  match d.saf.cfg with
  | none => d
  | some c =>
    let held := (List.range 16).any (fun k => inMode c k != 0 && inCat c k == 4 &&
      (decide (4 * stillMs c ≤ (getIn d.saf.chA k).still) || decide (4 * stillMs c ≤ (getIn d.saf.chB k).still)))
    if stillMode c = 1 ∧ held then safDrive true (safDrive false (forEach (inSquall d.saf) safCut d)) else d

/-- OUTPUT_TEST of output k: due TEST_S after it turned on or was tested; a pulse that does not show and return on its readback
is a failure and an output fault. -/
def outputTest (k : Nat) (pass : Bool) (d : Dev) : Dev :=
  match d.saf.cfg with
  | none => d
  | some c =>
    let o := getOut d.saf k
    if o.st ≠ .off ∧ outUsed c k ∧ o.tested + 4000 * outTestS c k ≤ d.saf.chA.n then
      let d1 := setOut k { o with tested := d.saf.chA.n, fault := o.fault || !pass } d
      if pass then d1
      else
        let d2 := modSaf (fun u => { u with testFails := satNat 65535 (u.testFails + 1) }) d1
        safDrive true (safDrive false (if o.fault then d2 else safFault 1 k d2))
    else d

/-- SAFETY_SUPPLY_FAULT: every output off at once, LOCKOUT. -/
def safSupply (d : Dev) : Dev := safDrive true (safDrive false (safLock 3 0 d))

/-- CHANNEL_DEAD: its switches fall off, so every output is off; the other channel enters LOCKOUT. -/
def safDead (chB : Bool) (d : Dev) : Dev :=
  safDrive true (safDrive false (safLock 4 (b2n chB) (modSaf (putCh chB { getCh d.saf chB with dead := true }) d)))

/-! ### Remote demands (R491) -/

/-- A received safety message: `p` the STOP_REQ payload of a sender. -/
def safRemote (src epoch : Nat) (p : List Byte) (d : Dev) : Dev :=
  match d.saf.cfg with
  | none => d
  | some c =>
    let head := p.take 0x18
    let safe := p.drop 0x1C
    let body := safe.take 0x10
    let key := src * 256 + epoch
    let scnt := pay safe 4 4
    let last := smGet d.saf.scnts key
    let fresh : Bool := match last with | some l => decide (l < scnt) | none => true
    if cfgLe c 0x15 1 = 1 ∧ pay p 6 1 = 1 ∧ pay p 0x18 2 = 24 ∧ src ≠ devId d ∧ pay safe 0 2 = cfgLe c 8 2 ∧
        crc32 (head ++ body) = pay safe 0x10 4 ∧ crc32c (head ++ body) = pay safe 0x14 4 ∧ fresh then
      let req := pay p 4 2
      let d1 := modSaf (fun u => { u with scnts := smPut u.scnts key scnt }) d
      if pay safe 3 1 = 0x80 then modSaf (fun u => { u with remote := u.remote.filter (fun r => r != (src, epoch, req)) }) d1
      else if pay safe 3 1 = 1 then
        let d2 := modSaf (fun u => { u with
          remote := if u.remote.contains (src, epoch, req) then u.remote else u.remote ++ [(src, epoch, req)]
          demands := satNat 65535 (u.demands + 1), cause := 3 }) d1
        let d3 := safGeneral d2
        if (usedOuts d3.saf).isEmpty then d3 else safRequest 1 (usedOuts d3.saf) d3
      else d1
    else d

/-- The safety data of an accepted STOP_REQ or RELEASE frame reaches the island (R490, R491). -/
def celSafety (f : CelFrame) (d : Dev) : Dev :=
  if (celPre f d).2 then safRemote (f.srcId % 4096) f.epoch (celPayload f) d else d

end Sys2Proof.Machine
end

