-- ==== Sys2Proof/Machine/Flk.lean ====
section
/-! DEFINITION. The field link (spec/15, R441..R460): frames, blocks, images, parameters, states and faults of the ports. -/
namespace Sys2Proof.Machine
open Sys2Proof Sys2Proof.Reg

def fnFlk (p : Nat) : Nat := 0x510 + p

def getFlk (d : Dev) (p : Nat) : FlkPort :=
  match smGet d.flk.ports p with
  | some x => x
  | none => {}

def setFlk (p : Nat) (x : FlkPort) (d : Dev) : Dev := { d with flk := { d.flk with ports := smPut d.flk.ports p x } }

/-- Field point of channel c of expander e of port p (R441). -/
def flkPoint (p e c : Nat) : Nat := 64 * p + 16 * e + c

def ptType (d : Dev) (n : Nat) : Nat := rf d (FLK_PT_CFG n) FLK_PT_CFG_TYPE

/-- Is point n an input: DI, AI or CNT? -/
def ptInput (d : Dev) (n : Nat) : Bool := ptType d n == 1 || ptType d n == 3 || ptType d n == 5

/-- Is expander e of port p included? -/
def expIn (d : Dev) (p e : Nat) : Bool := bitOf (rd d (FLK_PORT_CFG p)) e

def flkExps (d : Dev) (p : Nat) : List Nat := (List.range 4).filter (expIn d p)

/-- A FIELD_LINK record (R458). -/
def flkRecord (p what e : Nat) (d : Dev) : Dev := trigger 0x24 0x36 [p, what, e] d

/-! ### Parameters (R455) -/

/-- Every parameter of an expander, in ascending channel and PID order, then WD for the whole expander. -/
def expParams (d : Dev) (p e : Nat) : List FlkParam :=
  (List.range 16).flatMap (fun c =>
    let n := flkPoint p e c
    let f := rf d (FLK_PT_CFG n)
    [⟨e, some c, 0, f FLK_PT_CFG_TYPE⟩, ⟨e, some c, 1, f FLK_PT_CFG_FILT⟩, ⟨e, some c, 2, f FLK_PT_CFG_WB⟩,
     ⟨e, some c, 3, f FLK_PT_CFG_OSUB⟩, ⟨e, some c, 4, f FLK_PT_CFG_OHOLD⟩]) ++
  [⟨e, none, 8, rf d (FLK_PORT_CFG p) FLK_PORT_CFG_WD⟩]

/-- PARAM_DONE: every parameter sent has been acknowledged. A download that starts while the port runs leaves it as it is, so
that OUT_EN stays 1 (R456; DEDUCED, log entry 70). -/
def paramDone (p : Nat) (d : Dev) : Dev :=
  let x := getFlk d p
  if x.loaded ∧ x.queue.isEmpty ∧ x.flight.isEmpty ∧ !x.nak then wf (FLK_PORT_STAT p) FLK_PORT_STAT_PARAM_DONE 1 d else d

/-- A download starts: the parameters of all included expanders, or those of one expander behind what waits. -/
def flkDownload (p : Nat) (only : Option Nat) (d : Dev) : Dev :=
  let x := getFlk d p
  let x' := match only with
    | none => { x with queue := (flkExps d p).flatMap (expParams d p), flight := [], nak := false, loaded := true }
    | some e => { x with queue := x.queue ++ expParams d p e, loaded := true }
  let d1 := if fnActive d (fnFlk p) then d else wf (FLK_PORT_STAT p) FLK_PORT_STAT_PARAM_DONE 0 d
  paramDone p (setFlk p x' d1)

/-- PSEL of a parameter (R444). -/
def paramSel (q : FlkParam) : Nat := q.e + (match q.c with | some c => 4 * c | none => 64)

/-! ### Downstream frames (R444, R446, R447, R457) -/

/-- OUT_EN: RUNNING, and every parameter acknowledged. -/
def flkOutEn (d : Dev) (p : Nat) : Bool := fnIs d (fnFlk p) .running && rb d (FLK_PORT_STAT p) FLK_PORT_STAT_PARAM_DONE

/-- The bytes 0x01 to 0x87 of a downstream frame. -/
def flkBody (d : Dev) (p seq clr : Nat) (q : Option FlkParam) : List Byte :=
  let outs := (List.range 4).flatMap (fun e => (List.range 16).flatMap (fun c =>
    let n := flkPoint p e c
    leBytes 2 (if ptType d n = 2 ∨ ptType d n = 4 then (rd d (FLK_PT_VAL n)).toNat % 4096 else 0)))
  leBytes 1 (b2n (flkOutEn d p) + 2 * b2n (twnOwns d) + 4 * clr + 64 * b2n q.isSome) ++ leBytes 1 seq ++ leBytes 1 (twnFrameToken d) ++
  (match q with
   | some q => leBytes 1 (paramSel q) ++ leBytes 1 q.pid ++ leBytes 2 q.val
   | none => leBytes 4 0) ++ outs

/-- The next frame start of port p: the first multiple of 31,250 ns that is not past and follows the last frame (R446). -/
def flkNext (d : Dev) (p : Nat) : Nat :=
  let now := (d.tb + nsUnits - 1) / nsUnits
  let f := (now + 31249) / 31250 * 31250
  match (getFlk d p).last with
  | some l => if f = l then f + 31250 else f
  | none => f

/-- A downstream frame leaves at TB ns F. -/
def flkFrame (p F : Nat) (d : Dev) : Dev :=
  let x := getFlk d p
  let (q, rest) := match x.queue with | q :: t => (some q, t) | [] => (none, [])
  let body := flkBody d p x.seq x.clr q
  let bytes := (0xD5#8 :: body) ++ beBytes 2 (crc16 body)
  let x' := { x with
    open_ := some F, last := some F, sent := x.sent + 1, seq := (x.seq + 1) % 256, blocks := [], bad := [], owned := if twnOwns d then x.owned + 1 else 0, clr := 0, queue := rest
    flight := match q with | some q => x.flight ++ [(q, x.sent)] | none => x.flight
    stopF := if x.stopF.isNone ∧ fnIs d (fnFlk p) .stopping then some F else x.stopF }
  emit (.flkFrame p bytes) (setFlk p x' d)

/-! ### Upstream blocks (R445, R446, R449) -/

/-- Is a block whole: framed without error, 35 bytes, a correct CRC (R442, R445)? -/
def blockOk (framed : Bool) (b : List Byte) : Bool :=
  framed && b.length == 35 && beNat (b.drop 33) == crc16 (b.take 33)

/-- The header bits and the input word of channel c of a block. -/
def blockHdr (b : List Byte) : Nat := leNat (b.take 1)
def blockIn (b : List Byte) (c : Nat) : Nat := leNat ((b.drop (1 + 2 * c)).take 2)

/-- Is bit i of the header 1? -/
def hdrBit (b : List Byte) (i : Nat) : Bool := blockHdr b / 2 ^ i % 2 == 1

/-- A valid block of the open frame: the round trip, the ownership that the expander reports (R446, R501). A block shows OWNED as it
stood when its own frame began (R445), so it answers the frame before: only with OWNER = 1 there too does OWNED = 0 say that the
arbitration is lost (DEDUCED, log entry 247). -/
def flkTake (p at_ : Nat) (b : List Byte) (d : Dev) : Dev :=
  let x := getFlk d p
  match x.open_ with
  | none => d
  | some F =>
    let e := blockHdr b % 4
    let rtt := satNat 255 ((at_ - (F + 400 + 7100 * e)) / 8)
    let d1 := wf (FLK_PORT_RTT p) ⟨8 * e + 7, 8 * e⟩ rtt (setFlk p { x with blocks := smPut x.blocks e b } d)
    if hdrBit b 7 || decide (x.owned < 2) then d1 else twnDemote d1

/-- A block that R442 discards: CRC_ERR counts it, and the expander in whose place it came is not missing besides (R446: the places
lie 7,100 ns apart and no round trip reaches 1,700 ns). -/
def flkDiscard (p at_ : Nat) (d : Dev) : Dev :=
  let x := getFlk d p
  bump (FLK_PORT_CNT p) FLK_PORT_CNT_CRC_ERR
    (match x.open_ with
     | some F => setFlk p { x with bad := (at_ - (F + 400)) / 7100 :: x.bad } d
     | none => d)

/-! ### The close of a frame (R448, R449, R455, R457, R458) -/

def getCnt (d : Dev) (n : Nat) : FlkCnt :=
  match smGet d.flk.cnts n with
  | some x => x
  | none => {}

def setCnt (n : Nat) (x : FlkCnt) (d : Dev) : Dev := { d with flk := { d.flk with cnts := smPut d.flk.cnts n x } }

/-- The count of a CNT point at a valid block with status 0 (R449). -/
def cntStep (v : Nat) (x : FlkCnt) : FlkCnt :=
  if x.zero then { prev := some v, count := 0, zero := false }
  else match x.prev with
    | some p => { x with prev := some v, count := (x.count + (v + 4096 - p) % 4096) % 4294967296 }
    | none => { x with prev := some v }

/-- A count that ENABLE sets to 0 at the first valid block (R449). -/
def cntZero (n : Nat) (d : Dev) : Dev := if (getCnt d n).zero then setCnt n { getCnt d n with count := 0 } d else d

def setPt (n v : Nat) (subst : Bool) (d : Dev) : Dev :=
  wb (FLK_PT_STAT n) FLK_PT_STAT_SUBST subst (wr (FLK_PT_VAL n) (BitVec.ofNat 32 v) d)

/-- The substitute of an input point: ISUB; a CNT point holds its count. -/
def ptSubst (n : Nat) (d : Dev) : Dev :=
  if ptType d n = 5 then setPt n (getCnt d n).count true d
  else if ptType d n = 1 then setPt n (rf d (FLK_PT_CFG n) FLK_PT_CFG_ISUB % 2) true d
  else setPt n (rf d (FLK_PT_CFG n) FLK_PT_CFG_ISUB) true d

/-- The status code of a point as it was reported: EVT and DIAG when it becomes non-zero. -/
def ptCode (p n code : Nat) (d : Dev) : Dev :=
  let was := rf d (FLK_PT_STAT n) FLK_PT_STAT_CODE
  let d1 := wf (FLK_PT_STAT n) FLK_PT_STAT_CODE code d
  if was = 0 ∧ code ≠ 0 then wf (FLK_PORT_STAT p) FLK_PORT_STAT_DIAG 1 (wf (FLK_PT_STAT n) FLK_PT_STAT_EVT 1 d1) else d1

/-- Do the inputs of port p show raw values: it is READY, or has no state yet (R448)? -/
def flkRaw (d : Dev) (p : Nat) : Bool := match (getFn d (fnFlk p)).state with | .ready | .off => true | _ => false

/-- Channel c of a valid block of expander e (R448). -/
def ptBlock (p e c : Nat) (b : List Byte) (d : Dev) : Dev :=
  let n := flkPoint p e c
  let w := blockIn b c
  let code := w / 4096
  let v := w % 4096
  let d1 := ptCode p n code d
  if ptInput d n then
    if code = 0 then
      match ptType d n with
      | 1 => setPt n (v % 2) false d1
      | 5 => let x := cntStep v (getCnt d1 n); setPt n x.count false (setCnt n x d1)
      | _ => setPt n v false d1
    else if flkRaw d p then setPt n (if ptType d n = 1 then v % 2 else v) false d1
    else ptSubst n (cntZero n d1)
  else if ptType d n = 2 ∨ ptType d n = 4 then wb (FLK_PT_STAT n) FLK_PT_STAT_SUBST (code == 7) d1
  else wf (FLK_PT_STAT n) FLK_PT_STAT_SUBST 0 (wr (FLK_PT_VAL n) 0 d1)

/-- Expander e at the close: its block, or its miss. -/
def expClose (p e : Nat) (d : Dev) : Dev :=
  let x := getFlk d p
  let st := FLK_PORT_STAT p
  match smGet x.blocks e with
  | some b =>
    let uv := hdrBit b 5
    let first := uv && x.uv / 2 ^ e % 2 == 0
    let d1 := setFlk p { x with missed := smDel x.missed e, uv := if first then x.uv + 2 ^ e else if uv then x.uv else x.uv - 2 ^ e * (x.uv / 2 ^ e % 2) } d
    let d2 := wb st ⟨e, e⟩ true (wb st ⟨4 + e, 4 + e⟩ (hdrBit b 4) (wb st ⟨8 + e, 8 + e⟩ uv (wb st ⟨12 + e, 12 + e⟩ (hdrBit b 6) d1)))
    let d3 := if first ∧ expIn d p e then flkRecord p 1 e d2 else d2
    let d4 := forUpTo 16 (fun c d => ptBlock p e c b d) d3
    let asks := (List.range 16).any (fun c => blockIn b c / 4096 == 8)
    let busy := (x.queue.any (fun q => q.e == e)) || (x.flight.any (fun q => q.1.e == e))
    if asks && expIn d p e && !busy && !flkRaw d p && !fnIs d (fnFlk p) .faulted then flkDownload p (some e) d4 else d4
  | none =>
    let m := (match smGet x.missed e with | some m => m | none => 0) + 1
    let hold := rf d (FLK_PORT_CFG p) FLK_PORT_CFG_HOLD
    let d1 := wb st ⟨e, e⟩ false (setFlk p { x with missed := smPut x.missed e m } d)
    let d2 := if expIn d p e ∧ !x.bad.contains e then bump (FLK_PORT_CNT p) FLK_PORT_CNT_MISS d1 else d1
    let d3 := if expIn d p e ∧ m = hold + 1 then flkRecord p 2 e d2 else d2
    if hold < m then forUpTo 16 (fun c d => if ptInput d (flkPoint p e c) then ptSubst (flkPoint p e c) d else d) d3 else d3

/-- The answers of this frame to the parameters of the frame before it (R455). -/
def flkAnswers (p : Nat) (d : Dev) : Dev :=
  let x := getFlk d p
  let due := x.flight.filter (fun q => q.2 + 2 ≤ x.sent)
  let stay := x.flight.filter (fun q => !decide (q.2 + 2 ≤ x.sent))
  let ack (q : FlkParam) : Bool := match smGet x.blocks q.e with | some b => hdrBit b 2 | none => false
  let nak (q : FlkParam) : Bool := match smGet x.blocks q.e with | some b => hdrBit b 3 | none => false
  let again := (due.filter (fun q => !ack q.1 && !nak q.1)).map (·.1)
  let bad := due.find? (fun q => nak q.1)
  let d1 := setFlk p { x with flight := stay, queue := again ++ x.queue, nak := x.nak || bad.isSome } d
  let d2 := match bad with
    | some (q, _) =>
      let st := FLK_PORT_STAT p
      detectFault (fnFlk p) 2 (wf st FLK_PORT_STAT_PNAK 1 (wf st FLK_PORT_STAT_PNAK_EXP q.e (wf st FLK_PORT_STAT_PNAK_CH (q.c.getD 0) d1)))
    | none => d1
  paramDone p d2

/-- CUR (R458). -/
def flkCur (d : Dev) (p : Nat) : Bool :=
  fnIs d (fnFlk p) .running && rb d (FLK_PORT_STAT p) FLK_PORT_STAT_PARAM_DONE &&
  (flkExps d p).all (fun e => decide ((match smGet (getFlk d p).missed e with | some m => m | none => 0) ≤ rf d (FLK_PORT_CFG p) FLK_PORT_CFG_HOLD))

/-- Every included expander delivered a valid block in the last frame. -/
def flkAllValid (d : Dev) (p : Nat) : Bool := (flkExps d p).all (fun e => rb d (FLK_PORT_STAT p) ⟨e, e⟩)

/-- The frame of port p closes. -/
def flkClose (p : Nat) (d : Dev) : Dev :=
  let x := getFlk d p
  match x.open_ with
  | none => d
  | some _ =>
    let d1 := flkAnswers p (forUpTo 4 (expClose p) d)
    let some_ := (flkExps d p).any (fun e => (smGet x.blocks e).isSome)
    let x1 := getFlk d1 p
    let dead := if some_ then 0 else x1.dead + 1
    let lim := rf d (FLK_PORT_CFG p) FLK_PORT_CFG_LOST_LIMIT
    let d2 := setFlk p { x1 with open_ := none, dead := dead } d1
    let frames := rd d2 (FLK_PORT_FRAMES p) + 1
    let d3 := wr (FLK_PORT_FRAMES p) frames d2
    let d4 := if (if lim = 0 then 1 else lim) ≤ dead then detectFault (fnFlk p) 1 d3 else d3
    postOpen SCH_OPEN0 (16 + p) (0x9E0 + p) frames d4

/-- FRAME_CLOSE: the receive closes 30,500 ns after the frame start; the clock reaches it. -/
def flkCloseDue (p : Nat) (d : Dev) : Dev :=
  match (getFlk d p).open_ with
  | none => d
  | some F => flkClose p (clockToNs (F + 30500) d)

/-- FIELD_LINK_FRAME_START: a port whose unit is ready sends its next frame; a frame that is still open closes first. -/
def flkStart (p : Nat) (d : Dev) : Dev :=
  if rb d SYS_READY SYS_READY_FLK ∧ tbRuns d then
    let d1 := flkCloseDue p d
    let F := flkNext d1 p
    flkFrame p F (clockToNs F d1)
  else d

/-- UPSTREAM_BLOCK: a block whose first start bit comes at TB ns `at_`; it is complete 7,000 ns later. -/
def flkUpstream (p at_ : Nat) (framed : Bool) (b : List Byte) (d : Dev) : Dev :=
  if !rb d SYS_READY SYS_READY_FLK then d
  else
    let late := match (getFlk d p).open_ with | some F => decide (F + 30500 < at_ + 7000) | none => true
    let d1 := if late then flkCloseDue p d else d
    let d2 := clockToNs (at_ + 7000) d1
    if !blockOk framed b then flkDiscard p at_ d2
    else if late then wf (FLK_PORT_STAT p) FLK_PORT_STAT_LATE 1 d2
    else flkTake p at_ b d2

/-- LINE_BREAK: a line held low for more than 1 µs is a broken link; no register shows it by itself: the blocks that do not come
are missing at the close (R442, R448; log entry 72). -/
def flkBreak (_p at_ : Nat) (d : Dev) : Dev :=
  if rb d SYS_READY SYS_READY_FLK then clockToNs at_ d else d

/-! ### Images (R28, R447, R448) -/

/-- SAMPLE: the last image that is complete. -/
def flkSample (d : Dev) : Dev :=
  let pts := (List.range 512).filter (ptInput d)
  let img := pts.map (fun n => (n, rd d (FLK_PT_VAL n)))
  let ins := pts.map (fun n => (n, (((rd d (FLK_PT_VAL n)).toInt, rb d (FLK_PT_STAT n) FLK_PT_STAT_SUBST) : Int × Bool)))
  { d with flk := { d.flk with image := img }, lpe := { d.lpe with flkIn := ins } }

/-- A value of the output image: saturated to 0..4,095. -/
def aoCode (v : Int) : Nat := (clampInt 0 4095 v).toNat

/-- A delivered value rounded to nearest, ties away from zero (R447); no number counts as 0. -/
def roundAway (x : F32) : Int :=
  if fIsNan x then 0
  else if fIsInf x then (if fNeg? x then -4096 else 4096)
  else
    let (n, q) := fRat x
    let r : Int := (2 * n.natAbs + q) / (2 * q) |> Int.ofNat
    if n < 0 then -r else r

/-- The output image of a COMMIT instant (R447): Q and QW of the scan engine, u of a slot that names the point. -/
def flkOutputs (d : Dev) : Dev :=
  forUpTo 512 (fun n d =>
    if ptType d n = 2 then
      let w := match smGet d.scn.outQ (n / 32) with | some w => w | none => 0#32
      wr (FLK_PT_VAL n) (if bitOf w (n % 32) then 1 else 0) d
    else if ptType d n = 4 then
      let v := match slotFor d 4 n with
        | some s => aoCode (roundAway (getSlot d s).u)
        | none => aoCode (match smGet d.scn.outQW n with | some w => w.toInt | none => 0)
      wr (FLK_PT_VAL n) (BitVec.ofNat 32 v) d
    else d) d

/-- A stop completes at the first COMMIT instant after the apply instant of the first frame with OUT_EN = 0 (R457). -/
def flkStops (d : Dev) : Dev :=
  forUpTo 8 (fun p d =>
    match (getFlk d p).stopF with
    | some F => if fnIs d (fnFlk p) .stopping ∧ (F + 850 + 28500) * nsUnits < d.tb then stopDone (fnFlk p) d else d
    | none => d) d

/-! ### Function states and commands (R449, R455, R457, R459) -/

/-- The port enters ARMED: every parameter is sent. -/
def flkArm (p : Nat) (d : Dev) : Dev := flkDownload p none d

/-- ENABLE sets every count to 0 at its first valid block. -/
def flkEnable (p : Nat) (d : Dev) : Dev :=
  forUpTo 64 (fun i d => if ptType d (64 * p + i) = 5 then setCnt (64 * p + i) { getCnt d (64 * p + i) with zero := true } d else d)
    (setFlk p { getFlk d p with stopF := none } d)

def flkDisable (p : Nat) (d : Dev) : Dev := setFlk p { getFlk d p with stopF := none } d

/-- A port faults: a record (R458). -/
def flkFaulted (p : Nat) (d : Dev) : Dev := flkRecord p 0 0 d

def flkCause (d : Dev) (p code : Nat) : Bool := code == 1 && !flkAllValid d p

/-- FLK_PORTp_CMD: 1 CLEAR, 2 RESEND. -/
def flkCmd (p cmd mask : Nat) (d : Dev) : Dev :=
  if cmd = 1 then let x := getFlk d p; setFlk p { x with clr := Nat.lor x.clr (mask % 16) } d
  else if cmd = 2 then flkDownload p none d
  else d

/-- The checks of R460 on a port: TYPE, WB, EXP, WD. -/
def flkBad (d : Dev) : Bool :=
  (List.range 512).any (fun n =>
    let t := ptType d n
    decide (5 < t) || (rb d (FLK_PT_CFG n) FLK_PT_CFG_WB && t != 1 && t != 5) || (t != 0 && !expIn d (n / 64) (n / 16 % 4))) ||
  (List.range 8).any (fun p => (getFn d (fnFlk p)).included && rf d (FLK_PORT_CFG p) FLK_PORT_CFG_WD == 0)

end Sys2Proof.Machine
end

