-- ==== Sys2Proof/Machine/Scn.lean ====
section
/-! DEFINITION. The scan engine (spec/14, R419..R440): areas and window, the program check, execution instruction by instruction,
cycles and overrun, timers, counters, edges, snapshots, forces, exchange of the program. -/
namespace Sys2Proof.Machine
open Sys2Proof Sys2Proof.Reg

def fnScn : Nat := 0x508

def modScn (f : ScnUnit → ScnUnit) (d : Dev) : Dev := { d with scn := f d.scn }

/-- A word of an area; words that are not listed are 0. -/
def aw (m : SMap Word) (k : Nat) : Word := match smGet m k with | some w => w | none => 0

/-- The area with a word written (0 is not listed). -/
def awPut (m : SMap Word) (k : Nat) (w : Word) : SMap Word := if w = 0 then smDel m k else smPut m k w

/-- Bit n of a bit area, 32 to a word. -/
def ab (m : SMap Word) (n : Nat) : Bool := bitOf (aw m (n / 32)) (n % 32)

def abPut (m : SMap Word) (n : Nat) (b : Bool) : SMap Word := awPut m (n / 32) (fset (aw m (n / 32)) ⟨n % 32, n % 32⟩ (b2n b))

/-! ### The start grid (R419) -/

/-- G, in ns. -/
def scnGrid (d : Dev) : Nat := max 31250 (tickPns d)

/-- S_k in ns: the first grid point at or after k × PERIOD_US µs. -/
def scnStartNs (d : Dev) (k : Nat) : Nat :=
  let g := scnGrid d
  (k * rf d SCN_CFG SCN_CFG_PERIOD_US * 1000 + g - 1) / g * g

/-- The number of the first start instant after TB ns t. -/
def scnAfter (d : Dev) (t : Nat) : Nat :=
  let per := max 1 (rf d SCN_CFG SCN_CFG_PERIOD_US * 1000)
  let k := t / per
  if t < scnStartNs d k then k else if t < scnStartNs d (k + 1) then k + 1 else k + 2

/-! ### Instructions (R425, R427) -/

def insOp (w : Word) : Nat := fget w ⟨31, 26⟩
def insArea (w : Word) : Nat := fget w ⟨25, 22⟩
def insMod (w : Word) : Nat := fget w ⟨21, 16⟩
def insAddr (w : Word) : Nat := fget w ⟨15, 0⟩

/-- The fixed time of an opcode in ns; a jump that is taken takes 8. -/
def insTime (op : Nat) : Nat :=
  if op ≤ 0x13 ∨ op = 0x29 ∨ op = 0x2A ∨ op = 0x3F then 4
  else if 0x18 ≤ op ∧ op ≤ 0x1B then 16
  else if op = 0x20 ∨ op = 0x21 then 12
  else 8

/-- Is an opcode listed in R427? -/
def opValid (op : Nat) : Bool :=
  decide (op ≤ 0x0C) || decide (0x10 ≤ op ∧ op ≤ 0x15) || decide (0x18 ≤ op ∧ op ≤ 0x1C) || decide (0x20 ≤ op ∧ op ≤ 0x22) ||
  decide (0x28 ≤ op ∧ op ≤ 0x2A) || decide (0x30 ≤ op ∧ op ≤ 0x35) || op == 0x3F

/-- Is (area, address) in range for a read of bits, a write of bits, a read of words, a write of words (R423, R426)? -/
def areaLimit (a : Nat) : Nat :=
  if a = 0 ∨ a = 1 ∨ a = 6 ∨ a = 7 ∨ a = 5 then 512 else if a = 2 then 16384 else if a = 3 then 64 else if a = 4 then 1024
  else if a = 8 then 4096 else 65536

def bitRead (a : Nat) : Bool := decide (a ≤ 5)
def bitWrite (a : Nat) : Bool := a == 1 || a == 2
def wordRead (a : Nat) : Bool := decide (4 ≤ a ∧ a ≤ 9)
def wordWrite (a : Nat) : Bool := a == 7 || a == 8

/-- Are the operand fields of an instruction as R425 and R426 want them? -/
def operandOk (w : Word) : Bool :=
  let op := insOp w
  let a := insArea w
  let m := insMod w
  let x := insAddr w
  let inA := decide (x < areaLimit a)
  if op = 0 ∨ op = 0x0A ∨ op = 0x0C ∨ op = 0x3F then a == 0 && m == 0 && x == 0
  else if 1 ≤ op ∧ op ≤ 8 then bitRead a && inA && m == 0
  else if op = 9 then a == 0 && m == 0
  else if op = 0x0B then a == 0 && decide (m ≤ 2) && x == 0
  else if 0x10 ≤ op ∧ op ≤ 0x13 then bitWrite a && inA && m == 0
  else if op = 0x14 ∨ op = 0x15 then a == 0 && m == 0 && decide (x < 2048)
  else if 0x18 ≤ op ∧ op ≤ 0x1C then a == 4 && m == 0 && decide (x < 1024)
  else if 0x20 ≤ op ∧ op ≤ 0x22 then a == 5 && m == 0 && decide (x < 512)
  else if 0x28 ≤ op ∧ op ≤ 0x2A then a == 0 && m == 0
  else if op = 0x31 ∨ op = 0x32 then wordWrite a && inA && m == 0
  else if op = 0x35 then wordRead a && inA && decide (m ≤ 5)
  else wordRead a && inA && m == 0

/-! ### The program check (R428) -/

/-- What the walk over the program carries: depth and longest time by address, the first use of each timer, counter and edge
number (key: kind × 4096 + number), the first failure (code, address), the longest path to an END. -/
structure ScnWalk where
  at_ : SMap (Nat × Nat) := []
  uses : SMap Nat := []
  bad : Option (Nat × Nat) := none
  wcet : Nat := 0

/-- The first failure is kept. -/
def ScnWalk.fail (w : ScnWalk) (code addr : Nat) : ScnWalk := { w with bad := match w.bad with | some b => some b | none => some (code, addr) }

/-- A path with depth and time goes on at an address. -/
def walkTo (len a from_ depth t : Nat) (w : ScnWalk) : ScnWalk :=
  if len ≤ a then w.fail 4 from_
  else match smGet w.at_ a with
    | none => { w with at_ := smPut w.at_ a (depth, t) }
    | some (dp, t') => { (if dp = depth then w else w.fail 5 a) with at_ := smPut w.at_ a (dp, max t t') }

/-- Does an included slot name field point n as its destination? -/
def slotOwns (d : Dev) (n : Nat) : Bool := (slotFor d 4 n).isSome

/-- A Q or QW operand names an output point of its kind that no slot owns. -/
def outputOk (d : Dev) (w : Word) : Bool :=
  let op := insOp w
  let a := insArea w
  let n := insAddr w
  let uses := decide (1 ≤ op ∧ op ≤ 8) || decide (0x10 ≤ op ∧ op ≤ 0x13) || decide (0x30 ≤ op ∧ op ≤ 0x35)
  if uses && a == 1 then ptType d n == 2 && !slotOwns d n
  else if uses && a == 7 then ptType d n == 4 && !slotOwns d n
  else true

/-- The kinds of numbers that only one instruction of a program may use, and the failure code (DEDUCED, log entry 74). -/
def dupCode (op : Nat) : Option (Nat × Nat) :=
  if 0x18 ≤ op ∧ op ≤ 0x1B then some (1, 6) else if op = 0x20 ∨ op = 0x21 then some (2, 7)
  else if op = 0x14 ∨ op = 0x15 then some (3, 8) else none

/-- One instruction of the walk. -/
def walkStep (d : Dev) (code : SMap Word) (len a : Nat) (w : ScnWalk) : ScnWalk :=
  let i := aw code a
  let op := insOp i
  if !opValid op then w.fail 1 a
  else if !operandOk i then w.fail 2 a
  else
    let isJump := decide (0x28 ≤ op ∧ op ≤ 0x2A)
    let tgt := insAddr i
    let w1 := if isJump && (decide (tgt ≤ a) || decide (len ≤ tgt)) then w.fail 3 a else w
    let w2 := if outputOk d i then w1 else w1.fail 11 a
    let w3 := match dupCode op with
      | some (kind, c) =>
        (match smGet w2.uses (kind * 4096 + tgt) with
         | some _ => w2.fail c tgt
         | none => { w2 with uses := smPut w2.uses (kind * 4096 + tgt) op })
      | none => w2
    match smGet w3.at_ a with
    | none => w3
    | some (dp, t) =>
      let t1 := t + insTime op
      if op = 0x3F then { (if dp = 0 then w3 else w3.fail 5 a) with wcet := max w3.wcet t1 }
      else if op = 0x0B then walkTo len (a + 1) a (dp + 1) t1 (if 8 ≤ dp then w3.fail 5 a else w3)
      else if op = 0x0C then walkTo len (a + 1) a (dp - 1) t1 (if dp = 0 then w3.fail 5 a else w3)
      else if op = 0x28 then walkTo len tgt a dp t1 w3
      else if isJump then walkTo len tgt a dp (t + 8) (walkTo len (a + 1) a dp t1 w3)
      else walkTo len (a + 1) a dp t1 w3

/-- The draft bank of the program. -/
def scnDraftLen (d : Dev) : Nat := rf d SCN_PROG_LEN SCN_PROG_LEN_CODE_LEN

/-- Retentive ranges within their areas (R433). -/
def retainOk (dm tc : Word) : Bool :=
  decide (fget dm SCN_RET_DM_RET_M ≤ 512) && decide (fget dm SCN_RET_DM_RET_D ≤ 4096) && decide (fget tc SCN_RET_TC_RET_C ≤ 512) &&
  decide (fget tc SCN_RET_TC_RET_T ≤ 1024)

/-- R419: is the period out of its range, or below the grid? -/
def scnPeriodBad (d : Dev) : Bool :=
  let us := rf d SCN_CFG SCN_CFG_PERIOD_US
  decide (us < 100) || decide (1000000 < us) || decide (us * 1000 < scnGrid d)

/-- The check of a program: its first failure (code, address) and its WCET in ns. -/
def scnCheckOf (d : Dev) (code : SMap Word) (len : Nat) (dm tc : Word) : Option (Nat × Nat) × Nat :=
  if len < 1 ∨ 65536 < len then (some (9, 0), 0)
  else if !retainOk dm tc then (some (10, 0), 0)
  else if scnPeriodBad d then (some (12, 0), 0)
  else
    let w := (List.range len).foldl (fun w a => walkStep d code len a w) ({ at_ := [(0, (0, 0))] } : ScnWalk)
    (w.bad, w.wcet)

/-- The program check against the draft bank: SCN_CHECK is written; answers whether it fails. -/
def scnCheck (d : Dev) : Dev × Bool :=
  let (bad, _) := scnCheckOf d d.scn.prog (scnDraftLen d) (rd d SCN_RET_DM) (rd d SCN_RET_TC)
  match bad with
  | some (c, a) => (wr SCN_CHECK (BitVec.ofNat 32 (a % 65536 * 65536 + c)) d, true)
  | none => (wr SCN_CHECK 0 d, false)

/-- WCET and WCET_OVER of the live program, in units of 4 ns. -/
def scnShowWcet (d : Dev) : Dev :=
  let (_, t) := scnCheckOf d d.scn.progL (cf d SCN_PROG_LEN SCN_PROG_LEN_CODE_LEN) 0 0
  wf SCN_WCET SCN_WCET_VALUE (satNat 1048575 (t / 4))
    (wb SCN_STAT SCN_STAT_WCET_OVER (decide (rf d SCN_CFG SCN_CFG_PERIOD_US * 1000 < t + 1250)) d)

/-! ### The bank that runs (R437) -/

/-- The live bank. -/
def scnLive (d : Dev) : ScnBank :=
  { code := d.scn.progL, len := cf d SCN_PROG_LEN SCN_PROG_LEN_CODE_LEN, tpre := d.scn.tpreL, cpre := d.scn.cpreL,
    retDM := cur d SCN_RET_DM, retTC := cur d SCN_RET_TC }

/-- The opcode of the instruction of a bank that uses number n of a kind (R123, R431). -/
def bankUse (b : ScnBank) (ops : List Nat) (n : Nat) : Option Nat :=
  (b.code.find? (fun e => decide (e.1 < b.len) && ops.contains (insOp e.2) && insAddr e.2 == n)).map (fun e => insOp e.2)

def timerOps : List Nat := [0x18, 0x19, 0x1A, 0x1B]
def counterOps : List Nat := [0x20, 0x21]
def edgeOps : List Nat := [0x14, 0x15]

/-- State carried over to a new bank: what both banks hold, a timer with its type; everything else starts at reset (R123, R437). -/
def scnCarry (old new : ScnBank) (u : ScnUnit) : ScnUnit :=
  { u with
    bank := new
    tmrs := u.tmrs.filter (fun e => (bankUse old timerOps e.1).isSome && bankUse old timerOps e.1 == bankUse new timerOps e.1)
    ctrs := u.ctrs.filter (fun e => (bankUse old counterOps e.1).isSome && (bankUse new counterOps e.1).isSome)
    edges := u.edges.filter (fun e => (bankUse old edgeOps e.1).isSome && (bankUse new edgeOps e.1).isSome) }

/-- A timer's type: that of its instruction (R437); without one, the type it was loaded with. -/
def tmrType (u : ScnUnit) (n : Nat) (t : ScnTmr) : Nat :=
  match bankUse u.bank timerOps n with
  | some op => op - 0x18
  | none => t.typ

/-! ### Operands (R423) -/

def getTmr (u : ScnUnit) (n : Nat) : ScnTmr := match smGet u.tmrs n with | some t => t | none => {}
def getCtr (u : ScnUnit) (n : Nat) : ScnCtr := match smGet u.ctrs n with | some c => c | none => {}

/-- The elapsed time in µs, saturated. -/
def tmrUs (t : ScnTmr) : Nat := satNat 0x7FFFFFFF (t.el / 1000)

def bitOperand (u : ScnUnit) (a n : Nat) : Bool :=
  if a = 0 then ab u.i n else if a = 1 then ab u.q n else if a = 2 then ab u.m n else if a = 3 then u.sys / 2 ^ n % 2 == 1
  else if a = 4 then (getTmr u n).q else (getCtr u n).done

def wordOperand (u : ScnUnit) (a n : Nat) : Int :=
  if a = 4 then tmrUs (getTmr u n) else if a = 5 then (getCtr u n).count else if a = 6 then (aw u.iw n).toInt
  else if a = 7 then (aw u.qw n).toInt else if a = 8 then (aw u.dw n).toInt else sext 16 n

def putBit (a n : Nat) (b : Bool) (u : ScnUnit) : ScnUnit :=
  if a = 1 then { u with q := abPut u.q n b } else { u with m := abPut u.m n b }

def putWord (a n : Nat) (v : Int) (u : ScnUnit) : ScnUnit :=
  if a = 7 then { u with qw := awPut u.qw n (BitVec.ofInt 32 v) } else { u with dw := awPut u.dw n (BitVec.ofInt 32 v) }

/-! ### Timers, counters, edges (R429..R432) -/

def elMax : Nat := 4294967295000

/-- One evaluation of a timer at S (ns) with its input (R430); typ is 0 TON, 1 TOF, 2 TP, 3 RTO. -/
def tmrEval (typ pre S : Nat) (inp : Bool) (t : ScnTmr) : ScnTmr :=
  let t := if t.st = 0 then { t with imem := inp, run := false, el := 0, q := false } else if t.st = 1 then { t with imem := inp } else t
  let el0 := if t.run then min (t.el + (S - t.tLast)) elMax else t.el
  let t := { t with el := el0, tLast := S, typ := typ, st := 2 }
  let t' :=
    if typ = 0 then
      let x := if inp then { t with run := true } else { t with run := false, el := 0 }
      { x with q := inp && decide (pre ≤ x.el) }
    else if typ = 3 then { t with run := inp, q := decide (pre ≤ t.el) }
    else if typ = 1 then
      if inp then { t with run := false, el := 0, q := true }
      else
        let x := if t.imem then { t with run := true } else t
        let y := if x.run ∧ pre ≤ x.el then { x with run := false } else x
        { y with q := y.run }
    else
      let x := if inp && !t.imem && !t.run then { t with run := true, el := 0 } else t
      let y := if x.run ∧ pre ≤ x.el then { x with run := false } else x
      { y with q := y.run }
  { t' with imem := inp }

/-- One evaluation of a counter (R431). -/
def ctrEval (down : Bool) (pre : Int) (inp : Bool) (c : ScnCtr) : ScnCtr :=
  let c := if c.seen then c else { c with cmem := inp, seen := true }
  let n := if inp && !c.cmem then satI32 (if down then c.count - 1 else c.count + 1) else c.count
  { c with count := n, done := if down then decide (n ≤ 0) else decide (pre ≤ n), cmem := inp }

/-! ### EXECUTE (R420, R426, R427) -/

/-- The enabled entries in ascending order. -/
def forceEntries (d : Dev) : List (Nat × Nat × Word) :=
  (List.range 64).filterMap (fun k =>
    let s := rd d (SCN_FORCE_SEL k)
    if fget s SCN_FORCE_SEL_EN = 1 then some (fget s SCN_FORCE_SEL_AREA, fget s SCN_FORCE_SEL_ADDR, rd d (SCN_FORCE_VAL k)) else none)

/-- The forces of one bit area, and of one word area, applied. -/
def forceBits (d : Dev) (area : Nat) (m : SMap Word) : SMap Word :=
  (forceEntries d).foldl (fun m e => if e.1 = area then abPut m e.2.1 (bitOf e.2.2 0) else m) m

def forceWords (d : Dev) (area : Nat) (m : SMap Word) : SMap Word :=
  (forceEntries d).foldl (fun m e => if e.1 = area then awPut m e.2.1 e.2.2 else m) m

/-- The bits 41:0, 51:48 and 62 of a timer in a snapshot; the words of a counter. -/
def snapTmr (u : ScnUnit) (n : Nat) : Nat :=
  let t := getTmr u n
  t.el % 4398046511104 + tmrType u n t % 16 * 281474976710656 + b2n t.q * 4611686018427387904

/-- The body of a snapshot (R434). -/
def snapBody (u : ScnUnit) : List Byte :=
  (List.range (fget u.bank.retDM SCN_RET_DM_RET_D)).flatMap (fun i => leBytes 4 (aw u.dw i).toNat) ++
  (List.range (fget u.bank.retDM SCN_RET_DM_RET_M)).flatMap (fun i => leBytes 4 (aw u.m i).toNat) ++
  (List.range (fget u.bank.retTC SCN_RET_TC_RET_T)).flatMap (fun i => leBytes 8 (snapTmr u i)) ++
  (List.range (fget u.bank.retTC SCN_RET_TC_RET_C)).flatMap (fun i =>
    leBytes 4 (ofInt 32 (getCtr u i).count) ++ leBytes 4 (b2n (bankUse u.bank counterOps i == some 0x21)))

/-- A snapshot that falls due: captured, or skipped while a write is in progress. -/
def scnCapture (d : Dev) : Dev :=
  if d.scn.snap.isSome then bump SCN_RET_STAT SCN_RET_STAT_RET_SKIP d
  else
    let u := d.scn
    wf SCN_RET_STAT SCN_RET_STAT_WRITING 1 (modScn (fun x => { x with snap := some (u.bank.retDM, u.bank.retTC, snapBody u) }) d)

/-- The CRC of a SCAN_CRC frame: over M, D and the q bits of the timers (R497). -/
def scnCrc (u : ScnUnit) : Nat :=
  crc32 ((List.range 512).flatMap (fun i => leBytes 4 (aw u.m i).toNat) ++ (List.range 4096).flatMap (fun i => leBytes 4 (aw u.dw i).toNat) ++
    (List.range 128).map (fun i => BitVec.ofNat 8 ((List.range 8).foldl (fun s k => s + 2 ^ k * b2n (getTmr u (8 * i + k)).q) 0)))

/-- END at TB time t: the output image, the counters of execution, a snapshot, the comparison of a twin pair. -/
def scnEnd (t : Nat) (c : ScnCycle) (d : Dev) : Dev :=
  let u := d.scn
  let x := (t - (c.start + 1250 * nsUnits)) / nsUnits
  let n := u.cycles + 1
  let d1 := modScn (fun u => { u with cycle := none, cycles := n, pend := some (t, forceBits d 1 u.q, forceWords d 7 u.qw) }) d
  let d2 := wf SCN_EXEC SCN_EXEC_VALUE (satNat 1048575 (x / 4)) d1
  let pct := rf d SCN_CFG SCN_CFG_WARN_PCT
  let d3 := if pct ≠ 0 ∧ pct * rf d SCN_CFG SCN_CFG_PERIOD_US * 10 < x then
    wf SCN_STAT SCN_STAT_OVR_WARN 1 (bump SCN_CNT SCN_CNT_WARN_CNT d2) else d2
  let every := rf d SCN_CFG2 SCN_CFG2_RET_EVERY
  let d4 := if (every ≠ 0 ∧ n % every = 0) ∨ fnIs d fnScn .stopping then scnCapture d3 else d3
  if fnIs d fnTwn .running ∧ twnRole d ≠ 0 then
    twnOwnCrc n (scnCrc d4.scn) d4
  else d4

/-- One instruction at TB time t: the engine after it; `none` at END. -/
def scnIns (c : ScnCycle) (u : ScnUnit) : ScnUnit × Option ScnCycle :=
  let w := aw u.bank.code c.pc
  let op := insOp w
  let a := insArea w
  let n := insAddr w
  let next : ScnCycle := { c with pc := c.pc + 1, t := c.t + insTime op * nsUnits }
  let bit := bitOperand u a n
  let word := wordOperand u a n
  let sNs := c.start / nsUnits
  let acc (b : Bool) : ScnUnit × Option ScnCycle := (u, some { next with acc := b })
  let timer (typ : Nat) : ScnUnit × Option ScnCycle :=
    let t := tmrEval typ ((aw u.bank.tpre n).toNat * 1000) sNs c.acc (getTmr u n)
    ({ u with tmrs := smPut u.tmrs n t }, some { next with acc := t.q })
  let counter (down : Bool) : ScnUnit × Option ScnCycle :=
    let x := ctrEval down (aw u.bank.cpre n).toInt c.acc (getCtr u n)
    ({ u with ctrs := smPut u.ctrs n x }, some { next with acc := x.done })
  let edge (rise : Bool) : ScnUnit × Option ScnCycle :=
    let e := match smGet u.edges n with | some b => b | none => c.acc
    ({ u with edges := smPut u.edges n c.acc }, some { next with acc := if rise then c.acc && !e else !c.acc && e })
  let jump (take : Bool) : ScnUnit × Option ScnCycle := (u, some (if take then { next with pc := n, t := c.t + 8 * nsUnits } else next))
  match op with
  | 0x01 => acc bit
  | 0x02 => acc (!bit)
  | 0x03 => acc (c.acc && bit)
  | 0x04 => acc (c.acc && !bit)
  | 0x05 => acc (c.acc || bit)
  | 0x06 => acc (c.acc || !bit)
  | 0x07 => acc (c.acc != bit)
  | 0x08 => acc (c.acc == bit)
  | 0x09 => acc (n % 2 == 1)
  | 0x0A => acc (!c.acc)
  | 0x0B => (u, some { next with stack := (c.acc, insMod w) :: c.stack })
  | 0x0C => (u, some (match c.stack with
      | (b, o) :: r => { next with stack := r, acc := if o = 0 then b && c.acc else if o = 1 then b || c.acc else b != c.acc }
      | [] => next))
  | 0x10 => (putBit a n c.acc u, some next)
  | 0x11 => (putBit a n (!c.acc) u, some next)
  | 0x12 => (if c.acc then putBit a n true u else u, some next)
  | 0x13 => (if c.acc then putBit a n false u else u, some next)
  | 0x14 => edge true
  | 0x15 => edge false
  | 0x18 => timer 0
  | 0x19 => timer 1
  | 0x1A => timer 2
  | 0x1B => timer 3
  | 0x1C => (if c.acc then { u with tmrs := smPut u.tmrs n { getTmr u n with run := false, el := 0, q := false } } else u, some next)
  | 0x20 => counter false
  | 0x21 => counter true
  | 0x22 =>
    if c.acc then
      let down := bankUse u.bank counterOps n == some 0x21
      let pre := (aw u.bank.cpre n).toInt
      let v : Int := if down then pre else 0
      ({ u with ctrs := smPut u.ctrs n { getCtr u n with count := v, done := if down then decide (v ≤ 0) else decide (pre ≤ v) } }, some next)
    else (u, some next)
  | 0x28 => jump true
  | 0x29 => jump c.acc
  | 0x2A => jump (!c.acc)
  | 0x30 => (u, some { next with wa := word })
  | 0x31 => (putWord a n c.wa u, some next)
  | 0x32 => (if c.acc then putWord a n c.wa u else u, some next)
  | 0x33 => (u, some { next with wa := satI32 (c.wa + word) })
  | 0x34 => (u, some { next with wa := satI32 (c.wa - word) })
  | 0x35 =>
    let m := insMod w
    acc (if m = 0 then c.wa == word else if m = 1 then c.wa != word else if m = 2 then decide (word < c.wa)
         else if m = 3 then decide (word ≤ c.wa) else if m = 4 then decide (c.wa < word) else decide (c.wa ≤ word))
  | 0x3F => (u, none)
  | _ => (u, some next)

/-- The time that the next instruction takes, ns. -/
def insDur (c : ScnCycle) (u : ScnUnit) : Nat :=
  let op := insOp (aw u.bank.code c.pc)
  if (op = 0x29 ∧ c.acc) ∨ (op = 0x2A ∧ !c.acc) then 8 else insTime op

/-- The instructions of the cycle in progress that have ended by TB time `now`, each counted for the power budget (R409). -/
def scnRunTo : Nat → Nat → Dev → Dev
  | 0, _, d => d
  | fuel + 1, now, d =>
    match d.scn.cycle with
    | none => d
    | some c =>
      let fin := c.t + insDur c d.scn * nsUnits
      if now < fin then d
      else
        let d0 := { d with sch := { d.sch with scanInstr := d.sch.scanInstr + 1 } }
        match scnIns c d0.scn with
        | (u, some c') => scnRunTo fuel now { d0 with scn := { u with cycle := some c' } }
        | (u, none) => scnEnd fin c { d0 with scn := u }

/-- The scan engine brought up to TB time t. -/
def scnSyncTo (t : Nat) (d : Dev) : Dev :=
  match d.scn.cycle with
  | none => d
  | some c => scnRunTo (d.scn.bank.len - c.pc + 1) t d

/-- The scan engine brought up to the present time. -/
def scnSync (d : Dev) : Dev := scnSyncTo d.tb d

/-- Is EXECUTE in progress (from S_k + 1,250 ns on)? -/
def scnExecuting (d : Dev) : Bool :=
  match d.scn.cycle with
  | some c => decide (c.start + 1250 * nsUnits ≤ d.tb)
  | none => false

/-! ### Cycles (R420..R422) -/

/-- S0..S63 at S_k (R421, R473). -/
def scnSysBits (d : Dev) : Nat :=
  let u := d.scn
  let warm := rb d SCN_STAT SCN_STAT_WARM_LOADED
  let forced := !(forceEntries d).isEmpty
  b2n u.first + 2 * b2n (u.first && warm) + 4 * b2n u.swapped + 8 * b2n u.skipped + 16 * b2n forced + 32 * b2n (stopInForce d) +
  64 * rf d TB_STAT TB_STAT_LOCKED + 128 * b2n u.retLost +
  (List.range 8).foldl (fun s p => s + 2 ^ (8 + p) * b2n (flkCur d p)) 0

/-- INPUT: the input areas with the forces. -/
def scnInputs (d : Dev) : SMap Word × SMap Word :=
  let img := d.flk.image
  let i := img.foldl (fun m e => if ptType d e.1 = 1 then abPut m e.1 (bitOf e.2 0) else m) []
  let iw := img.foldl (fun m e => if ptType d e.1 = 3 ∨ ptType d e.1 = 5 then awPut m e.1 e.2 else m) []
  (forceBits d 0 i, forceWords d 6 iw)

/-- A cycle begins at S (TB time): INPUT; EXECUTE follows 1,250 ns later; a swapped bank takes over. `saf` are the bits 15:0 of
the safety island's status word. -/
def scnBegin (S saf : Nat) (d : Dev) : Dev :=
  let u0 := d.scn
  let u1 := if u0.swapped ∧ u0.bank ≠ scnLive d then scnCarry u0.bank (scnLive d) u0 else u0
  let (i, iw) := scnInputs d
  let sys := scnSysBits d + saf % 65536 * 65536
  modScn (fun _ => { u1 with
    i := i, iw := iw, sys := sys, first := false, swapped := false, skipped := false, overs := if u0.skipped then u0.overs else 0
    cycle := some { start := S, t := S + 1250 * nsUnits } }) d

/-- The start instant S of the next cycle: the cycle begins, or the start is skipped because END has not been reached; with
SKIP_LIMIT overrunning cycles in succession the engine faults (R422). -/
def scanStart (saf : Nat) (d : Dev) : Dev :=
  match d.scn.nextK with
  | none => d
  | some k =>
    let S := scnStartNs d k * nsUnits
    let d0 := scnSyncTo (min S d.tb) d
    let d1 := modScn (fun u => { u with nextK := some (k + 1) }) d0
    match d1.scn.cycle with
    | some _ =>
      let overs := if d1.scn.skipped then d1.scn.overs else d1.scn.overs + 1
      let d2 := wf SCN_STAT SCN_STAT_SKIP_EVT 1 (bump SCN_CNT SCN_CNT_SKIP_CNT (modScn (fun u => { u with skipped := true, overs := overs }) d1))
      let lim := rf d SCN_CFG2 SCN_CFG2_SKIP_LIMIT
      if lim ≠ 0 ∧ lim ≤ overs then detectFault fnScn 1 d2 else d2
    | none => scnBegin S saf d1

/-- An uncorrectable error in scan memory in the cycle in progress: ECC (R48, R435). -/
def scanEcc (ecc : Bool) (d : Dev) : Dev := if ecc && d.scn.cycle.isSome then detectFault fnScn 2 (eccRecord 0x34 d) else d

/-! ### Start, stop, fault (R433, R435) -/

/-- A snapshot copy in MRAM: SEQ, ranges and body, if MAGIC and CRC are valid. -/
def snapRead (m : Memory) (copy : Nat) : Option (Nat × List Nat × List Byte) :=
  let base := 0x60100000 + 0x8000 * copy
  if memWord m base = 0x5243534B then
    let seq := memWord m (base + 4)
    let rng := (List.range 4).map (fun i => leNat (memReadN m (base + 8 + 2 * i) 2))
    let len := 4 * rng.getD 0 0 + 4 * rng.getD 1 0 + 8 * rng.getD 2 0 + 8 * rng.getD 3 0
    if len ≤ 0x7FC0 then
      let body := memReadN m (base + 0x40) len
      if crc32 body = memWord m (base + 0x10) then some (seq, rng, body) else none
    else none
  else none

/-- The newest valid copy (R434). -/
def snapNewest (m : Memory) : Option (Nat × Nat × List Nat × List Byte) :=
  match snapRead m 0, snapRead m 1 with
  | some a, some b => if a.1 < b.1 then some (1, b) else some (0, a)
  | some a, none => some (0, a)
  | none, some b => some (1, b)
  | none, none => none

/-- The areas of a start, COLD, or WARM with a snapshot (R433). -/
def scnAreas (d : Dev) (snap : Option (List Nat × List Byte)) : ScnUnit :=
  let u := d.scn
  let bank := scnLive d
  let cold : ScnUnit := { u with
    bank := bank, m := [], dw := u.iniL, i := [], q := [], iw := [], qw := [], sys := 0, tmrs := [], ctrs := [], edges := []
    cycle := none, first := true, skipped := false, overs := 0, cycles := 0, pend := none, outQ := [], outQW := [] }
  match snap with
  | none => cold
  | some (rng, body) =>
    let nD := rng.getD 0 0
    let nM := rng.getD 1 0
    let nT := rng.getD 2 0
    let nC := rng.getD 3 0
    let word (o : Nat) : Nat := leNat ((body.drop o).take 4)
    let two (o : Nat) : Nat := leNat ((body.drop o).take 8)
    let dm := bank.retDM
    let tc := bank.retTC
    let oM := 4 * nD
    let oT := oM + 4 * nM
    let oC := oT + 8 * nT
    let dw := (List.range (min nD (fget dm SCN_RET_DM_RET_D))).foldl (fun m i => awPut m i (BitVec.ofNat 32 (word (4 * i)))) cold.dw
    let m := (List.range (min nM (fget dm SCN_RET_DM_RET_M))).foldl (fun m i => awPut m i (BitVec.ofNat 32 (word (oM + 4 * i)))) []
    let tm := (List.range (min nT (fget tc SCN_RET_TC_RET_T))).foldl (fun (m : SMap ScnTmr) i =>
      let w := two (oT + 8 * i)
      let typ := w / 281474976710656 % 16
      let t : ScnTmr := { el := w % 4398046511104, q := decide (w / 4611686018427387904 % 2 = 1), typ := typ, st := 1 }
      smPut m i t) []
    let ct := (List.range (min nC (fget tc SCN_RET_TC_RET_C))).foldl (fun (m : SMap ScnCtr) i =>
      smPut m i { count := sext 32 (word (oC + 8 * i)) }) []
    { cold with dw := dw, m := m, tmrs := tm, ctrs := ct }

/-- The engine becomes RUNNING (ENABLE or a restart). -/
def scnEnable (m : Memory) (d : Dev) : Dev :=
  let warm := rf d SCN_CFG SCN_CFG_START_MODE == 0
  let snap := snapNewest m
  let d0 := match snap with | some (c, _) => wf SCN_RET_STAT SCN_RET_STAT_NEWEST c d | none => d
  let used := if warm then snap.map (fun s => s.2.2) else none
  let lost := warm && snap.isNone
  let u := { scnAreas d0 used with nextK := some (scnAfter d0 (tbNs d0)), retLost := if warm then lost else d.scn.retLost }
  let d1 := wb SCN_STAT SCN_STAT_WARM_LOADED used.isSome { d0 with scn := u }
  let d2 := if lost then wf SCN_STAT SCN_STAT_RET_LOST 1 d1 else d1
  scnShowWcet d2

/-- The output image set to 0. -/
def scnZero (d : Dev) : Dev := modScn (fun u => { u with outQ := [], outQW := [], pend := none }) d

/-- DISABLE: without a cycle in progress nothing runs any more; STOP_OUT. -/
def scnDisable (d : Dev) : Dev :=
  let d1 := modScn (fun u => { u with nextK := none }) d
  if d1.scn.cycle.isNone ∧ rb d SCN_CFG SCN_CFG_STOP_OUT then scnZero d1 else d1

/-- The engine is FAULTED, or leaves the armed states: no cycle, output image 0. -/
def scnHalt (d : Dev) : Dev := scnZero (modScn (fun u => { u with cycle := none, nextK := none }) d)

/-- The COMMIT instant: the image of an END strictly before it transfers; a stop without a cycle completes. -/
def scnCommit (d : Dev) : Dev :=
  let d0 := scnSync d
  let d1 := match d0.scn.pend with
    | some (t, q, qw) => if t < d0.tb then modScn (fun u => { u with outQ := q, outQW := qw, pend := none }) d0 else d0
    | none => d0
  if fnIs d1 fnScn .stopping ∧ d1.scn.cycle.isNone ∧ d1.scn.pend.isNone then
    stopDone fnScn (if rb d1 SCN_CFG SCN_CFG_STOP_OUT then scnZero d1 else d1)
  else d1

/-! ### Snapshots (R434) -/

/-- SNAPSHOT_WRITE_COMPLETE: the captured body in the older copy, its header last. -/
def snapComplete (m : Memory) (d : Dev) : Dev :=
  match d.scn.snap with
  | none => d
  | some (dm, tc, body) =>
    let newest := snapNewest m
    let copy := match newest with | some (c, _) => 1 - c | none => 0
    let seq := match newest with | some (_, s, _) => (s + 1) % 4294967296 | none => 1
    let base := 0x60100000 + 0x8000 * copy
    let hdr := leBytes 4 0x5243534B ++ leBytes 4 seq ++ leBytes 2 (fget dm SCN_RET_DM_RET_D) ++ leBytes 2 (fget dm SCN_RET_DM_RET_M) ++
      leBytes 2 (fget tc SCN_RET_TC_RET_T) ++ leBytes 2 (fget tc SCN_RET_TC_RET_C) ++ leBytes 4 (crc32 body) ++ List.replicate 44 0
    memPut base hdr (memPut (base + 0x40) body
      (wf SCN_RET_STAT SCN_RET_STAT_WRITING 0 (wf SCN_RET_STAT SCN_RET_STAT_NEWEST copy (modScn (fun u => { u with snap := none }) d))))

/-! ### The window and the forces (R424, R436, R440) -/

/-- The size of a window area in words; 0 for one that selects nothing. -/
def winSize (area page : Nat) : Nat :=
  if area ≤ 1 then 65536 else if area = 2 ∨ area = 6 then 4096 else if area = 3 then 1024 else if area = 4 ∨ area = 5 then 512
  else if area = 7 then 2048 else if area = 8 then 1024
  else if area = 9 then (if page = 0 then 32 else if page = 1 then 1024 + 512 else if page = 2 then 2048 + 512 else 0)
  else if area = 10 then 64 else 0

def winArea (d : Dev) : Nat := rf d SCN_WIN SCN_WIN_AREA
def winPage (d : Dev) : Nat := rf d SCN_WIN SCN_WIN_PAGE
def winWord (d : Dev) (off : Nat) : Nat := winPage d * 1024 + (off - 0x35000) / 4

/-- Does the window word lie beyond the size of its area? -/
def winBeyond (d : Dev) (off : Nat) : Bool := decide (winSize (winArea d) (winPage d) ≤ winWord d off)

/-- What a window word reads. -/
def winRead (d : Dev) (off : Nat) : Word :=
  let u := (scnSync d).scn
  let n := winWord d off
  if winBeyond d off then 0
  else match winArea d with
    | 0 => aw u.prog n
    | 1 => aw u.progL n
    | 2 => aw u.ini n
    | 3 => aw u.tpre n
    | 4 => aw u.cpre n
    | 5 => aw u.m n
    | 6 => aw u.dw n
    | 7 =>
      let t := getTmr u (n / 2)
      if n % 2 = 0 then BitVec.ofNat 32 (satNat 4294967295 (t.el / 1000))
      else BitVec.ofNat 32 (b2n t.q + 2 * b2n t.run + 4 * b2n t.imem + 16 * (tmrType u (n / 2) t % 16))
    | 8 =>
      let c := getCtr u (n / 2)
      if n % 2 = 0 then BitVec.ofInt 32 c.count
      else BitVec.ofNat 32 (b2n c.done + 2 * b2n c.cmem + 4 * b2n (bankUse u.bank counterOps (n / 2) == some 0x21))
    | 9 => if n < 16 then aw u.i n else if n < 32 then aw u.q (n - 16) else if n < 2048 then aw u.iw (n - 1024) else aw u.qw (n - 2048)
    | _ => BitVec.ofNat 32 ((List.range 32).foldl (fun s k => s + 2 ^ k * b2n (smGet u.edges (32 * n + k) == some true)) 0)

/-- Is the selected area a draft bank (its writes are RWD)? -/
def winDraft (d : Dev) : Bool := winArea d == 0 || winArea d == 2 || winArea d == 3 || winArea d == 4

/-- The write of a window word that lies within its area: the draft areas, M and D; the others are read-only. -/
def winWrite (off : Nat) (v : Word) (d : Dev) : Dev :=
  let n := winWord d off
  let d := scnSync d
  modScn (fun u => match winArea d with
    | 0 => { u with prog := awPut u.prog n v }
    | 2 => { u with ini := awPut u.ini n v }
    | 3 => { u with tpre := awPut u.tpre n v }
    | 4 => { u with cpre := awPut u.cpre n v }
    | 5 => { u with m := awPut u.m n v }
    | 6 => { u with dw := awPut u.dw n v }
    | _ => u) d

/-- FORCED as SCN_STAT shows it. -/
def forceShow (d : Dev) : Dev := wb SCN_STAT SCN_STAT_FORCED (!(forceEntries d).isEmpty) d

/-- A FORCE record (R518). -/
def forceRecord (k : Nat) (d : Dev) : Dev := trigger 0x23 0x34 [k, (rd d (SCN_FORCE_SEL k)).toNat, (rd d (SCN_FORCE_VAL k)).toNat] d

/-- A write to a force entry (R436): `sel` says which of its registers; an entry that names no forceable operand is discarded. -/
def forceWrite (k : Nat) (sel : Bool) (v : Word) (d : Dev) : Dev :=
  let d := scnSync d
  let w := if sel then v &&& 0x83C0FFFF#32 else v
  let a := fget w SCN_FORCE_SEL_AREA
  if sel && (!(a == 0 || a == 1 || a == 6 || a == 7) || decide (512 ≤ fget w SCN_FORCE_SEL_ADDR)) then wf SCN_STAT SCN_STAT_FORCE_REJ 1 d
  else
    let off := if sel then SCN_FORCE_SEL k else SCN_FORCE_VAL k
    let was := rb d (SCN_FORCE_SEL k) SCN_FORCE_SEL_EN
    let d1 := forceShow (wr off w d)
    if rd d off ≠ w ∧ (was ∨ rb d1 (SCN_FORCE_SEL k) SCN_FORCE_SEL_EN) then forceRecord k d1 else d1

/-- DISARM and DISARM_NOW clear the force entries. -/
def forcesClear (d : Dev) : Dev :=
  forceShow (forUpTo 64 (fun k d =>
    let on := rb d (SCN_FORCE_SEL k) SCN_FORCE_SEL_EN
    let d1 := wr (SCN_FORCE_SEL k) 0 (wr (SCN_FORCE_VAL k) 0 d)
    if on then forceRecord k d1 else d1) d)

/-! ### Banks (R113, R120, R122, R437) -/

/-- Draft to live (arming), the exchange of the banks (a swap), live to draft (DRAFT_SYNC). -/
def scnArm (d : Dev) : Dev :=
  scnShowWcet (modScn (fun u => { u with swapped := false, progL := u.prog, iniL := u.ini, tpreL := u.tpre, cpreL := u.cpre }) d)

def scnSwap (d : Dev) : Dev :=
  scnShowWcet (modScn (fun u => { u with
    prog := u.progL, ini := u.iniL, tpre := u.tpreL, cpre := u.cpreL, progL := u.prog, iniL := u.ini, tpreL := u.tpre, cpreL := u.cpre
    swapped := true }) (scnSync d))

def scnDraftSync (d : Dev) : Dev :=
  modScn (fun u => { u with prog := u.progL, ini := u.iniL, tpre := u.tpreL, cpre := u.cpreL }) d

end Sys2Proof.Machine
end

