-- ==== Sys2Proof/Machine/Reset.lean ====
section
/-! DEFINITION. Resets, readiness and the PCI Express endpoint's own resets (spec/03, R88..R96; spec/02, R63, R65; spec/04, R124..R130). -/
namespace Sys2Proof.Machine
open Sys2Proof Sys2Proof.Reg

/-! ### What a reset keeps -/

/-- The registers that keep part of their value through every reset: those of the always-on domain (R510), the counters that the
recorder's store holds (R522), the reset causes (R92), the detected supply levels. -/
def keptWord (off : Nat) (w : Word) : Option Word :=
  if off = PWR_WAKE_CFG ∨ off = PWR_ALARM_LO ∨ off = PWR_ALARM_HI ∨ off = EVR_LOST ∨ off = SYS_RST_CAUSE then some w
  else if off = PWR_STAT then some (w &&& 0x000F0C00#32)
  else if off = PWR_THERM_STAT then some (w &&& 0x01000000#32)
  else if off = MFP_BANK_STAT then some (w &&& 0x3FFFF#32)
  else none

def keptRegs (d : Dev) (more : Nat → Word → Option Word) : SMap Word :=
  d.regs.filterMap (fun e => match keptWord e.1 e.2 with
    | some w => some (e.1, w)
    | none => (more e.1 e.2).map (fun w => (e.1, w)))

/-- The registers of the safety island's mirror, kept where the island is not reset (R90). -/
def keptSaf (off : Nat) (w : Word) : Option Word := if 0x38000 ≤ off ∧ off < 0x38024 then some w else none

/-- The recorder after a reset: its store (R522); what was queued is lost. -/
def evrKept (e : EvrUnit) : EvrUnit := { e with wait := [], queue := [], copies := [], copyTick := 0, erasing := false, lastFail := none, arg := 0, clr := none, clrRec := none }

def pwrKept (p : PwrUnit) : PwrUnit := { p with state := .gale, entry := none, hotRuns := [0, 0, 0, 0, 0, 0, 0, 0], storedBells := [] }

/-- A bit of SYS_RST_CAUSE set (R92). -/
def rstCause (f : Fld) (d : Dev) : Dev := wf SYS_RST_CAUSE f 1 d

/-- The device after a cold reset (R89): every register and unit at reset but for the always-on domain, the MRAM contents and,
unless power-on, the safety island. -/
def coldDev (d : Dev) : Dev :=
  { regs := keptRegs d keptSaf
    qspi := d.qspi, draws := d.draws, memq := d.memq ++ [.clearSram], out := d.out
    sys := { bootsel := d.sys.bootsel, perstLow := d.sys.perstLow }
    pwr := pwrKept d.pwr, evr := evrKept d.evr, saf := d.saf, mfp := { pads := d.mfp.pads } }

/-- A cold reset: every bit of SYS_READY clears, SAF too, although the island itself keeps its state (R90, R94; DEDUCED, log entry 90). -/
def coldReset (d : Dev) : Dev := coldDev d

/-- The island after a power-on reset: only its own non-volatile seal record (R470, R478). -/
def safPowerOn (u : SafUnit) : SafUnit := { sealed := u.sealed, sealCrc := u.sealCrc, sealPat := u.sealPat, sealCnt := u.sealCnt }

/-- A power-on reset (R88, R92, R515): all causes cleared, the cycle count advanced, the island reset. `wake` and `low` are what
WAKE_CAUSE and LAST_LOW show. -/
def powerOnReset (wake low : Nat) (supply : Bool) (d : Dev) : Dev :=
  let d1 := { coldDev d with saf := safPowerOn d.saf }
  let d2 := { d1 with regs := d1.regs.filter (fun e => !decide (0x38000 ≤ e.1 ∧ e.1 < 0x38024))
                      pwr := { d1.pwr with pcyc := (d1.pwr.pcyc + 1) % 4294967296, opTime := d.pwr.opSecStored * 1000000000 * nsUnits } }
  let d3 := wf PWR_STAT PWR_STAT_LAST_LOW low (wf PWR_STAT PWR_STAT_WAKE_CAUSE wake (wr SYS_RST_CAUSE 0 d2))
  wb SYS_RST_CAUSE SYS_RST_CAUSE_SUPPLY supply (rstCause SYS_RST_CAUSE_POR d3)

/-- The number of the low-power state that the device is in, as LAST_LOW shows it. -/
def lowNum (d : Dev) : Nat :=
  match d.pwr.state with
  | .breeze => 1
  | .lull => 2
  | .calm => 3
  | _ => 0

/-- Is the device held in reset (R70)? -/
def resetHeld (d : Dev) : Bool := match d.pwr.state with | .held => true | _ => false

/-- PORST_N low, or a supervisor trip: a power-on reset that also ends a low-power state (R511); one that is held already is not reset
again, and a trip meanwhile shows in its cause. -/
def porstReset (supply : Bool) (d : Dev) : Dev :=
  if resetHeld d then
    (if supply then wb SYS_RST_CAUSE SYS_RST_CAUSE_SUPPLY true { d with pwr := { d.pwr with railLow := true } } else d)
  else
    let low := lowNum d
    let d1 := powerOnReset (if low = 0 then 0 else 1) (if low = 0 then rf d PWR_STAT PWR_STAT_LAST_LOW else low) supply
      { d with pwr := { d.pwr with keeperOn := false, heldWake := none, wakeNLow := false } }
    { d1 with pwr := { d1.pwr with railLow := supply } }

/-- The power-on reset, and what holds it: with `held` a rail that GALE needs is out of tolerance or PORST_N is still low, and the device
stays in reset until the command comes without it; BOOTSEL is sampled at the de-assertion (R63, R70). -/
def porst (bootsel : Nat) (supply held : Bool) (d : Dev) : Dev :=
  let d1 := porstReset supply d
  if held then { d1 with pwr := { d1.pwr with state := .held } }
  else { d1 with pwr := { d1.pwr with state := .gale, railLow := false }, sys := { d1.sys with bootsel := bootsel % 4 } }

/-- SYSRST_N low for at least 1 µs (R88). -/
def pinReset (d : Dev) : Dev := rstCause SYS_RST_CAUSE_PIN (coldReset d)

/-- What a warm reset keeps beside what every reset keeps: TB, NET, the endpoint with its MSI-X table, the island, EPOS, RUNS (R88, R89,
R241, R296). -/
def warmWord (off : Nat) (w : Word) : Option Word :=
  if 0x8000 ≤ off ∧ off < 0xC000 then some w
  else if off = HIF_LINK ∨ (0x6000 ≤ off ∧ off < 0x7020) then some w
  else if 0x20000 ≤ off ∧ off < 0x22000 ∧ off % 0x100 = 0x20 then some (resetVal off - (resetVal off &&& 0x3FF#32) + (w &&& 0x3FF#32))
  else if 0x11800 ≤ off ∧ off < 0x11A00 ∧ off % 0x10 = 0 then some (w &&& 0xFFFF0000#32)
  else keptSaf off w

/-- The RWD fields of a register hold in their draft what the live bank holds (R15). -/
def draftLive (off : Nat) (d : Dev) : Dev :=
  let m := rwdMask off
  if m = 0 then d else wr off ((rd d off &&& ~~~m) ||| (liveRaw d off &&& m)) d

/-- The draft fields of the registers that a reset keeps take their live values (R15). -/
def draftsLive (d : Dev) : Dev := forEach (smKeys d.regs ++ smKeys d.live) draftLive d

/-- The device after a warm reset (R89, R91, R95, R205): SRAM keeps its contents; the rings are disabled. -/
def warmReset (d : Dev) : Dev :=
  let keep : Nat := (rd d SYS_READY &&& 0x00000007#32).toNat
  let d1 : Dev :=
    { regs := keptRegs d warmWord, live := d.live.filter (fun e => decide (0x8000 ≤ e.1 ∧ e.1 < 0xC000))
      half := d.half.filter (fun e => decide (0x8000 ≤ e.1 ∧ e.1 < 0xC000)), qspi := d.qspi
      tb := d.tb, phase := d.phase, tick := d.tick, draws := d.draws, memq := d.memq, out := d.out
      sys := { bootsel := d.sys.bootsel, perstLow := d.sys.perstLow, newReady := if bitOf (rd d SYS_READY) 1 then [1] else [] }
      pwr := { pwrKept d.pwr with wakeNLow := d.pwr.wakeNLow }, evr := evrKept d.evr, saf := d.saf, mfp := { pads := d.mfp.pads }
      hif := { msixEnable := d.hif.msixEnable, msixFnMask := d.hif.msixFnMask, space := d.hif.space, fetches := d.hif.fetches, dones := d.hif.dones }
      cfg := { bootPending := false }
      tbu := { d.tbu with pulses := [] }, net := d.net, cel := { d.cel with formed := [] } }
  rstCause SYS_RST_CAUSE_SW_WARM (wr SYS_READY (BitVec.ofNat 32 keep) (draftsLive d1))

/-! ### Software resets (R93) -/

/-- A write to SYS_RST_CTRL: with the right KEY, COLD before WARM; a reset that has been requested starts when it was to start, whatever
is written meanwhile. -/
def rstCtrl (v : Word) (d : Dev) : Dev :=
  if d.sys.rstReq.isSome then d
  else if fget v SYS_RST_CTRL_KEY = 0x5A17 then
    if bitOf v 0 then { d with sys := { d.sys with rstReq := some .cold, rstAt := d.tb } }
    else if bitOf v 1 then { d with sys := { d.sys with rstReq := some .warm, rstAt := d.tb } }
    else d
  else d

/-- SOFTWARE_RESET_START: 1 µs after the acceptance of the request. A cold one takes down the link. -/
def softReset (d : Dev) : Dev :=
  match d.sys.rstReq with
  | none => d
  | some k =>
    let d1 := clockTo (d.sys.rstAt + 1000 * nsUnits) d
    match k with
    | .cold => rstCause SYS_RST_CAUSE_SW_COLD (coldReset d1)
    | .warm => warmReset d1

/-! ### Readiness (R58, R91, R94, R96) -/

/-- OSCILLATOR_LOCK: RSTOUT_N rises; the coarse time keeper has counted `lfxo` periods since (R514). -/
def oscLock (lfxo : Nat) (d : Dev) : Dev :=
  let p := if d.pwr.keeperOn then { d.pwr with keeper := d.pwr.keeper + lfxo * 131072000000000 } else d.pwr
  { d with sys := { d.sys with rstoutHigh := true }, pwr := p }

/-- TB time starts: from the coarse time keeper after LULL, else at 0. -/
def tbStart (d : Dev) : Dev :=
  if d.pwr.keeperOn then
    let t := d.pwr.keeper % 2 ^ 96
    { d with tb := t, phase := .none, tick := (t + tickP d - 1) / tickP d, pwr := { d.pwr with keeperOn := false } }
  else { d with tb := 0, phase := .none, tick := 0 }

/-- UNIT_READY of a bit of SYS_READY: the unit passed its self-test, or failed it. The web phase unit has calibrated its delay line before
(WPU_STAT.DL_CAL). -/
def unitReady (bit : Nat) (passed : Bool) (d : Dev) : Dev :=
  if 22 < bit ∨ bitOf (rd d SYS_READY) bit then d
  else if !passed then trigger 0x02 0x00 [bit] d
  else
    let d0 := if bit = 1 then tbStart d else d
    let d1 := wf SYS_READY ⟨bit, bit⟩ 1 { d0 with sys := { d0.sys with newReady := d0.sys.newReady ++ [bit] } }
    if bit = 8 then forUpTo 4 chanRetrack (wf WPU_STAT WPU_STAT_DL_CAL 1 d1)
    else if bit = 13 then adcCalDone d1
    else if bit = 19 then modSaf (fun u => { u with init := false }) d1
    else if bit = 20 then
      trigger 0x01 0x00 [(rd d1 SYS_RST_CAUSE).toNat, rf d1 PWR_STAT PWR_STAT_WAKE_CAUSE, d1.sys.bootsel] d1
    else d1

/-! ### The endpoint (R65, R129, R130, R160, R162) -/

/-- Bus Master Enable 0: every RUNNING ring pauses. -/
def pauseRings (d : Dev) : Dev :=
  forUpTo 64 (fun r d => if ringState d r = ringRunning then setRingState r ringPaused d else d) (wf HIF_LINK HIF_LINK_BME 0 d)

/-- Bus Master Enable 1: paused rings run again; entries that waited are written. -/
def resumeRings (d : Dev) : Dev :=
  forUpTo 64 (fun r d => if ringState d r = ringPaused then ringBack r (setRingState r ringRunning d) else ringDrain r d)
    (wf HIF_LINK HIF_LINK_BME 1 d)

/-- Pending messages of unmasked vectors are sent once the endpoint may send them (R160). -/
def msixPending (d : Dev) : Dev :=
  forUpTo 256 (fun v d =>
    if bitOf (rd d (HIF_MSIX_PBA (v / 32))) (v % 32) then sendMsix v (wf (HIF_MSIX_PBA (v / 32)) ⟨v % 32, v % 32⟩ 0 d) else d) d

/-- The configuration space written: Bus Master Enable, MSI-X Enable and Function Mask; an endpoint held in reset takes no write (R65). -/
def busMaster (bme enable fnMask : Bool) (space : CfgSpace) (d : Dev) : Dev :=
  if d.sys.perstLow then d
  else
    let d1 := { d with hif := { d.hif with msixEnable := enable, msixFnMask := fnMask, space := space } }
    msixPending (if bme then resumeRings d1 else pauseRings d1)

/-- The configuration space after a reset of the endpoint; the AER status stays (sticky: PRESUMED, PCI Express; log entry 235). -/
def spaceReset (x : CfgSpace) : CfgSpace := { aer := x.aer }

/-- FLR: the endpoint, the MSI-X table and the rings are as after reset, with what waits or is latched of their registers; no completion
entries (R129, R131, R162). An endpoint held in reset takes none (R65). -/
def flr (d : Dev) : Dev :=
  let mine (off : Nat) : Bool := decide (0x5000 ≤ off ∧ off < 0x7020)
  if d.sys.perstLow then d
  else
    let d1 := { d with
      regs := d.regs.filter (fun e => !mine e.1), half := d.half.filter (fun e => !mine e.1)
      latch := d.latch.filter (fun e => !mine (e.1 % 1048576))
      hif := { d.hif with rings := [], msixEnable := false, msixFnMask := false, space := spaceReset d.hif.space } }
    hifErr HIF_ERR_FLR (wr HIF_HALTED_LO 0 (wr HIF_HALTED_HI 0 (wf HIF_LINK HIF_LINK_BME 0 d1)))

/-- The endpoint loses its configuration: Bus Master Enable and the MSI-X enables 0 (PRESUMED, PCI Express; log entry 91). -/
def endpointDown (d : Dev) : Dev :=
  let d1 := pauseRings { d with hif := { d.hif with msixEnable := false, msixFnMask := false, space := spaceReset d.hif.space } }
  wf HIF_LINK HIF_LINK_UP 0 (wf HIF_LINK HIF_LINK_WIDTH 0 (wf HIF_LINK HIF_LINK_SPEED 0 d1))

/-- LINK_LOST: the link left L0 or L1 without a request. -/
def linkLost (d : Dev) : Dev := hifErr HIF_ERR_LINK_LOST (endpointDown d)

def perstLow (d : Dev) : Dev := endpointDown { d with sys := { d.sys with perstLow := true } }
def perstHigh (d : Dev) : Dev := { d with sys := { d.sys with perstLow := false } }

/-- The link comes up, or back to L0, or ASPM takes it to a substate of L1 (R124). In L0 WAKE_N is released, and an entry to LULL or CALM
in progress is refused with LINK (R509, R513). -/
def linkUp (speed width pm : Nat) (d : Dev) : Dev :=
  if d.sys.perstLow then d
  else if pm ≠ 0 then (if rb d HIF_LINK HIF_LINK_UP then wf HIF_LINK HIF_LINK_PM pm d else d)
  else
    let d1 := wf HIF_LINK HIF_LINK_PM 0 (wf HIF_LINK HIF_LINK_UP 1 (wf HIF_LINK HIF_LINK_WIDTH width (wf HIF_LINK HIF_LINK_SPEED speed d)))
    let d2 := { d1 with pwr := { d1.pwr with wakeNLow := false } }
    if d.pwr.entry = some .lull ∨ d.pwr.entry = some .calm then
      wf PWR_STAT PWR_STAT_REJ_CODE 8 (wf PWR_STAT PWR_STAT_REJ 1 (wf PWR_STAT PWR_STAT_BUSY 0 { d2 with pwr := { d2.pwr with entry := none } }))
    else d2

end Sys2Proof.Machine
end

