-- ==== Sys2Proof/Machine/Evr.lean ====
section
/-! DEFINITION. The event recorder (spec/17, R519..R524): copies, records, the store, reading, clearing. -/
namespace Sys2Proof.Machine
open Sys2Proof Sys2Proof.Reg

def modEvr (f : EvrUnit → EvrUnit) (d : Dev) : Dev := { d with evr := f d.evr }

/-- Operating time in whole seconds (R515). -/
def opSec (d : Dev) : Nat := d.pwr.opTime / (1000000000 * nsUnits) % 4294967296

/-- The registers that a record copies: the four fixed ones and the selected ones, none where an entry is off (R521). -/
def evrNames (d : Dev) : List (Option Nat) :=
  [some CFG_STAT, some SAF_STAT, some TB_STAT, some PWR_STAT] ++
  (List.range 14).map (fun j => if rb d (EVR_SEL j) EVR_SEL_EN then some (rf d (EVR_SEL j) EVR_SEL_OFFSET / 4 * 4) else none)

/-- The copies, made with a reading function without side effects (R519). -/
def evrCopies (read : Dev → Nat → Word) (d : Dev) : List Word :=
  (evrNames d).map (fun o => match o with | some off => read d off | none => 0)

/-- Words 1..30 of a record (R521). -/
def evrRecord (d : Dev) (t : Trig) (noTick : Bool) (tick : Nat) (copies : List Word) : List Word :=
  [BitVec.ofNat 32 (t.code + t.src * 65536 + b2n noTick * 16777216), BitVec.ofNat 32 t.ns, BitVec.ofNat 32 (t.ns / 4294967296),
   BitVec.ofNat 32 tick, BitVec.ofNat 32 (tick / 4294967296), BitVec.ofNat 32 (opSec d), BitVec.ofNat 32 d.pwr.pcyc, rd d CFG_IMAGE_ID] ++
  (List.range 4).map (fun i => t.detail.getD i 0) ++ copies

/-- The records of every waiting trigger, with these copies. -/
def evrTake (noTick : Bool) (tick : Nat) (copies : List Word) (d : Dev) : Dev :=
  modEvr (fun e => { e with
    wait := [], queue := e.queue ++ e.wait.map (fun t => evrRecord d t noTick tick copies)
    clr := none, clrRec := match e.clr with | some t => some (evrRecord d t noTick tick copies) | none => e.clrRec }) d

/-- What waits takes its copies where it may: at arrival before TB time runs, and after the COMMIT instant of its tick those of that
instant (R519). -/
def evrCapture (read : Dev → Nat → Word) (d : Dev) : Dev :=
  if d.evr.wait.isEmpty && d.evr.clr.isNone then d
  else if !tbRuns d then evrTake true 0 (evrCopies read d) d
  else match d.phase with
    | .commit => evrTake false d.evr.copyTick d.evr.copies d
    | _ => d

/-- The copies of the COMMIT instant of tick n. -/
def evrCommit (read : Dev → Nat → Word) (n : Nat) (d : Dev) : Dev := modEvr (fun e => { e with copies := evrCopies read d, copyTick := n }) d

/-- A record completed with its SEQ and CRC and put into the store; the newest 16,384 stay (R520..R522). -/
def evrStore (r : List Word) (d : Dev) : Dev :=
  let body := BitVec.ofNat 32 d.evr.nextSeq :: r
  let whole := body ++ [BitVec.ofNat 32 (crc32 (body.flatMap (fun w => leBytes 4 w.toNat)))]
  let d1 := modEvr (fun e => { e with
    nextSeq := (e.nextSeq + 1) % 4294967296
    store := (e.store ++ [whole]).drop (e.store.length + 1 - 16384) }) d
  hifEvent 4 (streamPush 4 0 (whole.flatMap (fun w => leBytes 4 w.toNat)) d1)

/-- Words 9 to 11 of a CLEAR record, DETAIL0 to DETAIL2: how many records go, the SEQ of the newest of them, the clear count. -/
def clearWords (e : EvrUnit) (r : List Word) : List Word :=
  r.take 8 ++ [BitVec.ofNat 32 e.store.length, (e.store.getLast?.bind (·.head?)).getD 0, BitVec.ofNat 32 (e.clears + 1)] ++ r.drop 11

/-- RECORD_WRITE: the oldest record is written; an accepted CLEAR comes first and leaves nothing else in the store (R520, R523). -/
def recordWrite (d : Dev) : Dev :=
  if !rb d SYS_READY SYS_READY_EVR then d
  else match d.evr.clrRec with
  | some r =>
    let d1 := evrStore (clearWords d.evr r) d
    modEvr (fun e => { e with clrRec := none, clears := e.clears + 1, store := e.store.drop (e.store.length - 1) }) d1
  | none =>
    if d.evr.clr.isSome then d
    else match d.evr.queue with
      | [] => d
      | r :: t => evrStore r (modEvr (fun e => { e with queue := t }) d)

/-- The queue as EVR_STAT shows it: captured and waiting records. -/
def evrQueued (e : EvrUnit) : Nat := e.wait.length + e.queue.length

/-- EVR_RD_SEQ written (R522). -/
def rdSeq (v : Word) (d : Dev) : Dev :=
  let d1 := wr EVR_RD_SEQ v d
  match d.evr.store.find? (fun r => r.head? == some v) with
  | none => wr EVR_RD_STAT 1 d1
  | some r =>
    let good := BitVec.ofNat 32 (crc32 ((r.take 31).flatMap (fun w => leBytes 4 w.toNat))) == r.getD 31 0
    wr EVR_RD_STAT (BitVec.ofNat 32 (3 + 4 * b2n (!good))) (forUpTo 32 (fun w d => wr (EVR_WIN w) (r.getD w 0) d) d1)

/-- EVR_CTRL SET_AUTH: the value is stored once (R523). -/
def setAuth (d : Dev) : Dev :=
  match d.evr.auth with
  | none => wf EVR_STAT EVR_STAT_AUTH_SET 1 (modEvr (fun e => { e with auth := some e.arg }) d)
  | some _ => wf EVR_STAT EVR_STAT_CLR_REJ 1 d

/-- EVR_CTRL CLEAR by a master (R523). -/
def evrClear (host : Bool) (d : Dev) : Dev :=
  let rested := match d.cfg.state with | .empty | .loaded | .incomplete => true | _ => false
  let waited := match d.evr.lastFail with | some t => decide (t + 10000000000 ≤ tbNs d) | none => true
  let rej := wf EVR_STAT EVR_STAT_CLR_REJ 1 d
  match d.evr.auth with
  | none => rej
  | some a =>
    if a ≠ d.evr.arg then bump EVR_STAT EVR_STAT_CLR_FAIL (modEvr (fun e => { e with lastFail := some (tbNs d) }) rej)
    else if host && rested && waited then
      if d.evr.clr.isSome || d.evr.clrRec.isSome then d
      else modEvr (fun e => { e with erasing := true, clr := some ⟨0xFE, 0x3C, [], tbNs d⟩ }) d
    else rej

/-- ERASE_COMPLETE: the erasure that follows the CLEAR record ends. -/
def eraseComplete (d : Dev) : Dev :=
  if d.evr.clr.isSome || d.evr.clrRec.isSome then d else modEvr (fun e => { e with erasing := false }) d

/-- MANUAL: a write to EVR_TRIG (R518). -/
def manual (m : Master) (v : Word) (d : Dev) : Dev := trigger 0xF0 0x3C [v.toNat, m.num] d

/-- EVR_SELj of a draft that R524 refuses: an entry in use that names no register or lies at or above 0x8_0000. -/
def evrBad (d : Dev) : Bool :=
  (List.range 14).any (fun j =>
    let o := rf d (EVR_SEL j) EVR_SEL_OFFSET
    rb d (EVR_SEL j) EVR_SEL_EN && (decide (0x80000 ≤ o) || (findRow o).isNone))

/-- EVR_STAT as it reads. -/
def evrStat (d : Dev) : Word :=
  fset (fset (fset (rd d EVR_STAT) EVR_STAT_COUNT d.evr.store.length) EVR_STAT_QUEUE (evrQueued d.evr)) EVR_STAT_BUSY_ERASE (b2n d.evr.erasing)

end Sys2Proof.Machine
end

