-- ==== Sys2Proof/Machine/Pwr.lean ====
section
/-! DEFINITION. Power states, wake-up and temperature (spec/17, R506..R517). -/
namespace Sys2Proof.Machine
open Sys2Proof Sys2Proof.Reg

def modPwr (f : PwrUnit → PwrUnit) (d : Dev) : Dev := { d with pwr := f d.pwr }

/-- The number of a power state: 0 GALE, 1 BREEZE, 2 LULL, 3 CALM. -/
def stateNum : PwrState → Nat
  | .gale => 0
  | .breeze => 1
  | .lull => 2
  | .calm => 3
  | .shutdown | .held => 0

def stateOf (n : Nat) : PwrState := if n = 1 then .breeze else if n = 2 then .lull else if n = 3 then .calm else .gale

/-! ### Requests (R508, R509) -/

/-- Does a COMMAND ring hold a descriptor that has not completed, or does a ring drain or flush? -/
def ringBusy (d : Dev) : Bool :=
  (List.range 64).any (fun r =>
    ringState d r == ringDraining || ringState d r == ringFlushing ||
    (ringState d r != ringDisabled && ringSource d r == 0 &&
      ((getRing d r).q.any (fun e => e.done.isNone) || rf d (HIF_RING_IDX r) HIF_RING_IDX_SQ_HEAD != rf d (HIF_RING_DBV r) HIF_RING_DBV_SQ_TAIL)))

/-- Is an enabled wake source valid for a target (R511; the sources that have an enable bit)? -/
def wakeFits (d : Dev) (target : Nat) : Bool :=
  rb d PWR_WAKE_CFG PWR_WAKE_CFG_WAKE_IN_EN || (rb d PWR_WAKE_CFG PWR_WAKE_CFG_ALARM_EN && decide (target ≤ 2)) ||
  (rb d PWR_WAKE_CFG PWR_WAKE_CFG_DOORBELL_EN && decide (target = 1))

/-- The exit latency in µs (R512). -/
def exitUs (target : Nat) : Nat := if target = 1 then 8 else if target = 2 then 4000 else 30000

/-- The code with which entry to a target is refused, 0 for none. -/
def entryRefused (d : Dev) (target : Nat) : Nat :=
  if cfgActive d then 2
  else if 2 ≤ target ∧ rf d SAF_STAT ⟨15, 8⟩ ≠ 0 then 3
  else if ringBusy d then 4
  else if !wakeFits d target then 5
  else if target ≤ stateNum d.pwr.state ∨ d.pwr.entry.isSome then 7
  else 0

def pwrRefuse (code : Nat) (d : Dev) : Dev := wf PWR_STAT PWR_STAT_REJ_CODE code (wf PWR_STAT PWR_STAT_REJ 1 d)

/-- The operating time written to MRAM (R515). -/
def opSave (d : Dev) : Dev := modPwr (fun p => { p with opSecStored := opSec d }) d

/-- An accepted request: BUSY, the POWER record, for LULL and CALM the operating time stored (R510). -/
def pwrAccept (target : Nat) (d : Dev) : Dev :=
  let d1 := trigger 0x06 0x01 [stateNum d.pwr.state, target] (wf PWR_STAT PWR_STAT_BUSY 1 (modPwr (fun p => { p with entry := some (stateOf target) }) d))
  if 2 ≤ target then opSave d1 else d1

/-- PWR_CTRL REQUEST. -/
def pwrRequest (v : Word) (d : Dev) : Dev :=
  let target := fget v PWR_CTRL_TARGET
  if fget v PWR_CTRL_KEY ≠ 0x3C96 then pwrRefuse 1 d
  else if target = 0 then
    match [3, 2, 1].find? (fun t => decide (exitUs t ≤ (rd d PWR_WAKE_TOL).toNat) && entryRefused d t == 0) with
    | some t => pwrAccept t d
    | none => pwrRefuse 6 d
  else
    let c := entryRefused d target
    if c = 0 then pwrAccept target d else pwrRefuse c d

/-! ### Entry and exit (R510..R514) -/

/-- LOW_POWER_ENTRY: the accepted entry, once the recorder's queue is empty and, for LULL and CALM, the link is in L2/L3 Ready (`l23`: it
has reached it) or down or PERST_N is low. -/
def lowPowerEntry (l23 : Bool) (d : Dev) : Dev :=
  let idle := d.evr.wait.isEmpty && d.evr.queue.isEmpty && d.evr.clr.isNone && d.evr.clrRec.isNone
  let linkOff := l23 || d.sys.perstLow || !rb d HIF_LINK HIF_LINK_UP || rf d HIF_LINK HIF_LINK_PM == 4
  match d.pwr.entry with
  | some .breeze =>
    if idle then
      wf PWR_STAT PWR_STAT_STATE 1 (wf PWR_STAT PWR_STAT_BUSY 0 (modPwr (fun p => { p with state := .breeze, entry := none }) (accrueAll d)))
    else d
  | some s =>
    if idle && linkOff then
      modPwr (fun p => { p with
          state := s, entry := none, keeperOn := s == .lull, keeper := if s = .lull then tbNs d * nsUnits else 0 })
        { (if l23 then wf HIF_LINK HIF_LINK_PM 4 d else d) with sys := { d.sys with rstoutHigh := false } }
    else if l23 then wf HIF_LINK HIF_LINK_PM 4 d else d
  | none => d

/-- BREEZE ends: every block is clocked again with its kept state; doorbells stored meanwhile are acted on (R511). -/
def breezeExit (cause : Nat) (d : Dev) : Dev :=
  let bells := d.pwr.storedBells
  let d1 := modPwr (fun p => { p with state := .gale, storedBells := [] })
    { d with sch := { d.sch with cores := d.sch.cores.map (fun e => (e.1, { e.2 with since := d.tb })) } }
  let d2 := wf PWR_STAT PWR_STAT_STATE 0 (wf PWR_STAT PWR_STAT_LAST_LOW 1 (wf PWR_STAT PWR_STAT_WAKE_CAUSE cause d1))
  forEach bells (fun b d => doorbell b.1 b.2.1 b.2.2 d) d2

/-- Exit from LULL or CALM: a power-on reset with the kept BOOTSEL (R513). -/
def deepExit (cause : Nat) (d : Dev) : Dev :=
  let d1 := powerOnReset cause (lowNum d) false d
  modPwr (fun p => { p with heldWake := none, wakeNLow := rb d PWR_WAKE_CFG PWR_WAKE_CFG_WAKE_N_EN }) d1

/-- A wake event of this cause; from LULL and CALM it is held while a rail that GALE needs is out of tolerance (R512). -/
def wake (cause : Nat) (railsOk : Bool) (d : Dev) : Dev :=
  match d.pwr.state with
  | .breeze => breezeExit cause d
  | .lull | .calm =>
    let c := d.pwr.heldWake.getD cause
    if railsOk then deepExit c d else modPwr (fun p => { p with heldWake := some c }) d
  | _ => d

/-- WAKE_IN: the comparator trips; the coarse time keeper has counted `lfxo` periods since the last event that told it. -/
def wakeIn (railsOk : Bool) (lfxo : Nat) (d : Dev) : Dev :=
  if rb d PWR_WAKE_CFG PWR_WAKE_CFG_WAKE_IN_EN then
    wake 2 railsOk (if d.pwr.keeperOn then modPwr (fun p => { p with keeper := p.keeper + lfxo * 131072000000000 }) d else d)
  else d

/-- The coarse time keeper at its first step that reaches the alarm (R514). -/
def keeperAlarm (d : Dev) : Dev :=
  let t := rd64 d PWR_ALARM_LO PWR_ALARM_HI * nsUnits
  modPwr (fun p => { p with keeper := p.keeper + max 1 ((t - p.keeper + 131071999999999) / 131072000000000) * 131072000000000 }) d

/-- ALARM: TB ns or, in LULL, the coarse time keeper reaches PWR_ALARM; CALM knows no alarm. -/
def alarm (railsOk : Bool) (d : Dev) : Dev :=
  if !rb d PWR_WAKE_CFG PWR_WAKE_CFG_ALARM_EN then d
  else match d.pwr.state with
    | .breeze => wake 3 railsOk (clockTo (rd64 d PWR_ALARM_LO PWR_ALARM_HI * nsUnits) d)
    | .lull => wake 3 railsOk (keeperAlarm d)
    | _ => d

/-- EXIT of PWR_CTRL. -/
def pwrExit (d : Dev) : Dev := match d.pwr.state with | .breeze => breezeExit 6 d | _ => d

/-- A write to PWR_CTRL. -/
def pwrCtrl (v : Word) (d : Dev) : Dev :=
  if fget v PWR_CTRL_CMD = 1 then pwrRequest v d else if fget v PWR_CTRL_CMD = 2 then pwrExit d else d

/-- OSCILLATOR_LOCK; a wake event that was held for a rail goes on first (R512). -/
def oscillatorLock (lfxo : Nat) (d : Dev) : Dev :=
  let held := match d.pwr.state with | .lull | .calm => d.pwr.heldWake | _ => none
  match d.pwr.state, held with
  | .gale, _ => oscLock lfxo d
  | .breeze, _ => d
  | _, some c => oscLock lfxo (deepExit c d)
  | _, none => d

/-- Does BREEZE stop the block at a BAR0 offset: all but SYS, PWR, HIF, TB, NET, the safety mirror and the recorder (R506)? -/
def breezeStops (off : Nat) : Bool :=
  !(decide (off < 0x2000) || decide (0x4000 ≤ off ∧ off < 0xC000) || decide (0x38000 ≤ off ∧ off < 0x3A000) || decide (0x3C000 ≤ off ∧ off < 0x3E000))

/-- A host access to an offset: one to a stopped block wakes the device (R511). -/
def hostTouches (off : Nat) (d : Dev) : Dev :=
  match d.pwr.state with
  | .breeze => if breezeStops off then breezeExit 5 d else d
  | _ => d

/-- The device once a master has reached for an offset: the host's access to a block that BREEZE stops wakes it (R511). -/
def touched (m : Master) (off : Nat) (d : Dev) : Dev := match m with | .host => hostTouches off d | _ => d

/-- A doorbell write to BAR2: in BREEZE it wakes the device, or is stored for the next exit (R511). -/
def bell (r : Nat) (cqHead : Bool) (v : Word) (d : Dev) : Dev :=
  match d.pwr.state with
  | .breeze =>
    if rb d PWR_WAKE_CFG PWR_WAKE_CFG_DOORBELL_EN then doorbell r cqHead v (breezeExit 4 d)
    else modPwr (fun p => { p with storedBells := p.storedBells ++ [(r, cqHead, v)] }) d
  | _ => doorbell r cqHead v d

/-! ### Temperature (R516, R517) -/

/-- The hottest sensor (the lowest-numbered of equals) and its reading in 1/8 °C. -/
def hottestOf (ts : List Int) : Nat × Int :=
  ((List.range 8).map (fun k => (k, ts.getD k 0))).foldl (fun b e => if b.2 < e.2 then e else b) (0, ts.getD 0 0)

/-- A threshold flag with its event flag and record: set at or above the limit, cleared 5 °C below it. -/
def thermFlag (what limit : Nat) (f evt : Fld) (k : Nat) (t : Int) (d : Dev) : Dev × Bool :=
  let on := rb d PWR_THERM_STAT f
  if !on && decide ((limit * 8 : Nat) ≤ t) then
    (trigger 0x07 0x01 [what, k, ofInt 16 t] (wf PWR_THERM_STAT evt 1 (wf PWR_THERM_STAT f 1 d)), true)
  else if on && decide (t < (limit * 8 : Nat) - 40) then (wf PWR_THERM_STAT f 0 d, false)
  else (d, false)

/-- Thermal shutdown: the recorder writes what it holds, the device holds itself in reset (R517). -/
def thermShutdown (read : Dev → Nat → Word) (k : Nat) (t : Int) (d : Dev) : Dev :=
  let d1 := trigger 0x07 0x01 [2, k, ofInt 16 t] d
  let d2 := evrTake (!tbRuns d1) (tickNum d1) (evrCopies read d1) d1
  let d3 := forUpTo (d2.evr.queue.length + 1) (fun _ d => recordWrite d) d2
  modPwr (fun p => { p with state := .shutdown, entry := none }) { d3 with sys := { d3.sys with rstoutHigh := false } }

/-- TEMPERATURE_READING: the eight sensors in 1/8 °C. -/
def tempReading (read : Dev → Nat → Word) (ts : List Int) (d : Dev) : Dev :=
  let (k, t) := hottestOf ts
  let d1 := forUpTo 8 (fun i d => wr (PWR_TEMP i) (BitVec.ofNat 32 (2147483648 + ofInt 16 (ts.getD i 0))) d) d
  let d2 := wf PWR_THERM_STAT PWR_THERM_STAT_HOT_SENSOR k (wf PWR_THERM_STAT PWR_THERM_STAT_HOT (ofInt 16 t) d1)
  let (d3, _) := thermFlag 0 (rf d2 PWR_THERM_CFG PWR_THERM_CFG_WARN) PWR_THERM_STAT_WARN PWR_THERM_STAT_WARN_EVT k t d2
  let (d4, rose) := thermFlag 1 (rf d3 PWR_THERM_CFG PWR_THERM_CFG_CRIT) PWR_THERM_STAT_CRIT PWR_THERM_STAT_CRIT_EVT k t d3
  let d5 := if rose && rb d4 PWR_THERM_CFG PWR_THERM_CFG_CRIT_STOP then stopHostIssue 2 1 0xFE (ownHier d4) d4 else d4
  let runs := (List.range 8).map (fun i => if 1200 ≤ ts.getD i 0 then d.pwr.hotRuns.getD i 0 + 1 else 0)
  let d6 := modPwr (fun p => { p with hotRuns := runs }) d5
  match (List.range 8).find? (fun i => decide (3 ≤ runs.getD i 0)) with
  | some i => thermShutdown read i (ts.getD i 0) d6
  | none => d6

/-- THERMAL_SHUTDOWN_RELEASE: every sensor below 130 °C. -/
def thermRelease (ts : List Int) (d : Dev) : Dev :=
  match d.pwr.state with
  | .shutdown =>
    if ts.all (fun t => decide (t < 1040)) then
      wf PWR_THERM_STAT PWR_THERM_STAT_SHDN_EVT 1
        (powerOnReset (rf d PWR_STAT PWR_STAT_WAKE_CAUSE) (rf d PWR_STAT PWR_STAT_LAST_LOW) false d)
    else d
  | _ => d

end Sys2Proof.Machine
end

