-- ==== Sys2Proof/Machine/Mfp.lean ====
section
/-! DEFINITION. The multi-function pins (spec/02, R73..R86; R101): functions of pins, pad levels, GPIO, bank supplies, the pin plan. -/
namespace Sys2Proof.Machine
open Sys2Proof Sys2Proof.Reg

/-- The function index of a signal (R97); PWM_FLTg has none (R79). -/
def sigFn : PinSig → Option Nat
  | .fb k _ => some k
  | .stp j _ => some (fnStp j)
  | .emu e _ => some (fnEmu e)
  | .pwm p _ => some (fnPwm p)
  | .flt _ => none
  | .pulse k => some (fnPulse k)
  | .cap k => some (fnCap k)
  | .pbt b => some (fnBar b)

/-- Does pin n behave as OFF (R75, R77)? -/
def pinOff (d : Dev) (n : Nat) : Bool := pinFsel d n != 1 && (pinConn d n).isNone

/-- The two functions that own the fields of MFP_PINn for a write of `v` (R79): armed, or for PWM_FLTg the configuration active. -/
def pinLocked (d : Dev) (n : Nat) (v : Word) : Bool :=
  let locks (s : Option PinSig) : Bool :=
    match s with
    | none => false
    | some s => match sigFn s with | some x => armedFn d x | none => cfgActive d
  locks (pinSel d n) || locks (pinSig n (fget v MFP_PIN_FSEL))

/-! ### Pad levels (R80, R84, R101) -/

/-- The level of SSI_CLK of interface k (R258): idle high; in a frame T/2 low and T/2 high, N + 1 times. -/
def ssiClk (d : Dev) (k : Nat) : Bool :=
  let x := rawFbk d k
  let t := (d.tb - x.t0) / nsUnits
  !(x.busy && decide (t / ssiT d k ≤ ssiN d k) && decide (t % ssiT d k < ssiT d k / 2))

/-- The level of PBTb (R233): high during a committed pulse; on a shadow only with SHADOW_FIRE, never after DEMOTED (R495, R501). -/
def pbtLevel (d : Dev) (b : Nat) : Bool :=
  let x := getBar d b
  let ps := d.tb * 1000 / nsUnits
  x.pulses.any (fun p => decide (p.1 ≤ ps ∧ ps < p.2)) &&
  (!twnIncluded d || (!d.twn.demoted && (decide (twnRole d < 2) || rb d TWN_CFG TWN_CFG_SHADOW_FIRE)))

/-- The level that a function drives on its signal; none for an input or an undriven pin. -/
def sigLevel (d : Dev) : PinSig → Option Bool
  | .fb k sig => if sig = 0 ∧ fbkMode d k = 3 then some (ssiClk d k) else none
  | .stp j sig =>
    let s := getStp d j
    let (p, q) := if sig < 2 then bridge d j s.a else bridge d j s.b
    some (if sig % 2 = 0 then p else q)
  | .emu e sig =>
    let q := (getEmu d e).ab
    some (if sig = 0 then q == 1 || q == 2 else if sig = 1 then decide (2 ≤ q) else emuZ d e)
  | .pwm p b =>
    if b && rb d (PWM_CFG p) PWM_CFG_A_ONLY || pwmHighZ d p then none
    else
      let x := getPwm d p
      some ((if b then x.b else x.a) == rb d (PWM_CFG p) (if b then PWM_CFG_ACT_B else PWM_CFG_ACT_A))
  | .flt _ => none
  | .pulse k => some (getPulse d k).high
  | .cap _ => none
  | .pbt b => some (pbtLevel d b)

/-- Is a configuration ARMED or DISARMING (R84)? -/
def cfgHeld (d : Dev) : Bool := match d.cfg.state with | .armed | .disarming => true | _ => false

/-- The level that the selected function asks for at pin n: GPIO while armed, OWN_PIN by the twin link (R84, R101, R495). -/
def fnLevel (d : Dev) (n : Nat) : Option Bool :=
  if pinFsel d n = 1 then
    if !cfgHeld d then none
    else if twnIncluded d && rf d TWN_CFG TWN_CFG_OWN_PIN == n then some d.twn.ownPin
    else if bitOf (rd d (MFP_GPIO_OE (n / 32))) (n % 32) then some (bitOf (rd d (MFP_GPIO_DOUT (n / 32))) (n % 32))
    else none
  else match pinConn d n with
    | none => none
    | some s =>
      match sigFn s with
      | none => none
      | some x =>
        match (getFn d x).state with
        | .off | .ready => none
        | _ => sigLevel d s

/-- The level that the device drives on pad n; none for high impedance (R71, R75, R80, R86). -/
def padDrive (d : Dev) (n : Nat) : Option Bool :=
  if !clocked d || d.mfp.held.contains n || (match smGet d.mfp.hiz n with | some t => decide (d.tb < t) | none => false) then none
  else match fnLevel d n with
    | none => none
    | some l =>
      let p := l != rb d (MFP_PIN n) MFP_PIN_INV
      if p && rb d (MFP_PIN n) MFP_PIN_OD then none else some p

/-- The level of pad n behind its filter; the device's own level is shown at once (log entry 23). -/
def padLevel (d : Dev) (n : Nat) : Bool :=
  match padDrive d n with
  | some l => l
  | none => padIn d n

/-- Pad n is driven from outside, or no longer, since TB time `since`. -/
def padDriven (n : Nat) (l : Option Bool) (since : Nat) (d : Dev) : Dev :=
  if 288 ≤ n then d
  else
    let p := getPad d n
    modMfp (fun u => { u with pads := smPut u.pads n { raw := l, since := min since d.tb, was := padLevel d n, last := l.getD p.last } }) d

/-- What the pads show from outside when they are looked at: pin, level, TB ns since which it has been so. -/
def padsSeen (xs : List (Nat × Option Bool × Nat)) (d : Dev) : Dev :=
  fltSync (forEach xs (fun x d => padDriven x.1 x.2.1 (x.2.2 * nsUnits) d) d)

/-- The level of the input signal that pin n carries, behind its filter and INV; none where the signal is not available there: FSEL
selects something else, or the signal connects to a lower-numbered pin (R74, R75, R77). -/
def pinInside (d : Dev) (n : Nat) (sig : PinSig) (l : Bool) : Option Bool :=
  if pinConn d n = some sig then some (l != rb d (MFP_PIN n) MFP_PIN_INV) else none

/-- A level at pad n that begins at the present instant and lasts `hold` ns: the pin's filter removes a shorter one (R81); the pad keeps
one that lasts, and the signal that the pin carries shows it inside once the filter's delay has passed. -/
def pinInput (n : Nat) (sig : PinSig) (l : Bool) (hold : Nat) (d : Dev) : Dev × Option Bool :=
  if hold * nsUnits < pinFilt d n then (d, none) else (padDriven n (some l) d.tb d, pinInside d n sig l)

/-- CAPTURE_EDGE at TB_CAPk's pin at TB ns t: it reaches the capture behind the pin's filter and the two cycles of the synchroniser
(R81, R179). -/
def captureInput (k : Nat) (rise : Bool) (t hold : Nat) (d : Dev) : Dev :=
  let (d1, x) := pinInput (252 + k) (.cap k) rise hold (clockToNs t d)
  match x with
  | some l => capEdge k l (clockTo (d1.tb + pinFilt d1 (252 + k) + 2 * effAddend d1) d1)
  | none => d1

/-- MFP_PINn as it reads. -/
def pinRead (d : Dev) (n : Nat) : Word := fset (rd d (MFP_PIN n)) MFP_PIN_LEVEL (b2n (!pinOff d n && padLevel d n))

/-- MFP_GPIO_DIN_b as it reads (R83). -/
def dinRead (d : Dev) (b : Nat) : Word :=
  (List.range 32).foldl (fun w i =>
    let n := 32 * b + i
    if pinFsel d n = 1 && (padLevel d n != rb d (MFP_PIN n) MFP_PIN_INV) then w ||| fmask i i else w) 0

/-- MFP_PINn takes a value (R77, R80); the locks of R79 have let it pass. -/
def pinWrite (n : Nat) (v : Word) (d : Dev) : Dev :=
  let changed := pinFsel d n != fget v MFP_PIN_FSEL
  let d1 := wr (MFP_PIN n) (v &&& 0xFFF7#32) d
  let d2 := if changed then modMfp (fun u => { u with hiz := smPut u.hiz n (edgeAt d (d.tb + 1)) }) d1 else d1
  match (pinRivals d2 n).reverse with
  | [] => d2
  | m :: _ => if changed then wf MFP_STAT MFP_STAT_CONFLICT_PIN (max m n) (wf MFP_STAT MFP_STAT_CONFLICT 1 d2) else d2

/-! ### Bank supplies (R85, R86, R527) -/

def bankExp (d : Dev) (b : Nat) : Nat := rf d MFP_BANK_CFG ⟨2 * b + 1, 2 * b⟩
def bankLevel (d : Dev) (b : Nat) : Nat := rf d MFP_BANK_STAT ⟨2 * b + 1, 2 * b⟩

/-- The functions that have a pin selected in bank b; a PWM_FLTg pin counts for none (R79, R85; DESIGN CHOICE, log entry 231). -/
def bankFns (d : Dev) (b : Nat) : List Nat := (List.range 32).filterMap (fun i => (pinSel d (32 * b + i)).bind sigFn)

/-- The fault reaction of a function whose bank supply is lost, at once: a stepper's bridges go off (R86, R98, R306). -/
def supplyReact (x : Nat) (d : Dev) : Dev :=
  let d1 := detectFault x 1 d
  if 0x80 ≤ x ∧ x < 0xA0 then stpOff (x - 0x80) d1 else d1

/-- Pins whose hold ends (R86): the level has returned, and the function has left FAULTED or, for a GPIO, no configuration is active. -/
def pinsBack (d : Dev) : Dev :=
  modMfp (fun u => { u with held := u.held.filter (fun n =>
    bankLevel d (n / 32) != bankExp d (n / 32) ||
    (match (pinSel d n).bind sigFn with
     | some x => fnIs d x .faulted || faultWaits d x
     | none => cfgActive d)) }) d

/-- LEVELb of a voltage (mV) by the nominal ranges of R527. -/
def levelOf (mv : Nat) : Nat :=
  if mv < 500 then 0 else if 1620 ≤ mv ∧ mv ≤ 1980 then 1 else if 2970 ≤ mv ∧ mv ≤ 3630 then 2 else 3

/-- Does a voltage lie within the range of a level widened by 30 mV beyond each of its bounds (R527)? -/
def levelHolds (was mv : Nat) : Bool :=
  if was = 0 then decide (mv < 530)
  else if was = 1 then decide (1590 ≤ mv ∧ mv ≤ 2010)
  else if was = 2 then decide (2940 ≤ mv ∧ mv ≤ 3660)
  else decide (470 ≤ mv ∧ mv ≤ 1650) || decide (1950 ≤ mv ∧ mv ≤ 3000) || decide (3600 ≤ mv)

/-- LEVELb once a voltage has stood for 1 µs (R527). -/
def levelAfter (was mv : Nat) : Nat := if levelHolds was mv then was else levelOf mv

/-- VDDIO_LEVEL_CHANGE: LEVELb takes a level; a departure from a non-zero EXPb is a supply loss. -/
def vddio (b mv : Nat) (d : Dev) : Dev :=
  if 9 ≤ b then d
  else
    let was := bankLevel d b
    let level := levelAfter was mv
    let e := bankExp d b
    let d1 := wf MFP_BANK_STAT ⟨2 * b + 1, 2 * b⟩ level d
    if (e = 1 ∨ e = 2) ∧ was = e ∧ level % 4 ≠ e then
      let d2 := wf MFP_STAT MFP_STAT_MISMATCH 1 (wf MFP_BANK_STAT ⟨18 + b, 18 + b⟩ 1 d1)
      let d3 := forEach ((bankFns d2 b).filter (armedFn d2)) supplyReact
        (modMfp (fun u => { u with held := (u.held.filter (fun n => n / 32 != b)) ++ (List.range 32).map (fun i => 32 * b + i) }) d2)
      trigger 0x04 0x3E [b, (rd d3 MFP_BANK_STAT).toNat] d3
    else pinsBack d1

/-- Is the bank of function x's pins at the level that EXPb names: has the cause of PIN_SUPPLY gone? -/
def supplyOk (d : Dev) (x : Nat) : Bool :=
  (List.range 9).all (fun b => !((bankFns d b).contains x) || bankLevel d b == bankExp d b)

/-! ### The pin plan (R75, R76, R78, R85) -/

/-- The pins that a function needs and the FSEL that selects it (R76). -/
def pinsOf (d : Dev) (x : Nat) : Nat × List Nat :=
  if x < 0x30 then (2, if fbkMode d x = 0 ∨ fbkMode d x = 2 then [3 * x, 3 * x + 1, 3 * x + 2] else [3 * x, 3 * x + 1])
  else if x < 0x38 then
    let e := x - 0x30
    (3, [128 + 3 * e, 129 + 3 * e] ++ (if rf d (EMU_CFG e) EMU_CFG_Z_MODE = 0 then [] else [130 + 3 * e]))
  else if 0x80 ≤ x ∧ x < 0xA0 then (3, (List.range 4).map (fun i => 4 * (x - 0x80) + i))
  else if 0xA0 ≤ x ∧ x < 0xD0 then
    let p := x - 0xA0
    (2, [144 + 2 * p] ++ (if rb d (PWM_CFG p) PWM_CFG_A_ONLY then [] else [145 + 2 * p]))
  else if 0xE0 ≤ x ∧ x < 0x100 then (2, [256 + (x - 0xE0)])
  else if 0x520 ≤ x ∧ x < 0x524 then (2, [248 + (x - 0x520)])
  else if 0x524 ≤ x ∧ x < 0x528 then (2, [252 + (x - 0x524)])
  else (2, [])

/-- The failures of the pin plan for the included functions: INFO values of PIN_PLAN. -/
def pinPlan (d : Dev) (incl : List Nat) : List Nat :=
  ((List.range 288).filterMap (fun n => if 2 ≤ pinFsel d n ∧ (pinSel d n).isNone then some (MFP_PIN n) else none)).take 1 ++
  incl.filter (fun x =>
    let (fsel, pins) := pinsOf d x
    pins.any (fun n => pinFsel d n != fsel || !(pinRivals d n).isEmpty) ||
    (decide (0xE0 ≤ x ∧ x < 0x100) && rb d (MFP_PIN (256 + (x - 0xE0))) MFP_PIN_SLEW))

/-- Does a bank break R85? -/
def bankBad (d : Dev) : Bool :=
  (List.range 9).any (fun b =>
    let e := bankExp d b
    if e = 1 ∨ e = 2 then bankLevel d b != e else (List.range 32).any (fun i => pinFsel d (32 * b + i) != 0))

end Sys2Proof.Machine
end

