-- ==== Sys2Proof/Machine/Check.lean ====
section
/-! DEFINITION. The checks of ARM and of a swap REQUEST (R112, R113, R117) and the rules of the chapters behind them. Every check
reads the registers of a view: the draft banks, with the live banks of the classes that a swap leaves out. A failure is a pair of the
code of R112 and its INFO. -/
namespace Sys2Proof.Machine
open Sys2Proof Sys2Proof.Reg

/-! ### The view -/

/-- The view of a swap of the classes in `mask`: drafts of these classes, live values of the others (R117). -/
def swapView (mask : Nat) (d : Dev) : Dev :=
  let keys := (smKeys d.regs ++ smKeys d.live).filter (fun o => mask / 2 ^ classOf o % 2 == 0)
  let d1 := keys.foldl (fun e o =>
    let m := rwdMask o
    if m = 0 then e else wr o ((rd d o &&& ~~~m) ||| (liveRaw d o &&& m)) e) d
  if mask / 8 % 2 = 1 then d1
  else { d1 with scn := { d1.scn with prog := d.scn.progL, ini := d.scn.iniL, tpre := d.scn.tpreL, cpre := d.scn.cpreL } }

/-- The included functions, ascending. -/
def inclFns (d : Dev) : List Nat := (d.fns.filter (fun e => e.2.included)).map (·.1)

def incl (d : Dev) (x : Nat) : Bool := (getFn d x).included

/-- The included ones of n functions from an index on, by their number in the unit. -/
def inclOf (d : Dev) (base n : Nat) : List Nat := ((inclFns d).filter (fun x => decide (base ≤ x ∧ x < base + n))).map (· - base)

def refTo (bad : Bool) (info : Nat) : List (Nat × Nat) := if bad then [(0x0D, info)] else []
def blockIf (bad : Bool) (base : Nat) : List (Nat × Nat) := if bad then [(0x12, base)] else []

/-! ### Network (R184 and the EN rule of its registers) -/

/-- The bytes that a Celivo frame with a payload takes on the wire, with 20 of preamble and gap. -/
def celWire (d : Dev) (payload : Nat) : Nat :=
  let tag := if rb d NET_CELIVO_CFG NET_CELIVO_CFG_VLAN_EN then 4 else 0
  18 + tag + max 46 (16 + payload) + 20

/-- The device's own Celivo traffic in the tick with the most frames, ns (R184). -/
def celTraffic (d : Dev) : Nat :=
  let mp := ((List.range 4).filter (fun c => rb d (NET_MPTX c) NET_MPTX_EN)).length
  let sp := ((List.range 64).filter (fun i => rb d (NET_SPT_MAC_HI i) NET_SPT_MAC_HI_EN)).length
  8 * (mp * celWire d 48 + celWire d 112 + sp * celWire d 32)

/-- The open time of class c in the tick of the gate cycle in which it is shortest, in TB time units (DEDUCED, log entry 24). -/
def gateOpenTime (d : Dev) (p c : Nat) : Nat :=
  let segs := gateSegs 0 (upToLast ((List.range 16).map (fun e => rd d (gclOff p e))))
  let cyc := 2 ^ satNat 2 (rf d (NET_PORT_CFG p) NET_PORT_CFG_CYC_LOG2)
  let P := tickP d
  let ends := (segs.map (·.1)).drop 1 ++ [cyc * P]
  let spans := segs.zip ends
  let open_ (k : Nat) : Nat := spans.foldl (fun acc e =>
    if e.1.2 / 2 ^ c % 2 = 1 then acc + (min e.2 ((k + 1) * P) - max e.1.1 (k * P)) else acc) 0
  (List.range cyc).foldl (fun m k => min m (open_ k)) P

def netChecks (d : Dev) : List (Nat × Nat) :=
  if !rb d NET_CELIVO_CFG NET_CELIVO_CFG_EN then []
  else
    let t := celTraffic d * nsUnits
    let full := (List.range 3).any (fun p => portLine d p &&
      (if rb d (NET_PORT_CFG p) NET_PORT_CFG_GATE_EN then decide (gateOpenTime d p (rf d NET_CELIVO_CFG NET_CELIVO_CFG_TC) < t)
       else decide (tickP d / 2 < t)))
    blockIf (full || ownMac d == 0) 0xA000

/-! ### Web phase unit (R209, R231, R256) -/

/-- A source of channel c: kind 1 an included interface in quadrature mode, kind 2 an enabled subscription. -/
def chanSrcChecks (d : Dev) (c : Nat) (b : Bool) : List (Nat × Nat) :=
  let k := srcIdx d c b
  match srcKind d c b with
  | 1 => refTo (decide (48 ≤ k) || !incl d k) (fnChan c) ++ blockIf (decide (k < 48) && decide (2 ≤ fbkMode d k)) 0x10000 ++
    blockIf (decide (k < 48) && rf d (FBK_IDX_CFG k) FBK_IDX_CFG_IDX_MODE == 2) 0x18000
  | 2 => refTo (decide (16 ≤ k) || !rb d (NET_RXS_CFG k) NET_RXS_CFG_EN) (fnChan c)
  | _ => []

def wpuChecks (d : Dev) : List (Nat × Nat) :=
  (inclOf d 0xD0 4).flatMap (fun c =>
    chanSrcChecks d c false ++ chanSrcChecks d c true ++
    blockIf (decide (scaleQ d c < 4294967296 ∨ 65535 * 4294967296 < scaleQ d c)) 0x10000) ++
  (inclOf d 0xE0 32).flatMap (fun b =>
    let pitch := rd64 d (WPU_BAR_PITCH_LO b) (WPU_BAR_PITCH_HI b)
    let width := rf d (WPU_BAR_CFG b) WPU_BAR_CFG_WIDTH
    let skew := (rd d (WPU_BAR_SKEW b)).toInt
    refTo (!incl d (fnChan (barChan d b))) (fnBar b) ++
    blockIf (decide (pitch < 256 * 4294967296 ∨ 16777216 * 4294967296 ≤ pitch) || decide (width < 8 ∨ 480 < width) ||
      decide (skew < -2000000 ∨ 2000000 < skew) || rb d (MFP_PIN (256 + b)) MFP_PIN_SLEW) 0x10000)

/-! ### Feedback and emulation (R254, R259, R264, R266) -/

/-- The conditions of R259 on an SSI interface. -/
def ssiBad (d : Dev) (k : Nat) : Bool :=
  let c := FBK_SSI_CFG k
  let bits := rf d c FBK_SSI_CFG_BITS
  let extra := rf d c FBK_SSI_CFG_EXTRA
  let par := rf d c FBK_SSI_CFG_PARITY
  let rate := rf d c FBK_SSI_CFG_RATE
  let T := ssiT d k
  decide (bits < 8 ∨ 48 < bits) || decide (4 < extra) || (par != 0 && extra == 0) || par == 3 ||
  decide (rf d c FBK_SSI_CFG_CLKDIV < 24) || decide (4 < rate) ||
  decide (64 * rf d (FBK_SSI_TIM k) FBK_SSI_TIM_LEAD < T / 2 + ssiN d k * T + rf d (FBK_SSI_TIM k) FBK_SSI_TIM_DELAY + 8) ||
  decide (tickP d * 2 ^ rate < (4000 * rf d (FBK_SSI_TIM k) FBK_SSI_TIM_TM + T / 2 + ssiN d k * T) * nsUnits)

def fbkChecks (d : Dev) : List (Nat × Nat) :=
  (inclOf d 0 48).flatMap (fun k =>
    blockIf ((fbkMode d k == 3 && ssiBad d k) || (fbkMode d k != 0 && rf d (FBK_IDX_CFG k) FBK_IDX_CFG_IDX_MODE != 0)) 0x18000) ++
  (inclOf d 0x30 8).flatMap (fun e =>
    let src := rf d (EMU_CFG e) EMU_CFG_SRC
    let num := rf d (EMU_RATIO e) EMU_RATIO_NUM
    let z := rf d (EMU_CFG e) EMU_CFG_Z_MODE
    let im := rf d (FBK_IDX_CFG src) FBK_IDX_CFG_IDX_MODE
    refTo (decide (48 ≤ src) || !incl d src) (fnEmu e) ++
    blockIf (num == 0 || decide (rf d (EMU_RATIO e) EMU_RATIO_DEN < num) || (z == 1 && (fbkMode d src != 0 || (im != 1 && im != 2))) ||
      (z == 2 && rf d (EMU_ZPER e) EMU_ZPER_ZPER == 0)) 0x18000)

/-! ### Generators, steppers, PWM (R273, R298, R301, R307, R312, R313) -/

def mpgChecks (d : Dev) : List (Nat × Nat) :=
  let ms := inclOf d 0x40 64
  ms.flatMap (fun m =>
    let c := MPG_CFG m
    let mode := rf d c MPG_CFG_MODE
    let out := mpgOut d m
    let j := rf d c MPG_CFG_OUT_IDX
    let vmax := rd64 d (MPG_VMAX_LO m) (MPG_VMAX_HI m)
    let vs := rd64 d (MPG_VSTART_LO m) (MPG_VSTART_HI m)
    let ve := rd64 d (MPG_VSTOP_LO m) (MPG_VSTOP_HI m)
    let v1 := rd64 d (MPG_V1_LO m) (MPG_V1_HI m)
    let zero (lo hi : Nat) : Bool := rd64 d lo hi == 0
    let top := if rf d c MPG_CFG_STEPGEN = 2 then 6250000 else 31250000
    refTo ((out == 1 && !incl d (fnStp j)) || (mode == 2 && !incl d (fnChan (mpgMaster d m))) ||
      (out == 2 && !rb d (NET_SPT_MAC_HI m) NET_SPT_MAC_HI_EN)) (fnMpg m) ++
    blockIf (decide (3 < mode) || decide (2 < out) || vmax == 0 || zero (MPG_AMAX_LO m) (MPG_AMAX_HI m) || zero (MPG_DMAX_LO m) (MPG_DMAX_HI m) ||
      zero (MPG_QDEC_LO m) (MPG_QDEC_HI m) || decide (vmax < vs) || decide (vmax < ve) ||
      (v1 != 0 && (decide (vmax ≤ v1) || decide (v1 < vs) || decide (v1 < ve) || zero (MPG_A1_LO m) (MPG_A1_HI m) || zero (MPG_D1_LO m) (MPG_D1_HI m))) ||
      (out == 1 && (decide (top * 4294967296 < vmax) ||
        ms.any (fun k => k != m && mpgOut d k == 1 && rf d (MPG_CFG k) MPG_CFG_OUT_IDX == j))) ||
      (mode == 2 && (rd d (MPG_GEAR_DEN m)).toNat == 0)) 0x1C000)

/-- Do the coils on converter c have more reserved slots than it can give them: each its own frame of every SENSE_PER, and one before the tick
ends (R301, R352; DEDUCED, log entry 244)? -/
def slotsOver (d : Dev) (c : Nat) : Bool :=
  let coils := coilsOn d c
  coils.any (fun e => decide (rf d (STP_SENSE e.1) STP_SENSE_SENSE_PER < coils.length)) || decide (tickP d / convNs < 1 + coils.length ∧ coils ≠ [])

def stpChecks (d : Dev) : List (Nat × Nat) :=
  let js := inclOf d 0x80 32
  js.flatMap (fun j =>
    let a := rf d (STP_SENSE j) STP_SENSE_AIN_A
    let b := rf d (STP_SENSE j) STP_SENSE_AIN_B
    let tbl (k : Nat) : Bool := rb d (STP_CFG k) STP_CFG_TABLE_EN
    blockIf (a == b || decide (95 < a) || decide (95 < b) || rf d (STP_SENSE j) STP_SENSE_SENSE_PER == 0 ||
      decide (rf d (STP_CHOP j) STP_CHOP_OFF_LEN < 16) || decide (rf d (STP_CHOP j) STP_CHOP_OFF_LEN < rf d (STP_CHOP j) STP_CHOP_FAST_LEN) ||
      rf d (STP_CHOP j) STP_CHOP_ON_LIMIT == 0 ||
      (tbl j && js.any (fun k => k != j && tbl k && rf d (STP_CFG k) STP_CFG_TABLE == rf d (STP_CFG j) STP_CFG_TABLE))) 0x20000) ++
  blockIf ((List.range 16).any (slotsOver d)) 0x20000

/-- The shortest possible period of a pair, in cycles (R312). -/
def pwmShortest (d : Dev) (p : Nat) : Nat :=
  let mode := rf d (PWM_CFG p) PWM_CFG_MODE
  let per := rf d (PWM_PER p) PWM_PER_VALUE
  if pwmAlign d p then (if mode = 1 then 2 * pwmNominal d p mode else pwmNominal d p mode)
  else if decide (2 ≤ mode) && rb d (PWM_CFG p) PWM_CFG_CMP_SRC then rf d (PWM_PMIN p) PWM_PMIN_VALUE
  else if mode = 1 then 2 * per else per

def pwmChecks (d : Dev) : List (Nat × Nat) :=
  (inclOf d 0xA0 48).flatMap (fun p =>
    blockIf (decide (3 < rf d (PWM_CFG p) PWM_CFG_MODE) ||
      decide (pwmShortest d p < rf d (PWM_DT p) PWM_DT_DTR + rf d (PWM_DT p) PWM_DT_DTF + 2 * pwmMinp d p + 2)) 0x24000) ++
  blockIf ((List.range 8).any (fun g => rb d (PWM_FLT_CFG g) PWM_FLT_CFG_EN && pinFsel d (240 + g) != 2)) 0x24000

/-! ### Loop engine (R318..R340) -/

/-- The coefficients of slot s. -/
def slotCoefs (s : Nat) : List Nat :=
  [LPE_SLOT_KP s, LPE_SLOT_KI s, LPE_SLOT_KD s, LPE_SLOT_KFF s, LPE_SLOT_KAW s, LPE_SLOT_DFILT s, LPE_SLOT_BIAS s, LPE_SLOT_IMIN s, LPE_SLOT_IMAX s,
   LPE_SLOT_OMIN s, LPE_SLOT_OMAX s, LPE_SLOT_RMAX s, LPE_SLOT_SACC s, LPE_SLOT_KM s, LPE_SLOT_TM s, LPE_SLOT_LM s, LPE_SLOT_BAND s, LPE_SLOT_FE_LIM s]

/-- A number that R326 refuses. -/
def badNum (x : F32) : Bool := !fFinite x || fIsSub x

/-- Is a source word outside the table of R321? -/
def srcBad (w : Word) : Bool :=
  let i := fget w LPE_SLOT_SRC_Y_INDEX
  let f := fget w LPE_SLOT_SRC_Y_FIELD
  match fget w LPE_SLOT_SRC_Y_KIND with
  | 0 | 1 | 2 => f != 0
  | 3 => decide (1 < f ∨ 48 ≤ i)
  | 4 => decide (2 < f ∨ 4 ≤ i)
  | 5 => decide (2 < f ∨ 64 ≤ i)
  | 6 => decide (f ≠ 0 ∨ 96 ≤ i)
  | 7 => decide (f ≠ 0 ∨ 8 ≤ i)
  | 8 => decide (f ≠ 0 ∨ 512 ≤ i)
  | 9 => decide (2 < f ∨ 64 ≤ i)
  | 10 => decide (f ≠ 0 ∨ 256 ≤ i)
  | _ => true

/-- Does a source word name a function that is not included, or a generator with OUT ≠ 0? -/
def srcRef (d : Dev) (w : Word) : Bool :=
  let i := fget w LPE_SLOT_SRC_Y_INDEX
  match fget w LPE_SLOT_SRC_Y_KIND with
  | 2 => !incl d (fnSlot i)
  | 3 => decide (i < 48) && !incl d i
  | 4 => decide (i < 4) && !incl d (fnChan i)
  | 5 => decide (i < 64) && (!incl d (fnMpg i) || mpgOut d i != 0)
  | 8 => decide (i < 512) && !incl d (fnFlk (i / 64))
  | _ => false

/-- The position format of a source: 1 axis position, 2 web position, 0 none (R324). -/
def srcPos (w : Word) : Nat :=
  if fget w LPE_SLOT_SRC_Y_FIELD ≠ 0 then 0
  else match fget w LPE_SLOT_SRC_Y_KIND with
    | 3 | 5 | 9 => 1
    | 4 => 2
    | _ => 0

/-- The cascade rules of R333 broken by slot s. -/
def cascBad (d : Dev) (s : Nat) : Bool :=
  match (inclSlots d).filter (fun k =>
    fget (rd d (LPE_SLOT_SRC_SP k)) LPE_SLOT_SRC_Y_KIND == 2 && fget (rd d (LPE_SLOT_SRC_SP k)) LPE_SLOT_SRC_Y_INDEX == s) with
  | [k] =>
    decide (slotLevel d k ≤ slotLevel d s) || decide (slotRate d s < slotRate d k) ||
    rf d (LPE_SLOT_CFG k) LPE_SLOT_CFG_PHASE != rf d (LPE_SLOT_CFG s) LPE_SLOT_CFG_PHASE % 2 ^ slotRate d k
  | _ => true

/-- The destination of slot s: does it break a rule; is its function not included (R331)? -/
def dstBad (d : Dev) (s : Nat) : Bool × Bool :=
  let w := rd d (LPE_SLOT_DST s)
  let i := fget w LPE_SLOT_DST_INDEX
  match fget w LPE_SLOT_DST_KIND with
  | 0 => (false, false)
  | 1 => (decide (48 ≤ i) || (incl d (fnPwm i) && !rb d (PWM_CFG i) PWM_CFG_CMP_SRC), decide (i < 48) && !incl d (fnPwm i))
  | 2 => (decide (32 ≤ i) || (incl d (fnStp i) && !rb d (STP_CFG i) STP_CFG_AMP_SRC), decide (i < 32) && !incl d (fnStp i))
  | 3 => (decide (32 ≤ i), decide (i < 32) && !incl d (fnBar i))
  | 4 => (decide (512 ≤ i) || (incl d (fnFlk (i / 64)) && ptType d i != 4), decide (i < 512) && !incl d (fnFlk (i / 64)))
  | 5 => (decide (64 ≤ i) || !rb d (NET_SPT_MAC_HI i) NET_SPT_MAC_HI_EN || rf d (NET_SPT_MAC_HI i) NET_SPT_MAC_HI_MODE != 2, false)
  | _ => (true, false)

/-- The checks of one included slot. -/
def slotBad (d : Dev) (s : Nat) : Bool :=
  let c := LPE_SLOT_CFG s
  let f (o : Nat) : F32 := rd d o
  let srcs := [rd d (LPE_SLOT_SRC_SP s), rd d (LPE_SLOT_SRC_Y s), rd d (LPE_SLOT_SRC_FF s)]
  let aw := rf d c LPE_SLOT_CFG_AW_MODE
  let g := LPE_SLOT_GAIN s
  let t := rf d g LPE_SLOT_GAIN_TBL
  let dst := rd d (LPE_SLOT_DST s)
  decide (8 < slotRate d s) || decide (2 ^ slotRate d s ≤ rf d c LPE_SLOT_CFG_PHASE) || srcs.any srcBad ||
  (srcPos (srcs.getD 0 0) != 0 && srcPos (srcs.getD 0 0) == srcPos (srcs.getD 1 0) && !fIsZero (f (LPE_SLOT_RMAX s))) ||
  (slotCoefs s).any (fun o => badNum (f o)) ||
  (rb d g LPE_SLOT_GAIN_GEN && ((List.range 33).any (fun j => badNum (f (LPE_GTBL t j))) || badNum (f (LPE_GTBL_XSPAN t)) ||
    !fGt (f (LPE_GTBL_XSPAN t)) 0)) ||
  aw == 3 || fLt (f (LPE_SLOT_OMAX s)) (f (LPE_SLOT_OMIN s)) || fLt (f (LPE_SLOT_IMAX s)) (f (LPE_SLOT_IMIN s)) ||
  [LPE_SLOT_RMAX s, LPE_SLOT_SACC s, LPE_SLOT_KAW s, LPE_SLOT_BAND s, LPE_SLOT_FE_LIM s, LPE_SLOT_TM s, LPE_SLOT_LM s].any (fun o => fLt (f o) 0) ||
  !fGt (f (LPE_SLOT_DFILT s)) 0 || fLt fOne (f (LPE_SLOT_DFILT s)) || fLt fOne (f (LPE_SLOT_LM s)) ||
  (rb d c LPE_SLOT_CFG_CASC_AW && cascBad d s) ||
  rf d (LPE_SLOT_SUP s) LPE_SLOT_SUP_MODEL == 3 || rf d (LPE_SLOT_SUP s) LPE_SLOT_SUP_ACT == 3 ||
  (dstBad d s).1 || (fget dst LPE_SLOT_DST_KIND != 0 &&
    (inclSlots d).any (fun k => k != s && fget (rd d (LPE_SLOT_DST k)) LPE_SLOT_DST_KIND == fget dst LPE_SLOT_DST_KIND &&
      fget (rd d (LPE_SLOT_DST k)) LPE_SLOT_DST_INDEX == fget dst LPE_SLOT_DST_INDEX))

def lpeChecks (d : Dev) : List (Nat × Nat) :=
  let ss := inclSlots d
  ss.flatMap (fun s =>
    refTo ([rd d (LPE_SLOT_SRC_SP s), rd d (LPE_SLOT_SRC_Y s), rd d (LPE_SLOT_SRC_FF s)].any (srcRef d) || (dstBad d s).2) (fnSlot s)) ++
  blockIf (ss.any (slotBad d) || (List.range 64).any (fun i =>
    rb d (NET_SPT_MAC_HI i) NET_SPT_MAC_HI_EN && rf d (NET_SPT_MAC_HI i) NET_SPT_MAC_HI_MODE == 2 && (slotFor d 5 i).isNone)) 0x28000 ++
  (if perPipe d < worstSteps d then [(0x0C, 0x28000)] else [])

/-! ### Converters and acquisition (R353, R372) -/

def adcChecks (d : Dev) : List (Nat × Nat) :=
  let muxBad (o : Nat) (en : Bool) : Bool := en && decide (6 ≤ (rd d o).toNat % 8)
  let convBad (c : Nat) : Bool :=
    let coils := coilsOn d c
    let pers := coils.map (fun e => rf d (STP_SENSE e.1) STP_SENSE_SENSE_PER)
    let trgOn (e : Nat) : Bool := rb d (ADC_SAR_TRG c e) ADC_SAR_TRG_EN
    muxBad (ADC_SAR_TICK c) (rb d (ADC_SAR_TICK c) ADC_SAR_TICK_EN) ||
    (List.range 4).any (fun e => muxBad (ADC_SAR_TRG c e) (trgOn e) || (trgOn e && (!coils.isEmpty ||
      (rb d (ADC_SAR_TRG c e) ADC_SAR_TRG_EVENT && rf d (PWM_CFG (rf d (ADC_SAR_TRG c e) ADC_SAR_TRG_PAIR)) PWM_CFG_MODE != 1)))) ||
    (List.range 6).any (fun e =>
      let on := rb d (ADC_SAR_BG c e) ADC_SAR_BG_EN
      muxBad (ADC_SAR_BG c e) on || (on && decide (8 < rf d (ADC_SAR_BG c e) ADC_SAR_BG_AVG ∨ 8 < rf d (ADC_SAR_BG c e) ADC_SAR_BG_SHIFT))) ||
    pers.any (fun p => p != pers.headD 0) || decide (pers.headD 0 < coils.length)
  blockIf ((List.range 16).any convBad || (List.range 8).any (fun k =>
    rb d (ADC_SD_CFG k) ADC_SD_CFG_EN && decide (9 < rf d (ADC_SD_CFG k) ADC_SD_CFG_ODR))) 0x2C000 ++
  (List.range 16).flatMap (fun c => (List.range 4).flatMap (fun e =>
    let p := rf d (ADC_SAR_TRG c e) ADC_SAR_TRG_PAIR
    refTo (rb d (ADC_SAR_TRG c e) ADC_SAR_TRG_EN && (decide (48 ≤ p) || !incl d (fnPwm p))) (ADC_SAR_TRG c e)))

/-- Is SAR input n converted by exactly one BG entry with AVG = 0 and SHIFT = 0, and by nothing else (R372)? -/
def markInput (d : Dev) (n : Nat) : Bool :=
  let c := n / 6
  let m := n % 6
  let bg := (List.range 6).filter (fun e => rb d (ADC_SAR_BG c e) ADC_SAR_BG_EN && rf d (ADC_SAR_BG c e) ADC_SAR_BG_MUX == m)
  let tick := rb d (ADC_SAR_TICK c) ADC_SAR_TICK_EN && rf d (ADC_SAR_TICK c) ADC_SAR_TICK_MUX == m
  let trg := (List.range 4).any (fun e => rb d (ADC_SAR_TRG c e) ADC_SAR_TRG_EN && rf d (ADC_SAR_TRG c e) ADC_SAR_TRG_MUX == m)
  let coil := (coilsOn d c).any (fun e => rf d (STP_SENSE e.1) (if e.2 then STP_SENSE_AIN_B else STP_SENSE_AIN_A) == n)
  !tick && !trg && !coil && bg.length == 1 &&
  bg.all (fun e => rf d (ADC_SAR_BG c e) ADC_SAR_BG_AVG == 0 && rf d (ADC_SAR_BG c e) ADC_SAR_BG_SHIFT == 0)

/-- The enabled channels of unit u. -/
def acqChans (d : Dev) (u : Nat) : List Nat := (List.range 16).filter (fun c => rb d (ACQ_CH_CFG u c) ACQ_CH_CFG_EN)

def acqBad (d : Dev) (us : List Nat) (u : Nat) : Bool :=
  let chs := acqChans d u
  let ty (c : Nat) : Nat := rf d (ACQ_CH_CFG u c) ACQ_CH_CFG_TYPE
  let ix (c : Nat) : Nat := rf d (ACQ_CH_CFG u c) ACQ_CH_CFG_INDEX
  let log := rf d (ACQ_CFG u) ACQ_CFG_SIZE_LOG2
  let words := (List.range 8).flatMap (fun j => [rd d (ACQ_S_A u j), rd d (ACQ_S_B u j)])
  chs.any (fun c =>
    decide (5 ≤ ty c) || decide ((ty c = 1 ∧ 96 ≤ ix c) ∨ (ty c = 2 ∧ 8 ≤ ix c) ∨ (ty c = 3 ∧ 48 ≤ ix c) ∨ (ty c = 4 ∧ 4 ≤ ix c)) ||
    (rb d (ACQ_CH_CFG u c) ACQ_CH_CFG_MARK && (ty c != 1 || !markInput d (ix c))) ||
    (ty c != 0 && chs.any (fun e => e != c && ty e == ty c && ix e == ix c))) ||
  decide (log < 12 ∨ 22 < log) || decide (acqBase d u % 2 ^ log ≠ 0) || decide (acqBase d u < 0x30000000 ∨ 0x30400000 < acqBase d u + 2 ^ log) ||
  us.any (fun v => v != u && decide (acqBase d u < acqBase d v + acqSize d v ∧ acqBase d v < acqBase d u + acqSize d u)) ||
  (List.range 2).any (fun w => winOn d u w && ((winPeriod d u w != 0 && decide (winPeriod d u w < winLen d u w)) || winLen d u w == 0)) ||
  words.any (fun w =>
    let k := fget w ACQ_S_A_COND
    let sel := fget w ACQ_S_A_SEL
    decide (11 ≤ k) || ((k == 2 || k == 3) && !(chs.contains sel && (ty sel == 1 || ty sel == 2))))

def acqChecks (d : Dev) : List (Nat × Nat) :=
  let us := inclOf d 0x500 8
  us.flatMap (fun u =>
    refTo ((acqChans d u).any (fun c =>
      let i := rf d (ACQ_CH_CFG u c) ACQ_CH_CFG_INDEX
      match rf d (ACQ_CH_CFG u c) ACQ_CH_CFG_TYPE with
      | 3 => decide (i < 48) && !incl d i
      | 4 => decide (i < 4) && !incl d (fnChan i)
      | _ => false)) (fnAcq u)) ++
  blockIf (us.any (acqBad d us)) 0x2E000

/-! ### Twin link (R493, R497) -/

def twnChecks (d : Dev) : List (Nat × Nat) :=
  if !incl d fnTwn then []
  else
    let budget := 64 * worstSteps d + 24 * (inclOf d 0x40 64).length + 48 * (inclOf d 0xD0 4).length + 16 * (inclOf d 0xE0 32).length + 256
    let pin := rf d TWN_CFG TWN_CFG_OWN_PIN
    blockIf ((inclOf d 0x510 8).isEmpty || decide (288 ≤ pin) || pinFsel d pin != 1 || decide (6 * tickP d < 10 * budget * nsUnits)) 0x3A000

/-! ### All of them (R112, R113) -/

/-- The failure that is reported: the lowest code, and of these the lowest INFO (R112). -/
def lowest : List (Nat × Nat) → Option (Nat × Nat)
  | [] => none
  | e :: t =>
    match lowest t with
    | none => some e
    | some b => if b.1 < e.1 ∨ (b.1 = e.1 ∧ b.2 < e.2) then some b else some e

/-- The checks of the view, the scan program's apart; `arm` adds the readiness of the functions (code 0x0E). -/
def viewChecks (d : Dev) (arm : Bool) : List (Nat × Nat) :=
  let fns := inclFns d
  (pinPlan d fns).map (fun i => (0x0A, i)) ++
  (if bankBad d then [(0x0B, 0x3E000)] else []) ++
  netChecks d ++ wpuChecks d ++ fbkChecks d ++ mpgChecks d ++ stpChecks d ++ pwmChecks d ++ lpeChecks d ++ adcChecks d ++ acqChecks d ++ twnChecks d ++
  blockIf (flkBad d) 0x36000 ++ blockIf (evrBad d) 0x3C000 ++
  (if arm then (fns.filter (fun x => fnIs d x .off || fnIs d x .faulted)).map (fun x => (0x0E, x)) else []) ++
  (match d.cfg.safety with
   | some b => if safAccepts d.saf b then [] else [(0x0F, 0x38000)]
   | none => [])

/-- The checks on a view: SCN_CHECK and the failure, none if all pass. -/
def runChecks (view : Dev) (arm : Bool) (d : Dev) : Dev × Option (Nat × Nat) :=
  let base := viewChecks view arm
  if incl d 0x508 then
    let (v, bad) := scnCheck view
    (wr SCN_CHECK (rd v SCN_CHECK) d, lowest (base ++ blockIf bad 0x34000))
  else (d, lowest base)

end Sys2Proof.Machine
end

