-- ==== Sys2Proof/Machine/Cfg.lean ====
section
/-! DEFINITION. The loader's commands, stage one of a load, arming and the requests of a swap (spec/03, R102..R123). Stage two,
which writes registers, and the work of the COMMIT instant stand in later files. -/
namespace Sys2Proof.Machine
open Sys2Proof Sys2Proof.Reg

def modCfg (f : CfgUnit → CfgUnit) (d : Dev) : Dev := { d with cfg := f d.cfg }

def setCfgState (s : CfgState) (d : Dev) : Dev := modCfg (fun c => { c with state := s }) d

def setJob (j : Job) (d : Dev) : Dev := modCfg (fun c => { c with job := some j }) d

/-- Does R112 state no INFO for a code: the failures of stage one, BAD_STATE? -/
def infoOpen (code : Nat) : Bool := decide (1 ≤ code ∧ code ≤ 8) || code == 0x11

/-- CFG_FAULT and CFG_FAULT_INFO (R112); an INFO that no rule states is a free value (log entry 21). -/
def cfgFault (code sec info : Nat) (d : Dev) : Dev :=
  let d1 := wr CFG_FAULT (BitVec.ofNat 32 (sec * 256 + code)) d
  if infoOpen code then
    let (v, d2) := draw d1
    wr CFG_FAULT_INFO v d2
  else wr CFG_FAULT_INFO (BitVec.ofNat 32 info) d1

/-- SECTION of a failure that no section holds (R112). -/
def noSection : Nat := 0xFFFF

/-- A command ends (R111, R112): BUSY falls, CFG_FAULT, DONE and ERR are set. SECTION is 0 after OK (DEDUCED, log entry 100). -/
def cfgEnd (code sec info : Nat) (d : Dev) : Dev :=
  let d1 := wf CFG_STAT CFG_STAT_DONE 1 (modCfg (fun c => { c with job := none }) d)
  if code = 0 then cfgFault 0 0 0 d1 else wf CFG_STAT CFG_STAT_ERR 1 (cfgFault code sec info d1)

/-! ### Images (R102..R104) -/

/-- The n-byte little-endian number at an offset of an image. -/
def imgNum (b : List Byte) (off n : Nat) : Nat := leNat ((b.drop off).take n)

def imgMagic : Nat := 0x4943464B

/-- FLAGS bit 0 and bit 1. -/
def imgAutoarm (b : List Byte) : Bool := imgNum b 0x18 4 % 2 == 1
def imgToDraft (b : List Byte) : Bool := imgNum b 0x18 4 / 2 % 2 == 1

/-- Does the header pass its first two checks, so that its FLAGS mean something? -/
def imgHeader (b : List Byte) : Bool :=
  decide (64 ≤ b.length) && imgNum b 0 4 == imgMagic && crc32 (b.take 0x3C) == imgNum b 0x3C 4

/-- A section: TYPE, TARGET, payload. -/
structure ImgSec where
  typ : Nat
  target : Nat
  body : List Byte
  deriving DecidableEq, Repr, Inhabited

/-- The numbers of w bytes that follow one another; fuel bounds the length. -/
def numsOf (w : Nat) : Nat → List Byte → List Nat
  | 0, _ => []
  | n + 1, b => if b.length < w then [] else leNat (b.take w) :: numsOf w n (b.drop w)

def words32 (b : List Byte) : List Nat := numsOf 4 b.length b

/-- Words in pairs. -/
def pairUp : List Nat → List (Nat × Nat)
  | a :: b :: t => (a, b) :: pairUp t
  | _ => []

/-- The register writes that a section makes, in order (R104). -/
def secWrites (s : ImgSec) : List (Nat × Nat) :=
  if s.typ = 1 then pairUp (words32 s.body)
  else if s.typ = 2 then (words32 s.body).mapIdx (fun i w => (s.target + 4 * i, w))
  else []

/-- The function indices of a FUNCTIONS section. -/
def secFns (s : ImgSec) : List Nat :=
  if s.typ = 5 then (numsOf 2 s.body.length s.body).filter (fun x => x != 0xFFFF) else []

/-- The ranges that a MEMORY section may write (R104). -/
def imgMemOk (a n : Nat) : Bool :=
  within a n 0x10000000 0x10200000 || within a n 0x20000000 0x20800000 || within a n 0x30000000 0x30400000

/-- The registers that a TO_DRAFT image may address: RWD fields and the draft areas (R106; SCN_WIN and the window of R437). -/
def draftTarget (off : Nat) : Bool :=
  rwdMask off != 0 || off == SCN_WIN || (decide (0x35000 ≤ off) && decide (off < 0x36000))

/-- The content checks of a section (R104, R106): the code, 0 for a pass. -/
def secContent (draft : Bool) (s : ImgSec) : Nat :=
  let offs := (secWrites s).map (·.1)
  if draft && !(s.typ == 1 || s.typ == 2) then 8
  else if offs.any (fun o => o % 4 != 0) || ((s.typ == 2 || s.typ == 3) && s.target % 4 != 0) then 4
  else if offs.any (fun o => decide (0x80000 ≤ o)) then 8
  else if s.typ == 3 && !imgMemOk s.target s.body.length then 8
  else if (secFns s).any (fun x => !isFn x) then 8
  else if draft && offs.any (fun o => !draftTarget o) then 8
  else 0

/-- The result of walking the sections: a failure with its code and section index, or the sections. -/
inductive SecWalk
  | bad (code sec : Nat)
  | good (secs : List ImgSec)
  deriving DecidableEq, Repr

/-- Steps 7 and 8 of stage one: n sections from index i on in what is left of the body (R104, R107). -/
def walkSecs (draft : Bool) : Nat → Nat → List Byte → List ImgSec → SecWalk
  | 0, _, body, acc => if body.isEmpty then .good acc.reverse else .bad 4 noSection
  | n + 1, i, body, acc =>
    if body.isEmpty then .bad 4 noSection
    else if body.length < 16 then .bad 4 i
    else
      let typ := imgNum body 0 2
      let len := imgNum body 8 4
      if typ = 0 ∨ 6 < typ ∨ imgNum body 2 2 ≠ 0 ∨ imgNum body 12 4 ≠ 0 then .bad 8 i
      else if len % 4 ≠ 0 ∨ ((typ = 1 ∨ typ = 6) ∧ len % 8 ≠ 0) ∨ body.length < 16 + len then .bad 4 i
      else
        let s : ImgSec := ⟨typ, imgNum body 4 4, (body.drop 16).take len⟩
        let c := secContent draft s
        if c ≠ 0 then .bad c i else walkSecs draft n (i + 1) (body.drop (16 + len)) (s :: acc)

/-- The sections of an image. -/
def imgSections (b : List Byte) : SecWalk :=
  walkSecs (imgToDraft b) (imgNum b 0x1C 2) 0 ((b.take (imgNum b 8 4 - 4)).drop 64) []

/-- Steps 1 to 5 of stage one on the header (R107), and the rule of R111 for a load in ARMED: the code, 0 for a pass. `limit` is
what the source holds from the address on. -/
def hdrCode (d : Dev) (armed : Bool) (limit : Nat) (h : List Byte) : Nat :=
  let total := imgNum h 8 4
  let mask := imgNum h 0x10 4
  if h.length < 4 ∨ imgNum h 0 4 ≠ imgMagic then 2
  else if h.length < 64 then 4
  else if crc32 (h.take 0x3C) ≠ imgNum h 0x3C 4 then 6
  else if imgNum h 4 2 ≠ 1 ∨ imgNum h 6 2 ≠ 64 ∨ imgNum h 0x18 4 / 4 ≠ 0 ∨ imgNum h 0x1E 30 ≠ 0 ∨
      imgNum h 0x1C 2 = 0 ∨ 4096 < imgNum h 0x1C 2 then 3
  else if total % 4 ≠ 0 ∨ total < 68 ∨ 1048576 < total ∨ limit < total then 4
  else if Nat.land (rd d SYS_ID).toNat mask ≠ Nat.land (imgNum h 0xC 4) mask then 5
  else if armed && !imgToDraft h then 0x11
  else 0

/-! ### Sources (R108, R110) -/

inductive ImgSrc
  | sram (addr : Nat)
  | mram
  | qspi (second : Bool)
  deriving DecidableEq, Repr

/-- n bytes from the start of an image's place. -/
def srcBytes (mem : Memory) (d : Dev) (s : ImgSrc) (n : Nat) : List Byte :=
  match s with
  | .sram a => memReadN mem a n
  | .mram => memReadN mem 0x60000000 n
  | .qspi second => (List.range n).map (fun i => match smGet d.qspi ((if second then 0x100000 else 0) + i) with | some b => b | none => 0)

def srcLimit : ImgSrc → Nat
  | .sram a => 0x20800000 - a
  | _ => 1048576

/-- The number that BOOT_RESULT shows. -/
def srcNum : ImgSrc → Nat
  | .sram _ => 0
  | .mram => 1
  | .qspi false => 2
  | .qspi true => 3

/-- Stage one on one source (R107, R108): an MRAM or QSPI place without MAGIC holds no image. -/
def stageOne (mem : Memory) (d : Dev) (armed : Bool) (s : ImgSrc) : LoadResult :=
  let limit := srcLimit s
  let h := srcBytes mem d s (min 64 limit)
  let c := hdrCode d armed limit h
  if c ≠ 0 then
    let code := match s with | .sram _ => c | _ => if c = 2 then 1 else c
    { code := code, image := h, source := srcNum s }
  else
    let b := srcBytes mem d s (imgNum h 8 4)
    if crc32 (b.take (b.length - 4)) ≠ imgNum b (b.length - 4) 4 then { code := 7, image := h, source := srcNum s }
    else match imgSections b with
      | .bad c i => { code := c, section_ := i, image := h, source := srcNum s }
      | .good _ => { image := b, source := srcNum s }

/-- The sources tried in turn until one passes stage one; an image refused in ARMED ends the command (R108, R111). -/
def stageSources (mem : Memory) (d : Dev) (armed : Bool) : List ImgSrc → LoadResult → LoadResult
  | [], r => r
  | s :: t, _ =>
    let r := stageOne mem d armed s
    if r.code = 0 ∨ r.code = 0x11 then r else stageSources mem d armed t r

/-- A load starts (R107): stage one reads the image; STATE reads LOADING until the end unless the image is a TO_DRAFT one or the
configuration is ARMED. -/
def loadStart (mem : Memory) (boot : Bool) (srcs : List ImgSrc) (d : Dev) : Dev :=
  let prior := d.cfg.state
  let armed := prior == .armed
  let r := stageSources mem d armed srcs {}
  let quiet := armed || (imgHeader r.image && imgToDraft r.image)
  setJob (.load prior boot r) (if quiet then d else setCfgState .loading d)

/-- The image at CFG_IMG_ADDR, none where the address is out of its range (R110). -/
def imgAt (d : Dev) : Option ImgSrc :=
  let a := (rd d CFG_IMG_ADDR).toNat
  if a % 4 = 0 ∧ 0x20000000 ≤ a ∧ a < 0x20800000 then some (.sram a) else none

/-- LOAD. -/
def cfgLoad (mem : Memory) (d : Dev) : Dev :=
  match imgAt d with
  | none => cfgEnd 4 noSection 0 d
  | some s => loadStart mem false [s] d

def qspiSrcs : List ImgSrc := [.qspi false, .qspi true]

/-- The word of the stored MAGIC (R110). -/
def storedMagic : Nat := 0x60000000

/-- STORE: an image that passes stage one is kept to be written; the stored MAGIC is invalidated first (R110). -/
def cfgStore (mem : Memory) (d : Dev) : Dev :=
  match imgAt d with
  | none => cfgEnd 4 noSection 0 d
  | some s =>
    let r := stageOne mem d false s
    if r.code ≠ 0 then cfgEnd r.code r.section_ 0 d
    else setJob (.store r.image) (memPut storedMagic (leBytes 4 0) d)

/-- STORE_COMPLETE: body and header, MAGIC last; what was written reads back (R110). -/
def storeComplete (d : Dev) : Dev :=
  match d.cfg.job with
  | some (.store b) => cfgEnd 0 0 0 (memPut storedMagic (b.take 4) (memPut (storedMagic + 4) (b.drop 4) d))
  | _ => d

/-- ERASE_STORE and its end. -/
def cfgErase (d : Dev) : Dev := setJob .eraseStore (memPut storedMagic (leBytes 4 0) d)

def eraseStoreComplete (d : Dev) : Dev :=
  match d.cfg.job with
  | some .eraseStore => cfgEnd 0 0 0 d
  | _ => d

/-! ### Draft and live banks (R15, R113, R118, R120, R122) -/

/-- The four classes, by their bit in MASK. -/
def allClasses : List Nat := [0, 1, 2, 3]

/-- The offsets that either bank lists and that hold RWD fields of the classes. -/
def bankOffs (d : Dev) (cs : List Nat) : List Nat :=
  (smKeys d.regs ++ smKeys d.live).filter (fun o => cs.contains (classOf o) && rwdMask o != 0)

/-- The draft bank copied into the live bank: the arming swap (R113). -/
def draftsToLive (cs : List Nat) (d : Dev) : Dev :=
  let d1 := forEach (bankOffs d cs) (fun o e => wrLive o ((liveRaw e o &&& ~~~(rwdMask o)) ||| (rd d o &&& rwdMask o)) e) d
  if cs.contains 3 then scnArm d1 else d1

/-- The live bank copied into the draft bank: DRAFT_SYNC (R122). -/
def liveToDrafts (cs : List Nat) (d : Dev) : Dev :=
  let d1 := forEach (bankOffs d cs) (fun o e => wr o ((rd e o &&& ~~~(rwdMask o)) ||| (liveRaw d o &&& rwdMask o)) e) d
  if cs.contains 3 then scnDraftSync d1 else d1

/-- The banks of the classes exchanged: a swap (R120, R122). -/
def banksSwap (cs : List Nat) (d : Dev) : Dev :=
  let d1 := forEach (bankOffs d cs) (fun o e =>
    let m := rwdMask o
    wrLive o ((liveRaw d o &&& ~~~m) ||| (rd d o &&& m)) (wr o ((rd d o &&& ~~~m) ||| (liveRaw d o &&& m)) e)) d
  if cs.contains 3 then scnSwap d1 else d1

/-- Set or clear DRAFT_STALE of classes. -/
def setStale (cs : List Nat) (b : Bool) (d : Dev) : Dev :=
  forEach cs (fun c e => wf CFG_SWAP_STAT ⟨8 + c, 8 + c⟩ (b2n b) e) d

/-! ### Swaps (R117, R119, R121) -/

/-- A swap ends: FAILED with a code, or DONE. -/
def swapEnd (done : Bool) (code : Nat) (d : Dev) : Dev :=
  wf CFG_SWAP_STAT CFG_SWAP_STAT_CODE code (wf CFG_SWAP_STAT CFG_SWAP_STAT_STATE (if done then 2 else 3) (modCfg (fun c => { c with swap := none }) d))

/-- A PENDING swap fails; nothing where none is PENDING. -/
def swapFails (code : Nat) (d : Dev) : Dev := if d.cfg.swap.isSome then swapEnd false code d else d

def syncRuns (d : Dev) : Bool := match d.cfg.job with | some (.draftSync _) => true | _ => false

/-- REQUEST (R117). The test for ARMED comes first (DEDUCED, log entry 101). -/
def swapRequest (d : Dev) : Dev :=
  if d.cfg.state ≠ .armed then swapEnd false 7 d
  else if d.cfg.swap.isSome || syncRuns d then wf CFG_SWAP_STAT CFG_SWAP_STAT_REQ_REJ 1 d
  else
    let web := rb d CFG_SWAP_CTRL CFG_SWAP_CTRL_MODE
    let q : SwapReq :=
      { web := web, mask := rf d CFG_SWAP_CTRL CFG_SWAP_CTRL_MASK, master := rf d CFG_SWAP_CTRL CFG_SWAP_CTRL_MASTER
        timeout := rf d CFG_SWAP_CTRL CFG_SWAP_CTRL_TIMEOUT
        pt := if web then rdI64 d CFG_SWAP_AT_LO CFG_SWAP_AT_HI else (rd64 d CFG_SWAP_AT_LO CFG_SWAP_AT_HI : Nat)
        tickA := tickNum d }
    wf CFG_SWAP_STAT CFG_SWAP_STAT_CODE 0 (wf CFG_SWAP_STAT CFG_SWAP_STAT_STATE 1 (modCfg (fun c => { c with swap := some q }) d))

/-- CANCEL (R121). -/
def swapCancel (d : Dev) : Dev := swapFails 4 d

/-- A write of CMD in CFG_SWAP_CTRL. -/
def swapCmd (cmd : Nat) (d : Dev) : Dev := if cmd = 1 then swapRequest d else if cmd = 2 then swapCancel d else d

/-- SWAP_CHECKS_END: the checks on the drafts of the swap's classes and the live banks of the others (R117). -/
def swapChecksEnd (d : Dev) : Dev :=
  match d.cfg.swap with
  | none => d
  | some q =>
    if q.checked then d
    else
      let (d1, r) := runChecks (swapView q.mask d) false d
      match r with
      | some (code, info) => swapEnd false 1 (cfgFault code noSection info d1)
      | none =>
      -- R119: the COMMIT instant of tick AT - 1 has passed
      if !q.web && decide (q.pt ≤ (transferTick d1 : Int)) then swapEnd false 2 d1
      else modCfg (fun c => { c with swap := some { q with checked := true } }) d1

/-- SWAP_TIMEOUT at tick a + TIMEOUT: a position-mode swap that has not taken place (R119). The TICK_START of that tick has taken
the swap if its position was reached. -/
def swapTimeout (d : Dev) : Dev :=
  match d.cfg.swap with
  | none => d
  | some q => if q.web && q.timeout != 0 && decide (q.tickA + q.timeout ≤ tickNum d) then swapEnd false 3 d else d

/-- DRAFT_SYNC: the classes that no PENDING swap holds (R122). -/
def cfgDraftSync (d : Dev) : Dev :=
  let cs := match d.cfg.swap with
    | some q => allClasses.filter (fun c => q.mask / 2 ^ c % 2 == 0)
    | none => allClasses
  setJob (.draftSync cs) (liveToDrafts cs d)

/-- DRAFT_SYNC_COMPLETE. -/
def draftSyncComplete (d : Dev) : Dev :=
  match d.cfg.job with
  | some (.draftSync cs) => cfgEnd 0 0 0 (setStale cs false d)
  | _ => d

/-! ### Arming and disarming (R113..R115) -/

def cfgArm (d : Dev) : Dev := setJob .armChecks (setCfgState .arming d)

/-- ARM_CHECKS_END (R113): a failure leaves LOADED, a pass schedules the arming swap. -/
def armChecksEnd (d : Dev) : Dev :=
  match d.cfg.job with
  | some .armChecks =>
    let (d1, r) := runChecks d true d
    match r with
    | some (code, info) => cfgEnd code noSection info (setCfgState .loaded d1)
    | none => setJob (.armSwap (tickNum d1)) d1
  | _ => d

/-- An arming abandoned: the disarm command ends at once with OK. -/
def armAbandon (d : Dev) : Dev := cfgEnd 0 0 0 (setCfgState .loaded (forcesClear d))

/-- DISARM: STATE reads DISARMING from its acceptance (DEDUCED, log entry 102); a PENDING swap ends; forces clear (R121, R436). -/
def cfgDisarm (d : Dev) : Dev :=
  match d.cfg.state with
  | .arming => armAbandon d
  | _ => setJob (.disarm false) (setCfgState .disarming (swapFails 5 (forcesClear d)))

def cfgDisarmNow (d : Dev) : Dev :=
  match d.cfg.state with
  | .arming => armAbandon d
  | _ => setJob .disarmNow (swapFails 5 (forcesClear d))

/-! ### Commands (R111) -/

def cfgAllowed (cmd : Nat) (s : CfgState) : Bool :=
  match s with
  | .empty | .incomplete => cmd != 2 && cmd != 3 && cmd != 4
  | .loaded => cmd != 3 && cmd != 4
  | .armed => cmd != 2
  | .arming => cmd == 3 || cmd == 4 || decide (5 ≤ cmd) && cmd != 6 && cmd != 7
  | .disarming => cmd == 4 || cmd == 5 || cmd == 8 || cmd == 9
  | .loading => cmd == 5 || cmd == 8 || cmd == 9

/-- Is the command exempt from the BUSY rule? -/
def cfgOverrides (cmd : Nat) (s : CfgState) : Bool :=
  match s with
  | .arming => cmd == 3 || cmd == 4
  | .disarming => cmd == 4
  | _ => false

/-- A CFG_CTRL command that is accepted. -/
def cfgAct (mem : Memory) (cmd : Nat) (d : Dev) : Dev :=
  if cmd = 1 then cfgLoad mem d
  else if cmd = 2 then cfgArm d
  else if cmd = 3 then cfgDisarm d
  else if cmd = 4 then cfgDisarmNow d
  else if cmd = 5 then cfgStore mem d
  else if cmd = 6 then loadStart mem false [.mram] d
  else if cmd = 7 then loadStart mem false qspiSrcs d
  else if cmd = 8 then cfgErase d
  else cfgDraftSync d

/-- A write of CMD in CFG_CTRL. -/
def cfgCmd (mem : Memory) (cmd : Nat) (d : Dev) : Dev :=
  if cmd = 0 ∨ 9 < cmd ∨ rb d SYS_READY SYS_READY_CFG = false then d
  else if d.cfg.job.isSome && !cfgOverrides cmd d.cfg.state then wf CFG_STAT CFG_STAT_REJ_BUSY 1 d
  else if !cfgAllowed cmd d.cfg.state then cfgEnd 0x11 noSection 0 d
  else cfgAct mem cmd d

/-- BOOT_ACTION after a cold reset, by the sampled BOOTSEL (R108). -/
def bootAction (mem : Memory) (d : Dev) : Dev :=
  if d.cfg.bootPending && rb d SYS_READY SYS_READY_CFG && !d.cfg.job.isSome then
    let d1 := modCfg (fun c => { c with bootPending := false }) d
    let b := d.sys.bootsel % 4
    if b = 0 then d1
    else loadStart mem true ((if b = 2 then [] else [ImgSrc.mram]) ++ (if b = 1 then [] else qspiSrcs)) d1
  else d

end Sys2Proof.Machine
end

