-- ==== Sys2Proof/Machine/RegRead.lean ====
section
/-! DEFINITION. Reading a register (R12..R14, R35): computed values over the register map, the two-register quantities, the
clearing of RC fields and the other effects of a read. -/
namespace Sys2Proof.Machine
open Sys2Proof Sys2Proof.Reg

/-! ### Two-register quantities (R9, R34, R35) -/

/-- The quantities held in two registers: offset of the low word, of the high word, and the indices of their header. An address of the
MSI-X table is none of them: its two words have PCI Express semantics, each its own (R131). -/
def pairRows : List (Nat × Nat × List (Nat × Nat)) := [
  (0x50, 0x54, []), (0x1010, 0x1014, []), (0x2044, 0x2048, []), (0x2050, 0x2054, []), (0x4018, 0x401C, []),
  (0x5000, 0x5004, [(64, 64)]), (0x5008, 0x500C, [(64, 64)]),
  (0x8010, 0x8014, []), (0x8020, 0x8024, []), (0x8030, 0x8034, []), (0x8104, 0x8108, [(4, 32)]), (0x8208, 0x820C, [(4, 32)]),
  (0xA014, 0xA018, []), (0xA028, 0xA024, []), (0xA034, 0xA038, []), (0xA800, 0xA804, [(64, 16)])]

def pairRowsWpu : List (Nat × Nat × List (Nat × Nat)) := [
  (0xC050, 0xC054, [(4, 1024), (3, 128)]), (0x10018, 0x1001C, []),
  (0x10104, 0x10108, [(4, 128)]), (0x1010C, 0x10110, [(4, 128)]), (0x1011C, 0x10120, [(4, 128)]), (0x10124, 0x10128, [(4, 128)]),
  (0x1012C, 0x10130, [(4, 128)]), (0x10134, 0x10138, [(4, 128)]), (0x10144, 0x10148, [(4, 128)]), (0x1014C, 0x10150, [(4, 128)]),
  (0x10154, 0x10158, [(4, 128)]), (0x10164, 0x10168, [(4, 128)]),
  (0x11004, 0x11008, [(32, 64)]), (0x11010, 0x11014, [(32, 64)]), (0x11020, 0x11024, [(32, 64)]), (0x11028, 0x1102C, [(32, 64)]),
  (0x11030, 0x11034, [(32, 64)]), (0x11808, 0x1180C, [(32, 16)])]

def pairRowsRest : List (Nat × Nat × List (Nat × Nat)) := [
  (0x18008, 0x1800C, [(48, 128)]), (0x1801C, 0x18020, [(48, 128)]), (0x18024, 0x18028, [(48, 128)]), (0x1802C, 0x18030, [(48, 128)]),
  (0x18038, 0x1803C, [(48, 128)]), (0x18040, 0x18044, [(48, 128)]), (0x18050, 0x18054, [(48, 128)]),
  (0x1C008, 0x1C00C, [(64, 256)]), (0x1C010, 0x1C014, [(64, 256)]), (0x1C018, 0x1C01C, [(64, 256)]), (0x1C020, 0x1C024, [(64, 256)]),
  (0x1C040, 0x1C044, [(64, 256)]), (0x1C048, 0x1C04C, [(64, 256)]), (0x1C050, 0x1C054, [(64, 256)]), (0x1C058, 0x1C05C, [(64, 256)]),
  (0x1C060, 0x1C064, [(64, 256)]), (0x1C068, 0x1C06C, [(64, 256)]), (0x1C070, 0x1C074, [(64, 256)]), (0x1C078, 0x1C07C, [(64, 256)]),
  (0x1C080, 0x1C084, [(64, 256)]), (0x1C088, 0x1C08C, [(64, 256)]), (0x1C0A8, 0x1C0AC, [(64, 256)]), (0x1C0B0, 0x1C0B4, [(64, 256)]),
  (0x1C0B8, 0x1C0BC, [(64, 256)]), (0x1C0C0, 0x1C0C4, [(64, 256)]), (0x1C0C8, 0x1C0CC, [(64, 256)]),
  (0x2E044, 0x2E048, [(8, 1024), (2, 32)]), (0x31038, 0x3103C, [(16, 128)]), (0x34024, 0x34028, [])]

/-- The rows that can hold an offset. -/
def pairsAt (off : Nat) : List (Nat × Nat × List (Nat × Nat)) :=
  if off < 0xC000 then pairRows else if off < 0x18000 then pairRowsWpu else pairRowsRest

/-- The high word's offset of a low word, none where the register is no low word. -/
def highOf (off : Nat) : Option Nat :=
  ((pairsAt off).find? (fun r => decide (r.1 ≤ off) && dimsMatch r.2.2 (off - r.1))).map (fun r => off + r.2.1 - r.1)

/-- The low word's offset of a high word. -/
def lowOf (off : Nat) : Option Nat :=
  ((pairsAt off).find? (fun r => decide (r.2.1 ≤ off) && dimsMatch r.2.2 (off - r.2.1))).map (fun r => off + r.1 - r.2.1)

/-- The registers that a read of a low word latches for the reading master: its high word and what its chapter adds (R35, R179,
R294, the headers of TB_TIME, WPU_CHc_POS and WPU_BARb_NEXT). -/
def latchesOf (off : Nat) : List Nat :=
  match highOf off with
  | none => []
  | some h =>
    if off = TB_TIME_LO then [h, TB_TIME_FRAC]
    else if 0x8208 ≤ off ∧ off < 0x8280 ∧ off % 32 = 8 then [h, off - 4]
    else if 0x10100 ≤ off ∧ off < 0x10300 ∧ off % 128 = 0x44 then [h, off + 8, off + 12, off + 16, off + 20]
    else if 0x11000 ≤ off ∧ off < 0x11800 ∧ off % 64 = 0x28 then [h, off + 8, off + 12]
    else if 0x1C000 ≤ off ∧ off < 0x20000 ∧ off % 256 = 0xA8 then [h, off + 8, off + 12, off + 16, off + 20]
    else [h]

/-! ### Values that are computed when they are read -/

/-- CFG_FSTATE_x (R97, R98). -/
def fnStateNum : FnState → Nat
  | .off => 0
  | .ready => 1
  | .armed => 2
  | .running => 3
  | .stopping => 4
  | .faulted => 5

def fnWord (f : Fn) : Word :=
  BitVec.ofNat 32 (f.fault % 256 * 65536 + b2n f.rejected * 512 + b2n f.restart * 256 + b2n f.included * 128 + fnStateNum f.state)

/-- The function whose CFG_FSTATE register lies at an offset. -/
def fnAt (off : Nat) : Option Nat :=
  if 0x2400 ≤ off ∧ off % 4 = 0 ∧ isFn ((off - 0x2400) / 4) then some ((off - 0x2400) / 4) else none

/-- CFG_STAT (R107, R111). -/
def cfgStat (d : Dev) : Word :=
  fset (fset (fset (rd d CFG_STAT) CFG_STAT_BOOTSEL d.sys.bootsel) CFG_STAT_BUSY (b2n d.cfg.job.isSome)) CFG_STAT_STATE (cfgStateNum d)

/-- The low or the high word of a 64-bit number. -/
def half64 (hi : Bool) (n : Nat) : Word := BitVec.ofNat 32 (if hi then n / 4294967296 else n)

/-- SYS, PWR and CFG. -/
def readSys (d : Dev) (off : Nat) : Word :=
  if off = SYS_TICK_NUM_LO then half64 false (tickNum d)
  else if off = SYS_TICK_NUM_HI then half64 true (tickNum d)
  else if off = PWR_OPSEC then BitVec.ofNat 32 (opSec d)
  else if off = PWR_PCYC then BitVec.ofNat 32 d.pwr.pcyc
  else if off = CFG_STAT then cfgStat d
  else match fnAt off with
    | some x => fnWord (getFn d x)
    | none => rd d off

/-- The TB block: the time, the capture registers. -/
def readTb (d : Dev) (off : Nat) : Word :=
  if off = TB_TIME_LO then half64 false (tbNs d)
  else if off = TB_TIME_HI then half64 true (tbNs d)
  else if off = TB_TIME_FRAC then BitVec.ofNat 32 d.tb
  else if 0x8200 ≤ off ∧ off < 0x8280 then
    let k := (off - 0x8200) / 32
    let (ts, rise) := capHead d k
    if off % 32 = 4 then fset (fset (rd d off) TB_CAP_STAT_FILL (getCap d k).length) TB_CAP_STAT_HEAD_RISE (b2n rise)
    else if off % 32 = 8 then half64 false ts
    else if off % 32 = 12 then half64 true ts
    else rd d off
  else rd d off

/-- The position of a channel now (WPU_CHc_NOW), the live counts and the emulation outputs. -/
def readMotion (d : Dev) (off : Nat) : Word :=
  if 0x10100 ≤ off ∧ off < 0x10300 ∧ (off % 128 = 0x64 ∨ off % 128 = 0x68) then
    half64 (off % 128 == 0x68) (ofInt 64 (chanNm d ((off - 0x10100) / 128)))
  else if 0x18000 ≤ off ∧ off < 0x19800 then
    let k := (off - 0x18000) / 128
    if off % 128 = 0x2C ∨ off % 128 = 0x30 then half64 (off % 128 == 0x30) (ofInt 64 (rawFbk d k).cnt)
    else if off % 128 = 0x6C ∧ k < 8 then BitVec.ofNat 32 (ofInt 16 (getEmu d k).backlog)
    else if off % 128 = 0x70 ∧ k < 8 then BitVec.ofNat 32 (ofInt 32 (getEmu d k).out)
    else rd d off
  else rd d off

/-- STP and PWM: RESL reads 8 where the table is used (R298, R299); the fault inputs active now. -/
def readDrive (d : Dev) (off : Nat) : Word :=
  if off < 0x22000 ∧ off % 0x100 = STP_STAT 0 % 0x100 ∧ rb d (STP_CFG ((off - 0x20000) / 0x100)) STP_CFG_TABLE_EN then fset (rd d off) STP_STAT_RESL 8
  else if off = PWM_FLT_STAT then (List.range 8).foldl (fun w g => if fltOn d g then w ||| fmask g g else w) (rd d off)
  else rd d off

/-- SCH: occupation, held items, the cycles of the top item. -/
def readSch (d : Dev) (off : Nat) : Word :=
  if off = SCH_OCC then
    fset (fset (rd d off) SCH_OCC_OPS_USED (opsUsed d true + opsUsed d false)) SCH_OCC_SLOTS_USED (slotsUsed d true + slotsUsed d false)
  else if 0x30800 ≤ off ∧ off < 0x30C00 then
    let f := (off - 0x30800) / 4
    fset (rd d off) SCH_FLOW_STAT_HELD (d.sch.items.filter (fun e => e.2.flow == f && e.2.st == .held)).length
  else if 0x31000 ≤ off ∧ off < 0x31800 ∧ off % 128 = 0x4C then coreCycles d ((off - 0x31000) / 128)
  else if 0x31000 ≤ off ∧ off < 0x31800 ∧ off % 128 = 0x0C then
    -- the checker of a lockstep pair reads STATE 2, halted or not, but for a lockstep error (R392)
    (let k := (off - 0x31000) / 128
     if isChecker d k && coreState d k != 3 then fset (rd d off) SCH_CORE_STAT_STATE 2 else rd d off)
  else rd d off

/-- SCN and FLK: the cycle count, EXEC, the window, CUR. -/
def readScan (d : Dev) (off : Nat) : Word :=
  if off = SCN_CYCLES_LO then half64 false (scnSync d).scn.cycles
  else if off = SCN_CYCLES_HI then half64 true (scnSync d).scn.cycles
  else if off = SCN_STAT then fset (rd (scnSync d) off) SCN_STAT_EXEC (b2n (scnExecuting (scnSync d)))
  else if 0x35000 ≤ off ∧ off < 0x36000 then winRead d off
  else if off < 0x36000 then rd (scnSync d) off
  else if off < 0x36200 ∧ off % 64 = 8 then fset (rd d off) FLK_PORT_STAT_CUR (b2n (flkCur d ((off - 0x36000) / 64)))
  else rd d off

/-- EVR and MFP. -/
def readEvr (d : Dev) (off : Nat) : Word :=
  let seqOf (r : Option (List Word)) (i : Nat) : Word := match r.bind (·.head?) with | some w => w | none => Config.emptyStoreSeq i
  if off = EVR_STAT then evrStat d
  else if off = EVR_CLEARS then BitVec.ofNat 32 d.evr.clears
  else if off = EVR_SEQ_FIRST then seqOf d.evr.store.head? 0
  else if off = EVR_SEQ_LAST then seqOf d.evr.store.getLast? 1
  else if 0x3E000 ≤ off ∧ off < 0x3E480 then pinRead d ((off - 0x3E000) / 4)
  else if 0x3E900 ≤ off ∧ off < 0x3E990 ∧ off % 16 = 0 then dinRead d ((off - 0x3E900) / 16)
  else rd d off

/-- The register at an offset as it holds its value, but for a low word that waits for its high word. -/
def readHeld (d : Dev) (off : Nat) : Word :=
  if off % 4 ≠ 0 then 0
  else if off < 0x4000 then readSys d off
  else if 0x8000 ≤ off ∧ off < 0xA000 then readTb d off
  else if off = NET_STOP_STAT then BitVec.ofNat 32 (stopStat d)
  else if 0x10000 ≤ off ∧ off < 0x1C000 then readMotion d off
  else if 0x20000 ≤ off ∧ off < 0x28000 then readDrive d off
  else if 0x30000 ≤ off ∧ off < 0x34000 then readSch d off
  else if 0x34000 ≤ off ∧ off < 0x38000 then readScan d off
  else if 0x3C000 ≤ off ∧ off < 0x40000 then readEvr d off
  else rd d off

/-- The register at an offset as it reads, without a latch: 0 where no register lies (R13). A low word reads as it was written last
(R14), although the quantity takes it with its high word only (R34). -/
def readValue (d : Dev) (off : Nat) : Word :=
  match smGet d.half off with
  | some w => w
  | none => readHeld d off

/-! ### A read by a master -/

def latchKey (m : Master) (off : Nat) : Nat := m.num * 1048576 + off

/-- The value that a master reads: a word latched for it, else the register; HEAD_RISE of TB_CAPk_STAT alone is latched (R35, R179). -/
def readFor (m : Master) (d : Dev) (off : Nat) : Word :=
  match smGet d.latch (latchKey m off) with
  | none => readValue d off
  | some w => if 0x8200 ≤ off ∧ off < 0x8280 ∧ off % 32 = 4 then fset (readValue d off) TB_CAP_STAT_HEAD_RISE (fget w TB_CAP_STAT_HEAD_RISE) else w

/-- A read of a low word latches its companions, unless the low word itself is latched by another read. -/
def latchRead (m : Master) (off : Nat) (d : Dev) : Dev :=
  match smGet d.latch (latchKey m off) with
  | some _ => d
  | none => forEach (latchesOf off) (fun h e => { e with latch := smPut e.latch (latchKey m h) (readValue d h) }) d

/-- The mask of a register's RC fields. -/
def rcMask (off : Nat) : Word :=
  match findRow off with
  | some r => r.fields.foldl (fun m f => if f.acc = .rc then m ||| fmask f.hi f.lo else m) 0
  | none => 0

/-- The register after a read has cleared its RC fields; what hardware set on the clock of the read stays: a bit, or the part of a
count that came on this clock, at least 1 (R14, R16). -/
def rcLeft (d : Dev) (off : Nat) : Word :=
  let cleared := rd d off &&& ~~~(rcMask off)
  match smGet d.clash off, findRow off with
  | some (was, bits), some r => r.fields.foldl (fun w f =>
      let fl : Fld := ⟨f.hi, f.lo⟩
      if f.acc = .rc && fget bits fl != 0 then
        fset w fl (if fl.width = 1 then 1 else max 1 (fget (rd d off) fl - fget was fl))
      else w) cleared
  | _, _ => cleared

/-- What a read changes: RC fields, the oldest capture entry, NEW and the dispatch interrupt (R14, R179, R403). -/
def readEffects (off : Nat) (d : Dev) : Dev :=
  let d1 := if rcMask off = 0 then d else wr off (rcLeft d off) d
  if 0x8200 ≤ off ∧ off < 0x8280 ∧ off % 32 = 12 then capPop ((off - 0x8200) / 32) d1
  else if 0x31000 ≤ off ∧ off < 0x31800 ∧ off % 128 = 0x10 then
    let k := (off - 0x31000) / 128
    setCore k { getCore d1 k with irq := false } d1
  else d1

/-- A read by a master: the value and the device after it. A host read of a block that BREEZE stops wakes the device (R511). -/
def readReg (m : Master) (off : Nat) (d : Dev) : Word × Dev :=
  let d1 := touched m off d
  let v := readFor m d1 off
  (v, readEffects off (latchRead m off d1))

/-- A read whose value goes to the master. -/
def regRead (m : Master) (off : Nat) (d : Dev) : Dev :=
  let (v, d1) := readReg m off d
  emit (.read m off v) d1

end Sys2Proof.Machine
end

