-- ==== Sys2Proof/Machine/RegWrite.lean ====
section
/-! DEFINITION. Writing a register (R10..R14, R32..R34, R541, R542): the refusals, the fields by their access codes, the
two-register quantities, staging, and what a write starts in the unit that owns the register. -/
namespace Sys2Proof.Machine
open Sys2Proof Sys2Proof.Reg

/-! ### Locks (R14, R541, R542) -/

/-- Does a core hold no running program: it is halted, after a lockstep error too? -/
def coreHalted (d : Dev) (k : Nat) : Bool := coreState d k == 0 || coreState d k == 3

/-- Is the RWL field of a register whose bit range starts at `lo` locked: its owning function, as the chapter of the register
names it, is armed? -/
def rwlLocked (d : Dev) (off lo : Nat) : Bool :=
  if off < 0xA000 then tbOwnerArmed d
  else if off < 0x10000 then cfgActive d
  else if off < 0x11000 then armedFn d (fnChan ((off - 0x10100) / 0x80))
  else if off < 0x18000 then armedFn d (fnBar ((off - 0x11000) / 0x40))
  else if off < 0x1C000 then
    let k := (off - 0x18000) / 0x80
    if 0x60 ≤ off % 0x80 then armedFn d (fnEmu k) else armedFn d k
  else if off < 0x20000 then armedFn d (fnMpg ((off - 0x1C000) / 0x100))
  else if off < 0x24000 then armedFn d (fnStp ((off - 0x20000) / 0x100))
  else if off < 0x24C00 then armedFn d (fnPwm ((off - 0x24000) / 0x40))
  else if off < 0x2E000 then cfgActive d
  else if off < 0x30000 then armedFn d (fnAcq ((off - 0x2E000) / 0x400))
  else if off < 0x34000 then
    if 0x31000 ≤ off ∧ lo = 8 then
      let k := (off - 0x31000) / 0x80
      cfgActive d || !(coreHalted d k && coreHalted d (k + 1))
    else cfgActive d
  else if off < 0x36000 then armedFn d fnScn
  else if off < 0x36800 then armedFn d (fnFlk ((off - 0x36000) / 0x40))
  else if off < 0x38000 then armedFn d (fnFlk ((off - 0x36800) / 512))
  else if off < 0x3C000 then armedFn d fnTwn
  else if off < 0x3E000 then cfgActive d
  else if off = MFP_BANK_CFG then (bankFns d (lo / 2)).any (armedFn d)
  else if off < 0x40000 then cfgActive d
  else armedFn d (fnSlot ((off - 0x40000) / 0x80))

/-- Are the draft fields and draft areas of a class locked: an arming runs, a PENDING swap holds the class, or a DRAFT_SYNC copies
it? -/
def draftHeld (d : Dev) (c : Nat) : Bool :=
  (match d.cfg.state with | .arming => true | _ => false) ||
  (match d.cfg.swap with | some q => q.mask / 2 ^ c % 2 == 1 | none => false) ||
  (match d.cfg.job with | some (.draftSync cs) => cs.contains c | _ => false)

/-! ### The fields of a register (R12, R14) -/

/-- Is a field locked (R542)? -/
def heldField (d : Dev) (off : Nat) (f : FieldDesc) : Bool :=
  match f.acc with
  | .rwl => rwlLocked d off f.lo
  | .rwd => draftHeld d (classOf off)
  | _ => false

/-- The bits of a field that hardware sets on the clock of the write: they stay set (R16). -/
def setNow (d : Dev) (off : Nat) (fl : Fld) : Nat :=
  match smGet d.clash off with
  | some (_, bits) => fget bits fl
  | none => 0

/-- One field: the register after it and whether a locked field would have changed. SCH_COREk_CFG.LOCK reads 0 for odd k. -/
def putField (d : Dev) (off : Nat) (v : Word) (s : Word × Bool) (f : FieldDesc) : Word × Bool :=
  let fl : Fld := ⟨f.hi, f.lo⟩
  let n := fget v fl
  let o := fget s.1 fl
  match f.acc with
  | .rw => (fset s.1 fl n, s.2)
  | .rwl =>
    if decide (0x31000 ≤ off ∧ off < 0x31800) && f.lo == 8 && (off / 0x80) % 2 == 1 then s
    else if heldField d off f then (s.1, s.2 || n != fget (rd d off) fl) else (fset s.1 fl n, s.2)
  | .rwd => if heldField d off f then (s.1, s.2 || n != fget (rd d off) fl) else (fset s.1 fl n, s.2)
  | .w1c => (fset s.1 fl (Nat.lor (Nat.xor o (Nat.land o n)) (Nat.land o (setNow d off fl))), s.2)
  | .w1s => (fset s.1 fl (Nat.lor o n), s.2)
  | .ro | .wo | .rc => s

/-- The register after a write of `v`, and whether a locked field would have changed. -/
def putFields (d : Dev) (off : Nat) (old v : Word) (r : RegDesc) : Word × Bool := r.fields.foldl (putField d off v) (old, false)

/-- The mask of the fields that a write sets. -/
def setMask (r : RegDesc) : Word :=
  r.fields.foldl (fun m f => match f.acc with | .rw | .rwl | .rwd => m ||| fmask f.hi f.lo | _ => m) 0

/-- Does a write set some field of a register: one that is not locked (R542)? -/
def takesWrite (d : Dev) (off : Nat) (r : RegDesc) : Bool :=
  r.fields.any (fun f => match f.acc with | .rw => true | .rwl | .rwd => !heldField d off f | _ => false)

/-- A write applied field by field. A low word of a quantity waits for its high word, which takes both (R34); a staged quantity
waits for the COMMIT instant (R32). A locked word keeps its value, and a low word that waits for it goes on waiting (R542). -/
def putReg (off : Nat) (v : Word) (r : RegDesc) (d : Dev) : Dev × Bool :=
  let old := match highOf off, smGet d.half off with | some _, some w => w | _, _ => rd d off
  let (new, bad) := putFields d off old v r
  let takes := takesWrite d off r
  if (highOf off).isSome && setMask r != 0 then
    (if takes then { d with half := smPut d.half off new } else d, bad)
  else
    let d1 := if new = rd d off then d else wr off new d
    let d2 := match lowOf off with
      | some l =>
        (match smGet d1.half l with
         | some w => if takes then wr l w { d1 with half := smDel d1.half l } else d1
         | none => d1)
      | none => d1
    (if isStaged off && takes then { d2 with staged := if d2.staged.contains off then d2.staged else off :: d2.staged } else d2, bad)

/-! ### What a write starts -/

/-- SYS, PWR and CFG. -/
def effSys (mem : Memory) (off : Nat) (v : Word) (d : Dev) : Dev :=
  if off = SYS_ACCESS_ERR then
    if Nat.land (rd d SYS_ACCESS_ERR).toNat 15 = 0 then wf SYS_ACCESS_ADDR SYS_ACCESS_ADDR_VALID 0 d else d
  else if off = SYS_RST_CTRL then rstCtrl v d
  else if off = PWR_CTRL then pwrCtrl v d
  else if off = CFG_CTRL then cfgCmd mem (fget v CFG_CTRL_CMD) d
  else if off = CFG_SWAP_CTRL then swapCmd (fget v CFG_SWAP_CTRL_CMD) d
  else d

/-- CFG_FSTATE_x: the last command accepted before a COMMIT instant acts there (R33, R98). -/
def fnCommand (x cmd : Nat) (d : Dev) : Dev :=
  if cmd = 1 then { d with fcmds := smPut d.fcmds x .enable }
  else if cmd = 2 then { d with fcmds := smPut d.fcmds x .disable }
  else if cmd = 3 then { d with fcmds := smPut d.fcmds x .clearFault }
  else d

def fstateWrite (x : Nat) (v : Word) (d : Dev) : Dev :=
  let d1 := if fget v CFG_FSTATE_REJECTED = 1 ∧ setNow d (CFG_FSTATE x) CFG_FSTATE_REJECTED = 0 then
    setFn x { getFn d x with rejected := false } d else d
  fnCommand x (fget v CFG_FSTATE_CMD) d1

/-- HIF: a ring command, a vector unmasked (R160, R162). -/
def effHif (off : Nat) (v : Word) (d : Dev) : Dev :=
  if 0x5000 ≤ off ∧ off < 0x6000 ∧ off % 0x40 = 0x18 then ringCtrl ((off - 0x5000) / 0x40) (fget v HIF_RING_CTRL_CMD) d
  else if 0x6000 ≤ off ∧ off < 0x7000 ∧ off % 16 = 12 then
    let n := (off - 0x6000) / 16
    let p : Fld := ⟨n % 32, n % 32⟩
    if !rb d off HIF_MSIX_CTRL_MASK && rb d (HIF_MSIX_PBA (n / 32)) p then sendMsix n (wf (HIF_MSIX_PBA (n / 32)) p 0 d) else d
  else d

/-- Does the state of a ring discard a write to one of its registers (R165, R166)? -/
def ringKeeps (d : Dev) (off : Nat) : Bool :=
  if 0x5000 ≤ off ∧ off < 0x6000 then
    let r := (off - 0x5000) / 0x40
    if off % 0x40 < 0x14 then ringState d r != ringDisabled
    else if off % 0x40 = 0x20 then ringState d r != ringHalted
    else false
  else false

/-- TB: the period, a pulse schedule (R175, R176). -/
def effTb (off : Nat) (old : Word) (d : Dev) : Dev :=
  if off = TB_TICK_CFG then if rd d TB_TICK_CFG = old then d else periodChanged (fget old TB_TICK_CFG_PERIOD) d
  else if 0x8100 ≤ off ∧ off < 0x8180 ∧ off % 32 = 8 then
    pulseAccept ((off - 0x8100) / 32) d
  else d

/-- NET: PTP states, Celivo and stop commands. -/
def effNet (off : Nat) (v : Word) (hadSlave : Bool) (d : Dev) : Dev :=
  if off = NET_CELIVO_CTRL then
    let c := fget v NET_CELIVO_CTRL_CMD
    if c = 1 then celJoin d else if c = 2 then celForceJoin d else if c = 3 then celLeave d else d
  else if off = NET_STOP_CTRL then
    let c := fget v NET_STOP_CTRL_CMD
    if c = 1 then stopHostIssue (fget v NET_STOP_CTRL_SCOPE) (fget v NET_STOP_CTRL_KIND) (fget v NET_STOP_CTRL_REASON) (fget v NET_STOP_CTRL_TARGET) d
    else if c = 2 then stopReleaseOwn d
    else if c = 3 then stopForceAll d
    else d
  else if hadSlave && (slavePort d).isNone then servoLost d
  else d

/-- CAN: the commands; the other registers of a controller are written by `canWrite`. -/
def effCan (off : Nat) (v : Word) (d : Dev) : Dev :=
  let k := (off - 0xC000) / 0x400
  let r := off % 0x400
  if r = 0x18 then (if fget v CAN_CMD_CMD = 1 then canBor k d else d)
  else if 0x40 ≤ r ∧ r % 0x80 = 0x48 then txCmd k ((r - 0x40) / 0x80) (fget v CAN_TXB_CMD_CMD) d
  else d

/-- The registers of a controller that take a write as a whole or not at all (R462, R463). -/
def canWhole (off : Nat) : Bool :=
  let r := off % 0x400
  decide (0xC000 ≤ off ∧ off < 0xD000) && (decide (r < 0xC) || decide (0x40 ≤ r ∧ r < 0x200 ∧ (r % 0x80 = 0x40 ∨ r % 0x80 = 0x44 ∨ r % 0x80 < 0x40)))

def canWrite (off : Nat) (v : Word) (d : Dev) : Dev :=
  let k := (off - 0xC000) / 0x400
  let r := off % 0x400
  if r = 0 then canCtrl k v d else if r < 0xC then canTiming k off v d else txWrite k ((r - 0x40) / 0x80) off v d

/-- WPU, FBK, MPG, STP, PWM: their command registers, and CMP, which closes a set (R310). -/
def effMotion (off : Nat) (old v : Word) (d : Dev) : Dev :=
  let cmd := v.toNat / 0x10000000
  if off = WPU_UPD_CTRL then
    if cmd = 1 then wpuApply (fget v WPU_UPD_CTRL_MODE == 1) d else if cmd = 2 then wpuCancel d else d
  else if 0x10100 ≤ off ∧ off < 0x10300 ∧ off % 0x80 = 0 then
    -- SRC_A, IDX_A, SRC_B, IDX_B
    (if (old ^^^ rd d off) &&& 0x3FFF3#32 = 0 then d else chanRetrack ((off - 0x10100) / 0x80) d)
  else if 0x10100 ≤ off ∧ off < 0x10300 ∧ off % 0x80 = 0x3C then chanCmd ((off - 0x10100) / 0x80) cmd d
  else if 0x18000 ≤ off ∧ off < 0x19800 ∧ off % 0x80 < 8 then
    -- a write to CFG or IDX_CFG can make the condition of R253 true for the next sample
    (let k := (off - 0x18000) / 0x80
     if fbkSamples d k then indexLook k (tbNs d) d else d)
  else if 0x18000 ≤ off ∧ off < 0x19800 ∧ off % 0x80 = 0x10 then fbkCmd ((off - 0x18000) / 0x80) cmd d
  else if 0x1C000 ≤ off ∧ off < 0x20000 ∧ off % 0x100 = 4 then mpgCmd ((off - 0x1C000) / 0x100) cmd d
  else if 0x20000 ≤ off ∧ off < 0x22000 ∧ off % 0x100 = 0x1C then stpCmd ((off - 0x20000) / 0x100) cmd (fget v STP_CMD_EPOS_VAL) d
  else if 0x24000 ≤ off ∧ off < 0x24C00 ∧ off % 0x40 = 8 then pwmClose ((off - 0x24000) / 0x40) d
  else if 0x24C00 ≤ off ∧ off < 0x24C20 then fltSync d
  else d

/-- LPE control and slots, ADC, ACQ. -/
def effLoop (off : Nat) (v : Word) (d : Dev) : Dev :=
  let cmd := v.toNat / 0x10000000
  if 0x28200 ≤ off ∧ off < 0x28400 then
    let t := (off - 0x28200) / 32
    if off % 32 = 0 ∨ off % 32 = 4 then setTrc t { getTrc d t with dirty := true } d
    else if off % 32 = 8 then trcCmd t cmd d
    else d
  else if off = ADC_CTRL then (if cmd = 1 then adcCal d else d)
  else if 0x2C100 ≤ off ∧ off < 0x2C500 ∧ (off - 0x2C100) % 64 = 0x2C then
    (if fget v ADC_SAR_REQ_START = 1 then sarReqStart ((off - 0x2C100) / 64) d else d)
  else if 0x2E000 ≤ off ∧ off < 0x30000 ∧ off % 0x400 = 8 then acqCmd ((off - 0x2E000) / 0x400) cmd d
  else if 0x40000 ≤ off ∧ off < 0x60000 ∧ off % 0x80 = 0x14 then slotCmd ((off - 0x40000) / 0x80) cmd d
  else d

/-- The 32 bytes that a core submits: in shared SRAM or its own TCM-D, none at another address (R394). -/
def submitBytes (mem : Memory) (k a : Nat) : Option (List Byte) :=
  if within a 32 0x20000000 0x20800000 then some (memReadN mem a 32)
  else if within a 32 0x10000 0x20000 then some (memReadN mem (0x10000000 + k * 0x20000 + a) 32)
  else if within a 32 (0x10010000 + k * 0x20000) (0x10020000 + k * 0x20000) then some (memReadN mem a 32)
  else none

/-- Has the position of its RUNNING master reached the release point of an item with REL_MODE 2 (R400)? -/
def itemAt (d : Dev) (i : Item) : Bool :=
  i.relMode == 2 && chanRuns d i.master && decide (sext 64 i.release * 4294967296 ≤ chanPos d i.master)

/-- Submission (R394); a position release point that the web has passed is behind and counts as reached (R225, R400). -/
def submitItem (b : List Byte) (d : Dev) : Dev × Except Nat Nat :=
  match submit b d with
  | (d1, .ok s) => ((match getItem d1 s with | some i => if itemAt d1 i then relPoint s true d1 else d1 | none => d1), .ok s)
  | r => r

/-- SCH_COREk_SUBMIT: the outcome stands in SUBMIT_RES. A descriptor elsewhere is a BAD_DESC (log entry 103). -/
def coreSubmit (mem : Memory) (k : Nat) (v : Word) (d : Dev) : Dev :=
  match submitBytes mem k v.toNat with
  | none => wr (SCH_CORE_SUBMIT_RES k) (BitVec.ofNat 32 (65536 * 2 ^ SCH_ERR_BAD_DESC.lo)) (wf SCH_ERR SCH_ERR_BAD_DESC 1 d)
  | some b =>
    match submitItem b d with
    | (d1, .ok s) => wr (SCH_CORE_SUBMIT_RES k) (BitVec.ofNat 32 (0x80000000 + s)) d1
    | (d1, .error e) => wr (SCH_CORE_SUBMIT_RES k) (BitVec.ofNat 32 (65536 * 2 ^ e)) d1

/-- A core's registers. -/
def effCore (mem : Memory) (k r : Nat) (v old : Word) (d : Dev) : Dev :=
  let cmd := v.toNat / 0x10000000
  if r = 8 then
    if cmd = 1 then coreStart k (rd d (SCH_CORE_BOOT k)) d
    else if cmd = 2 then coreHalt k d
    else if cmd = 3 then abortTop k 2 d
    else d
  else if r = 0x2C then coreDone k (bitOf v 0) d
  else if r = 0x34 then relqPush k v d
  else if r = 0x40 then (if bitOf v 0 && !bitOf old 0 then emit (.coreIrq k 3) d else d)
  else if r = 0x44 then coreSubmit mem k v d
  else d

/-- SCH. -/
def effSch (mem : Memory) (off : Nat) (v old : Word) (d : Dev) : Dev :=
  if off = SCH_POST_KEY then
    if 0x8000 ≤ v.toNat % 65536 then postOperand (v.toNat % 65536) (rd d SCH_POST_VAL) d else wf SCH_ERR SCH_ERR_BAD_KEY 1 d
  else if off = SCH_CANCEL then cancelItem (v.toNat % 4096) d
  else if 0x30400 ≤ off ∧ off < 0x30800 then
    let c := fget v SCH_FLOW_CFG_CMD
    if c = 1 then flowResume ((off - 0x30400) / 4) d else if c = 2 then flowFlush ((off - 0x30400) / 4) d else d
  else if 0x31000 ≤ off ∧ off < 0x31800 then effCore mem ((off - 0x31000) / 0x80) (off % 0x80) v old d
  else d

/-- FLK, TWN, EVR. -/
def effRest (m : Master) (off : Nat) (v : Word) (d : Dev) : Dev :=
  let cmd := v.toNat / 0x10000000
  if 0x36000 ≤ off ∧ off < 0x36200 ∧ off % 0x40 = 4 then flkCmd ((off - 0x36000) / 0x40) cmd (fget v FLK_PORT_CMD_MASK) d
  else if off = TWN_CMD then twnCmd cmd d
  else if off = EVR_CTRL then
    if cmd = 1 then evrClear (match m with | .host => true | _ => false) d else if cmd = 2 then setAuth d else d
  else if off = EVR_ARG then modEvr (fun e => { e with arg := v }) d
  else if off = EVR_TRIG then manual m v d
  else if off = EVR_RD_SEQ then rdSeq v d
  else d

/-- What a write of `v` to a register starts, once its fields have taken it; `old` is the register before. -/
def regEffect (mem : Memory) (m : Master) (off : Nat) (v old : Word) (hadSlave : Bool) (d : Dev) : Dev :=
  if off < 0x4000 then effSys mem off v d
  else if off < 0x8000 then effHif off v d
  else if off < 0xA000 then effTb off old d
  else if off < 0xC000 then effNet off v hadSlave d
  else if off < 0x10000 then effCan off v d
  else if off < 0x28000 then effMotion off old v d
  else if off < 0x30000 then effLoop off v d
  else if off < 0x34000 then effSch mem off v old d
  else if off < 0x40000 then effRest m off v d
  else effLoop off v d

/-! ### Registers that take a write as a whole -/

/-- MFP_PINn: locked while a function of its old or new FSEL is armed (R80, R82). -/
def mfpPinWrite (n : Nat) (v : Word) (d : Dev) : Dev × Bool :=
  let w := v &&& setMask { (default : RegDesc) with fields := (match findRow (MFP_PIN n) with | some r => r.fields | none => []) }
  if pinLocked d n v then (d, w != rd d (MFP_PIN n)) else (fltSync (pinWrite n v d), false)

/-- A register that its block takes or discards as a whole: the device after it; none for every other register. -/
def wholeWrite (off : Nat) (v : Word) (r : RegDesc) (d : Dev) : Option (Dev × Bool) :=
  match fnAt off with
  | some x => some (fstateWrite x v d, false)
  | none =>
    if ringKeeps d off then some (hifErr HIF_ERR_CFG_WR_ACTIVE d, false)
    else if off = TB_TICK_CFG ∧ 5 ≤ fget v TB_TICK_CFG_PERIOD then 
      -- the lock comes before the check of the value (R542)
      some (d, rwlLocked d off 0 && fget v TB_TICK_CFG_PERIOD != rf d off TB_TICK_CFG_PERIOD)
    else if (off = TB_ADDEND_LO ∨ off = TB_ADDEND_HI) ∧ rb d TB_CTRL TB_CTRL_SERVO_EN then some (wf TB_STAT TB_STAT_ADDEND_WR 1 d, false)
    else if 0x8100 ≤ off ∧ off < 0x8180 ∧ off % 32 = 8 ∧ pulseRefuses d ((off - 0x8100) / 32) then
      some (wf (TB_PULSE_STAT ((off - 0x8100) / 32)) TB_PULSE_STAT_PARAM_ERR 1 d, false)
    else if canWhole off then some (canWrite off (v &&& setMask r) d, false)
    else if 0x2D200 ≤ off ∧ off < 0x2D214 then some (tdacWrite ((off - 0x2D200) / 4) v d, false)
    else if 0x2E000 ≤ off ∧ off < 0x30000 ∧ off % 0x400 = 0x14 then some (acqRptr ((off - 0x2E000) / 0x400) v.toNat d, false)
    else if 0x34100 ≤ off ∧ off < 0x34300 then some (forceWrite ((off - 0x34100) / 8) (off % 8 == 0) v d, false)
    else if 0x3E000 ≤ off ∧ off < 0x3E480 then some (mfpPinWrite ((off - 0x3E000) / 4) v d)
    else none

/-! ### The write -/

def refuse (k : AccKind) (m : Master) (off : Nat) (d : Dev) : Dev × Option AccKind := (accessErr k m off d, some k)

/-- A write to the scan window: the selected area, or nothing beyond it (R424, R437, R440). -/
def windowWrite (m : Master) (off : Nat) (v : Word) (d : Dev) : Dev × Option AccKind :=
  if winBeyond d off then refuse .unmapped m off d
  else if winDraft d && draftHeld d 3 then (if winRead d off = v then (d, none) else refuse .lockedWr m off d)
  else (winWrite off v d, none)

/-- A write to an included twin that is the shadow: the owner's mirrored writes alone reach these registers (R495, R499). -/
def shadowKeeps (d : Dev) (m : Master) (off : Nat) (v : Word) : Bool :=
  twnIncluded d && twnRole d == 2 && twnMirrored off v && (match m with | .boot => false | _ => true)

/-- STEP in TB_CTRL, once its other fields have taken the write (R170). -/
def stepWrite (m : Master) (v : Word) (d : Dev) : Dev × Option AccKind :=
  if fget v TB_CTRL_STEP = 1 then (tbStep m d, if tbOwnerArmed d then some .lockedWr else none) else (d, none)

/-- A write to a register that exists. -/
def writeRow (mem : Memory) (m : Master) (off : Nat) (v : Word) (r : RegDesc) (d : Dev) : Dev × Option AccKind :=
  let done (x : Dev × Bool) : Dev × Option AccKind := if x.2 then refuse .lockedWr m off x.1 else (x.1, none)
  match wholeWrite off v r d with
  | some x => done x
  | none =>
    let old := rd d off
    let hadSlave := (slavePort d).isSome
    let (d1, bad) := putReg off v r d
    let (d2, k) := done (d1, bad)
    if off = TB_CTRL then stepWrite m v d2
    else (regEffect mem m off v old hadSlave d2, k)

/-- A write that a device in state `was` took, sent to its shadow where the twin mirrors it (R499). -/
def mirrored (was : Dev) (off : Nat) (v : Word) (d : Dev) : Dev :=
  if twnIncluded was && twnMirrored off v then twnMirror off v d else d

/-- A write by a master to a BAR0 offset (R11, R13, R14, R43): the device after it, and the refusal if there is one. `full` is a
write of all four bytes; `twin` marks the owner's mirrored writes at the shadow. -/
def regWrite (mem : Memory) (m : Master) (full twin : Bool) (off : Nat) (v : Word) (d0 : Dev) : Dev × Option AccKind :=
  let d := touched m off d0
  if !full || off % 4 != 0 then refuse .subword m off d
  else if 0x80000 ≤ off ∨ (0x38000 ≤ off ∧ off < 0x3A000) then refuse .unmapped m off d
  else if !twin && shadowKeeps d m off v then refuse .lockedWr m off d
  else
    let (d1, k) :=
      if 0x35000 ≤ off ∧ off < 0x36000 then windowWrite m off v d
      else match findRow off with
        | none => refuse .unmapped m off d
        | some r => writeRow mem m off v r d
    (match k with | some .unmapped => d1 | _ => mirrored d off v d1, k)

/-- A whole write, without the report of a refusal. -/
def regPut (mem : Memory) (m : Master) (off : Nat) (v : Word) (d : Dev) : Dev := (regWrite mem m true false off v d).1

end Sys2Proof.Machine
end

