-- ==== Sys2Proof/Machine/Load.lean ====
section
/-! DEFINITION. Stage two of a load (R105..R109): the sections of an image applied in order, and the end of the command. -/
namespace Sys2Proof.Machine
open Sys2Proof Sys2Proof.Reg

/-- What a TO_DRAFT image writes to a register: RWD fields; the other fields are written as they read, so that nothing but a
draft changes (R106). -/
def draftValue (d : Dev) (off : Nat) (v : Word) : Word :=
  match findRow off with
  | none => v
  | some r => r.fields.foldl (fun w f =>
      let fl : Fld := ⟨f.hi, f.lo⟩
      match f.acc with
      | .rwd => fset w fl (fget v fl)
      | .rw | .rwl => fset w fl (fget (if heldField d off f then rd d off else match smGet d.half off with | some h => h | none => rd d off) fl)
      | _ => w) 0

/-- One register write of the loader (R105). In a TO_DRAFT image a write to the scan window reaches a draft area alone. -/
def loadWrite (mem : Memory) (draft : Bool) (off : Nat) (v : Word) (d : Dev) : Dev × Option AccKind :=
  if draft && decide (0x35000 ≤ off ∧ off < 0x36000) then
    if winDraft d then regWrite mem .boot true false off v d else (d, none)
  else if draft && off != SCN_WIN then regWrite mem .boot true false off (draftValue d off v) d
  else regWrite mem .boot true false off v d

/-- The register writes of a section in order, up to one that is refused: its offset. A write that meets a locked field is not
refused: the other fields take it (R107, R542). -/
def loadWrites (mem : Memory) (draft : Bool) : List (Nat × Nat) → Dev → Dev × Option Nat
  | [], d => (d, none)
  | (off, v) :: t, d =>
    match loadWrite mem draft off (BitVec.ofNat 32 v) d with
    | (d1, none) => loadWrites mem draft t d1
    | (d1, some .lockedWr) => loadWrites mem draft t d1
    | (d1, some _) => (d1, some off)

/-- Does a range touch the TCM aliases of a lockstep checker (R392)? -/
def touchesChecker (d : Dev) (a n : Nat) : Bool :=
  n != 0 && (List.range 16).any (fun k => isChecker d k && decide (a < 0x10000000 + (k + 1) * 0x20000 ∧ 0x10000000 + k * 0x20000 < a + n))

/-- One section: the device after it, and the INFO of a refused write. -/
def loadSection (mem : Memory) (draft : Bool) (s : ImgSec) (d : Dev) : Dev × Option Nat :=
  if s.typ = 1 ∨ s.typ = 2 then loadWrites mem draft (secWrites s) d
  else if s.typ = 3 then
    if touchesChecker d s.target s.body.length then (accessErr .unmapped .boot s.target d, some s.target)
    else (memPut s.target s.body d, none)
  else if s.typ = 4 then (modCfg (fun c => { c with safety := some s.body }) d, none)
  else if s.typ = 5 then (forEach (secFns s) (fun x e => setFn x { getFn e x with included := true } e) d, none)
  else (d, none)

/-- The sections from index i on; a failure is the index of its section and INFO. -/
def loadSections (mem : Memory) (draft : Bool) : Nat → List ImgSec → Dev → Dev × Option (Nat × Nat)
  | _, [], d => (d, none)
  | i, s :: t, d =>
    match loadSection mem draft s d with
    | (d1, none) => loadSections mem draft (i + 1) t d1
    | (d1, some info) => (d1, some (i, info))

/-- The functions and the safety configuration that an image without TO_DRAFT replaces (R105). -/
def loadClears (d : Dev) : Dev :=
  modCfg (fun c => { c with safety := none }) (forEach (inclFns d) (fun x e => setFn x { getFn e x with included := false } e) d)

/-- The cores that an image starts, after it is applied (R104, R391). -/
def loadStarts (secs : List ImgSec) (d : Dev) : Dev :=
  forEach (secs.filter (fun s => s.typ == 6)) (fun s e =>
    forEach (pairUp (words32 s.body)) (fun p e => if p.1 < 16 then coreStart p.1 (BitVec.ofNat 32 p.2) e else e) e) d

/-- Stage two on an image that passed stage one. -/
def stageTwo (mem : Memory) (prior : CfgState) (boot : Bool) (r : LoadResult) (secs : List ImgSec) (d : Dev) : Dev :=
  let draft := imgToDraft r.image
  let d0 := if boot then wf CFG_STAT CFG_STAT_BOOT_RESULT r.source d else d
  match loadSections mem draft 0 secs (if draft then d0 else loadClears d0) with
  | (d1, some (i, info)) => cfgEnd 9 i info (setCfgState (if draft then prior else .incomplete) d1)
  | (d1, none) =>
    let d2 := cfgEnd 0 0 0 (setCfgState (if draft then prior else .loaded) (wr CFG_IMAGE_ID (BitVec.ofNat 32 (imgNum r.image 0x14 4)) d1))
    let d3 := loadStarts secs d2
    if boot && imgAutoarm r.image && !draft then cfgArm d3 else d3

/-- IMAGE_LOAD_END: stage two, and the end of the command (R107). -/
def imageLoadEnd (mem : Memory) (d : Dev) : Dev :=
  match d.cfg.job with
  | some (.load prior boot r) =>
    if r.code ≠ 0 then cfgEnd r.code r.section_ 0 (setCfgState prior d)
    else match imgSections r.image with
      | .bad c i => cfgEnd c i 0 (setCfgState prior d)
      | .good secs => stageTwo mem prior boot r secs d
  | _ => d

end Sys2Proof.Machine
end

