-- ==== Sys2Proof/Machine/MemAcc.lean ====
section
/-! DEFINITION. Accesses of a master to memory (R43..R50): the core map, the host's aperture, the closed regions, ECC. -/
namespace Sys2Proof.Machine
open Sys2Proof Sys2Proof.Reg

/-- Where an access goes. -/
inductive MemPlace
  /-- memory at a core address of R44 that all masters share (TCMs by their aliases) -/
  | mem (addr : Nat)
  /-- a register at a BAR0 offset -/
  | reg (off : Nat)
  /-- the range of R43 -/
  | closed (off : Nat)
  /-- nothing: no address map lists it -/
  | none
  deriving DecidableEq, Repr

/-- The core addresses of the shared map that n bytes from a on lie in, without the own TCM and the peripherals (R44). -/
def sharedPlace (a n : Nat) : MemPlace :=
  if within a n 0x10000000 0x10200000 || within a n 0x20000000 0x20800000 || within a n 0x30000000 0x30400000 ||
    within a n 0x60000000 0x60200000 then .mem a else .none

/-- A core's map (R44). -/
def corePlace (k a n : Nat) : MemPlace :=
  if within a n 0 0x20000 then .mem (0x10000000 + k * 0x20000 + a)
  else if within a n 0x40000000 0x40080000 then .reg (a - 0x40000000)
  else if within a n 0x40080000 0x40100000 then .closed (a - 0x40000000)
  else sharedPlace a n

/-- The core address at which a bank of the aperture starts (R45). -/
def bankBase (b : Nat) : Nat :=
  if b < 16 then 0x20000000 + b * 0x80000
  else if b < 20 then 0x10000000 + (b - 16) * 0x80000
  else if b < 28 then 0x30000000 + (b - 20) * 0x80000
  else 0x60000000 + (b - 28) * 0x80000

/-- The host's BAR0 (R42, R45). -/
def hostPlace (d : Dev) (a n : Nat) : MemPlace :=
  if within a n 0 0x80000 then .reg a
  else if within a n 0x80000 0x100000 then .mem (bankBase (rf d SYS_APERTURE SYS_APERTURE_BANK) + (a - 0x80000))
  else .none

/-- Where an access of a master goes. The debug module and the loader see the map that all cores share (DESIGN CHOICE, log entry
104). -/
def placeOf (d : Dev) (m : Master) (a n : Nat) : MemPlace :=
  match m with
  | .core k => corePlace k.val a n
  | .host => hostPlace d a n
  | .debug | .boot =>
    if within a n 0x40000000 0x40080000 then .reg (a - 0x40000000) else sharedPlace a n

/-! ### Reading and writing memory -/

/-- Is an address in the counters region of MRAM, whose contents the spec does not lay out (R49)? -/
def isCounter (a : Nat) : Bool := decide (0x60110000 ≤ a ∧ a < 0x60111000)

/-- Is an address a TCM alias of a lockstep checker (R392)? -/
def isCheckerTcm (d : Dev) (a : Nat) : Bool := touchesChecker d a 1

/-- One byte as a master reads it: 0 at a checker's alias, a free value in the counters region (log entry 21). -/
def readByte (mem : Memory) (a : Nat) (d : Dev) : Byte × Dev :=
  if isCheckerTcm d a then (0, d)
  else if isCounter a then
    let (w, d1) := draw d
    (BitVec.ofNat 8 w.toNat, d1)
  else (memRead mem a, d)

/-- n bytes from an address on. -/
def readBytes (mem : Memory) : Nat → Nat → Dev → List Byte × Dev
  | _, 0, d => ([], d)
  | a, n + 1, d =>
    let (b, d1) := readByte mem a d
    let (bs, d2) := readBytes mem (a + 1) n d1
    (b :: bs, d2)

/-- Bytes written by a master; what falls on a checker's alias is discarded and sets UNMAPPED (R392). -/
def writeBytes (m : Master) (a : Nat) (bytes : List Byte) (d : Dev) : Dev :=
  if touchesChecker d a bytes.length then
    let put := forEach (bytes.zipIdx.filter (fun p => !isCheckerTcm d (a + p.2))) (fun p e => memPut (a + p.2) [p.1] e) d
    accessErr .unmapped m a put
  else memPut a bytes d

/-- Does a range touch a region of MRAM that is closed to the master (R49, R50)? -/
def closedMram (a n : Nat) : Bool := n != 0 && touchesClosed a n

/-! ### ECC (R48) -/

/-- Does the memory at an address carry ECC: all SRAM (R47)? -/
def hasEcc (a : Nat) : Bool := !isMram a

/-! ### An access -/

/-- A read that meets an uncorrectable error ends in an access fault, for the host in Completer Abort, which AER logs as bit 15 of its
status (R48, R128; the bit PRESUMED, log entry 235). -/
def readFault (m : Master) (addr : Nat) (d : Dev) : Dev :=
  let d1 := match m with
    | .host => { d with hif := { d.hif with space := { d.hif.space with aer := Nat.lor d.hif.space.aer 0x8000 } } }
    | _ => d
  emit (.accessFault m addr) d1

/-- A read of memory at a core address: its value to the master, or an access fault and a record for an uncorrectable error. -/
def memoryRead (mem : Memory) (m : Master) (addr a n : Nat) (ecc : Ecc) (d : Dev) : Dev :=
  let d0 := match ecc with
    | .single => if hasEcc a then countEcc 1 d else d
    | _ => d
  if ecc = .double ∧ hasEcc a = true then readFault m addr (trigger 0x03 0x00 [a, m.num] d0)
  else
    let (bs, d1) := readBytes mem a n d0
    emit (.mem m addr bs) d1

/-- A write to memory: closed regions of MRAM keep their contents (R50). -/
def memoryWrite (m : Master) (a : Nat) (bytes : List Byte) (d : Dev) : Dev :=
  if closedMram a bytes.length then accessErr .roRegion m a d else writeBytes m a bytes d

/-- The registers that n bytes from an offset on touch, in ascending order. -/
def regsOf (off n : Nat) : List Nat := (List.range ((off + n + 3) / 4 - off / 4)).map (fun i => (off / 4 + i) * 4)

/-- Does a register window show memory that carries ECC: the loop and motion state SRAM behind the slot and table windows (R47)? -/
def regEcc (off : Nat) : Bool := decide (0x40000 ≤ off ∧ off < 0x80000)

/-- A read of a register is a whole-word read, whatever bytes it covers (R11); one of a window that shows SRAM meets what the SRAM's ECC
finds (R48). -/
def memoryRegRead (m : Master) (addr off : Nat) (ecc : Ecc) (d : Dev) : Dev :=
  if regEcc off then
    match ecc with
    | .good => regRead m off d
    | .single => regRead m off (countEcc 1 d)
    | .double => readFault m addr (trigger 0x03 0x28 [off, m.num] d)
  else regRead m off d

/-- A write of bytes to one register: all four of them, or a write that R11 discards. -/
def memoryRegWrite (mem : Memory) (m : Master) (off : Nat) (bs : List Byte) (r : Nat) (d : Dev) : Dev :=
  let part := (bs.zipIdx.filter (fun p => decide (r ≤ off + p.2 ∧ off + p.2 < r + 4))).map (·.1)
  (regWrite mem m (part.length == 4) false (if part.length = 4 then r else max r off) (BitVec.ofNat 32 (leNat part)) d).1

/-- An access to registers: each register that it touches is accessed by itself, in ascending order (R10, R11; DESIGN CHOICE for an
access that touches more than one, log entry 230). -/
def memoryReg (mem : Memory) (m : Master) (addr off : Nat) (q : MemReq) (ecc : Ecc) (d : Dev) : Dev :=
  match q with
  | .read n => forEach (regsOf off n) (fun r d => memoryRegRead m addr r ecc d) d
  | .write bs => forEach (regsOf off bs.length) (fun r d => memoryRegWrite mem m off bs r d) d

/-- The access, at the place where it goes; the range of R43 reads 0, discards writes, and sets UNMAPPED for both. -/
def memoryAccess (mem : Memory) (m : Master) (addr : Nat) (q : MemReq) (ecc : Ecc) (d : Dev) : Dev :=
  match placeOf d m addr q.len with
  | .mem a => (match q with
    | .read n => memoryRead mem m addr a n ecc d
    | .write bs => memoryWrite m a bs d)
  | .reg off => memoryReg mem m addr off q ecc d
  | .closed off => (match q with
    | .read n => emit (.mem m addr (List.replicate n 0)) (accessErr .unmapped m off d)
    | .write _ => accessErr .unmapped m off d)
  | .none => d

end Sys2Proof.Machine
end

