-- ==== Sys2Proof/Machine/Descriptor.lean ====
section
/-! DEFINITION. What the descriptors of the rings do (R142..R146, R153..R158). -/
namespace Sys2Proof.Machine
open Sys2Proof Sys2Proof.Reg

/-- The first n bytes of what the host memory holds; bytes that are not given are 0. -/
def firstBytes (n : Nat) (bs : List Byte) : List Byte := bs.take n ++ List.replicate (n - bs.length) 0

/-- The bytes that a descriptor reads from host memory, or its end with HOST_READ_ERR. -/
def withData (r : Nat) (e : FDesc) (x : HostRead (List Byte)) (f : List Byte → Dev → Dev) (d : Dev) : Dev :=
  match x with
  | .error => completeDesc r e.stamp 5 0 0 d
  | .data bs => f (firstBytes e.desc.length bs) d

/-- A descriptor completes with OK and a RESULT. -/
def descOk (r : Nat) (e : FDesc) (result : Nat) (d : Dev) : Dev := completeDesc r e.stamp 0 (BitVec.ofNat 32 result) 0 d

/-- NOP. -/
def descNop (r : Nat) (d : Dev) : Dev := withDesc r 0 (fun e d => descOk r e 0 d) d

/-- The writes of a list in order up to the first refused one: how many were accepted, and was one refused (R143)? -/
def listWrites (mem : Memory) : List (Nat × Nat) → Nat → Dev → Dev × Nat × Bool
  | [], n, d => (d, n, false)
  | (off, v) :: t, n, d =>
    match regWrite mem .host true false off (BitVec.ofNat 32 v) d with
    | (d1, none) => listWrites mem t (n + 1) d1
    | (d1, some _) => (d1, n, true)

/-- REG_WRITE_LIST. -/
def descWriteList (mem : Memory) (r : Nat) (x : HostRead (List Byte)) (d : Dev) : Dev :=
  withDesc r 1 (fun e d => withData r e x (fun bs d =>
    let ps := pairUp (words32 bs)
    if ps.any (fun p => decide (0x80000 ≤ p.1)) then completeDesc r e.stamp 3 0 0 d
    else
      let (d1, n, bad) := listWrites mem ps 0 d
      completeDesc r e.stamp (if bad then 4 else 0) (BitVec.ofNat 32 n) 0 d1) d) d

/-- The registers of a list read in order. -/
def listReads : List Nat → Dev → List Byte × Dev
  | [], d => ([], d)
  | off :: t, d =>
    let (v, d1) := readReg .host off d
    let (bs, d2) := listReads t d1
    (leBytes 4 v.toNat ++ bs, d2)

/-- REG_READ_LIST: the values go to PARAM1. An offset at or above 0x8_0000 is a BAD_ADDRESS here too (DEDUCED, log entry 105). -/
def descReadList (r : Nat) (x : HostRead (List Byte)) (ecc : Ecc) (d : Dev) : Dev :=
  withDesc r 2 (fun e d => withData r e x (fun bs d =>
    let offs := (words32 bs).map (fun o => o / 4 * 4)
    if offs.any (fun o => decide (0x80000 ≤ o)) then completeDesc r e.stamp 3 0 0 d
    else
      -- a register window that shows SRAM meets what its ECC finds (R48)
      match ecc, offs.find? regEcc with
      | .double, some o => completeDesc r e.stamp 6 0 0 (trigger 0x03 0x28 [o, Master.host.num] d)
      | _, w =>
        let (out, d1) := listReads offs (if ecc = .single ∧ w.isSome then countEcc 1 d else d)
        descOk r e offs.length (hostPut e.desc.param1 out d1)) d) d

/-- MEM_WRITE: the range was checked before the descriptor started. -/
def descMemWrite (r : Nat) (x : HostRead (List Byte)) (d : Dev) : Dev :=
  withDesc r 3 (fun e d => withData r e x (fun bs d => descOk r e bs.length (writeBytes .host e.desc.devAddr bs d)) d) d

/-- MEM_READ; an uncorrectable error in device memory ends it with ECC (R48, R148). -/
def descMemRead (mem : Memory) (r : Nat) (ecc : Ecc) (d : Dev) : Dev :=
  withDesc r 4 (fun e d =>
    let a := e.desc.devAddr
    if ecc = .double ∧ hasEcc a = true then completeDesc r e.stamp 6 0 0 (trigger 0x03 0x00 [a, Master.host.num] d)
    else
      let d0 := if ecc = .single ∧ hasEcc a = true then countEcc 1 d else d
      let (bs, d1) := readBytes mem a e.desc.length d0
      descOk r e bs.length (hostPut e.desc.hostAddr bs d1)) d

/-- FENCE: it completes once its scope is met, with LIVE = 1 after the next COMMIT instant. -/
def descFence (r : Nat) (d : Dev) : Dev :=
  withDesc r 5 (fun e d => fenceStep r { e with started := true, wait := .scope } (startWaiting r e.stamp .scope d)) d

/-- CFG_CMD: a command that BUSY refuses completes at once; any other waits until BUSY is 0 (R145). -/
def descCfg (mem : Memory) (r : Nat) (d : Dev) : Dev :=
  withDesc r 6 (fun e d =>
    let cmd := e.desc.param0 % 16
    let refused := decide (1 ≤ cmd ∧ cmd ≤ 9) && rb d SYS_READY SYS_READY_CFG && d.cfg.job.isSome && !cfgOverrides cmd d.cfg.state
    let d1 := regPut mem .host CFG_CTRL (BitVec.ofNat 32 cmd) d
    if refused then completeDesc r e.stamp 8 0x00FFFF10#32 0 d1 else startWaiting r e.stamp .cfg d1) d

/-- A CFG_CMD that waits, once BUSY is 0: it reports CFG_FAULT and clears DONE and ERR. -/
def cfgWaitStep (r : Nat) (e : FDesc) (d : Dev) : Dev :=
  if e.wait = .cfg ∧ d.cfg.job.isNone then
    let bad := rb d CFG_STAT CFG_STAT_ERR
    let d1 := wf CFG_STAT CFG_STAT_DONE 0 (wf CFG_STAT CFG_STAT_ERR 0 d)
    ringPump r (completeDesc r e.stamp (if bad then 8 else 0) (rd d CFG_FAULT) 0 d1)
  else d

def cfgWaits (d : Dev) : Dev :=
  forEach (smKeys d.hif.rings) (fun r d => forEach ((getRing d r).q) (fun e d => cfgWaitStep r e d) d) d

/-- WORK_SUBMIT. -/
def descSubmit (r : Nat) (x : HostRead (List Byte)) (d : Dev) : Dev :=
  withDesc r 7 (fun e d => withData r e x (fun bs d =>
    match submitItem bs d with
    | (d1, .ok s) => descOk r e s d1
    | (d1, .error _) => completeDesc r e.stamp 9 0 0 d1) d) d

/-- RX_BUFFER: the buffer is posted. -/
def descRxBuffer (r : Nat) (d : Dev) : Dev :=
  withDesc r 0x10 (fun e d =>
    let g := getRing d r
    setRing r { g with q := g.q.map (fun x => if x.stamp = e.stamp then { x with posted := true } else x) } d) d

/-- ETH_TX: the frame goes to the switch with its priority; LINK_DOWN when every egress port is down. -/
def descEthTx (r : Nat) (x : HostRead (List Byte)) (d : Dev) : Dev :=
  withDesc r 0x11 (fun e d => withData r e x (fun bs d =>
    if allPortsDown d then completeDesc r e.stamp 0x0B 0 0 d
    else descOk r e bs.length (mgmtSend e.desc.param0 bs d)) d) d

/-- DESCRIPTOR_FETCH of ring r: the next descriptor, or a failed read of it (R138, R162). -/
def descFetch (r : Nat) (x : HostRead (List Byte)) (d : Dev) : Dev :=
  if canFetch d r then
    match x with
    | .data y => ringPump r (fetchDesc r (descOf y) d)
    | .error => fetchFailed r d
  else d

/-- PARTIAL_BUFFER_FLUSH: no record has arrived for FLUSH_US µs (R156). -/
def bufferFlush (r : Nat) (d : Dev) : Dev :=
  let us := rf d (HIF_RING_COAL r) HIF_RING_COAL_FLUSH_US
  match fillBuffer d r with
  | none => d
  | some e =>
    if us = 0 ∨ e.fill = 0 then d
    else completeBuffer r e 0 true (clockToNs (e.lastNs + us * 1000) d)

/-- COALESCING_TIMEOUT: the oldest unsignalled entry reaches TIME_US (R159). -/
def coalesce (r : Nat) (d : Dev) : Dev :=
  let g := getRing d r
  if g.unsig = 0 then d
  else ringSignal r (clockToNs g.due d)

end Sys2Proof.Machine
end

