-- ==== Sys2Proof/Machine/Funcs.lean ====
section
/-! DEFINITION. The state machine of the functions at a COMMIT instant (R97..R100, R113..R115): commands, faults, stops, restarts,
the arming swap and the disarms, with what each unit does at each change of state. -/
namespace Sys2Proof.Machine
open Sys2Proof Sys2Proof.Reg

/-- Bits 19:12 of the BAR0 base of the block that owns function x (R518). -/
def fnSrc (x : Nat) : Nat :=
  if x < 0x40 then 0x18 else if x < 0x80 then 0x1C else if x < 0xA0 then 0x20 else if x < 0xD0 then 0x24 else if x < 0x100 then 0x10
  else if x < 0x500 then 0x28 else if x < 0x508 then 0x2E else if x < 0x510 then 0x34 else if x < 0x518 then 0x36
  else if x < 0x520 then 0x3A else 0x08

/-- The device with function x in a state. -/
def putFnState (x : Nat) (s : FnState) (d : Dev) : Dev := setFn x { getFn d x with state := s } d

/-- Function x rejects a command (R98). -/
def fnReject (x : Nat) (d : Dev) : Dev := setFn x { getFn d x with rejected := true } (noteSet (CFG_FSTATE x) CFG_FSTATE_REJECTED 1 d)

/-! ### What the units do at a change of state -/

/-- Function x has become RUNNING at the COMMIT instant of tick n. -/
def fnStart (mem : Memory) (n x : Nat) (d : Dev) : Dev :=
  if x < 0x30 then fbkEnable x d
  else if x < 0x40 then emuEnable (x - 0x30) d
  else if x < 0x80 then mpgEnable (x - 0x40) d
  else if x < 0xA0 then stpEnable (x - 0x80) d
  else if x < 0xD0 then pwmEnable n (x - 0xA0) d
  else if x < 0xE0 then chanEnable (x - 0xD0) d
  else if x < 0x100 then barEnable (x - 0xE0) d
  else if x < 0x500 then slotEnable (x - 0x100) d
  else if x < 0x508 then acqStart (x - 0x500) d
  else if x = 0x508 then scnEnable mem d
  else if x < 0x518 then flkEnable (x - 0x510) d
  else if x = 0x51C then twnEnable d
  else if x < 0x524 then pulseActivate (x - 0x520) d
  else d

/-- The fault with which an ENABLE ends instead (R222, R268). -/
def fnStartFault (d : Dev) (x : Nat) : Option Nat :=
  if 0x30 ≤ x ∧ x < 0x38 then emuEnableFault d (x - 0x30)
  else if 0xD0 ≤ x ∧ x < 0xD4 then chanEnableFault d (x - 0xD0)
  else none

/-- Function x has become STOPPING: its stop starts, and may have nothing to end. -/
def fnStop (x : Nat) (d : Dev) : Dev :=
  if x < 0x30 then fbkDisable x d
  else if x < 0x40 then emuDisable (x - 0x30) d
  else if x < 0x80 then d
  else if x < 0xA0 then stpDisable (x - 0x80) d
  else if x < 0xD0 then pwmDisable (x - 0xA0) d
  else if x < 0xE0 then chanDisable (x - 0xD0) d
  else if x < 0x100 then barDisable (x - 0xE0) d
  else if x < 0x500 then slotDisable (x - 0x100) d
  else if x < 0x508 then acqDisable (x - 0x500) d
  else if x = 0x508 then scnDisable d
  else if x < 0x518 then flkDisable (x - 0x510) d
  else if x = 0x51C then twnDisable d
  else if x < 0x524 then pulseDisable (x - 0x520) d
  else stopDone x d

/-- Does a DISABLE of function x change nothing: a channel decelerates after the loss of its source (R223)? -/
def fnStopNone (d : Dev) (x : Nat) : Bool := decide (0xD0 ≤ x ∧ x < 0xD4) && (getChan d (x - 0xD0)).lost

/-- Function x has left RUNNING or STOPPING without a fault. -/
def fnLeave (x : Nat) (d : Dev) : Dev :=
  if x < 0x30 then d
  else if x < 0x40 then emuFault (x - 0x30) d
  else if x < 0x80 then mpgLeave (x - 0x40) d
  else if x < 0xA0 then stpLeave (x - 0x80) d
  else if x < 0xD0 then pwmLeave (x - 0xA0) d
  else if x < 0xE0 then chanLeave (x - 0xD0) d
  else if x < 0x500 then d
  else if x < 0x508 then acqLeave (x - 0x500) d
  else if 0x520 ≤ x ∧ x < 0x524 then pulseOff (x - 0x520) d
  else d

/-- Function x has entered FAULTED with a code. -/
def fnFaulted (x code : Nat) (d : Dev) : Dev :=
  if x < 0x30 then emuSourceFault x d
  else if x < 0x40 then emuFault (x - 0x30) d
  else if x < 0x80 then mpgLeave (x - 0x40) d
  else if x < 0xA0 then stpLeave (x - 0x80) d
  else if x < 0xD0 then pwmFaulted (x - 0xA0) code d
  else if x < 0xE0 then chanFault (x - 0xD0) d
  else if x < 0x100 then d
  else if x < 0x500 then slotFaulted (x - 0x100) d
  else if x < 0x508 then acqLeave (x - 0x500) d
  else if x = 0x508 then scnHalt d
  else if x < 0x518 then flkFaulted (x - 0x510) d
  else if x = 0x51C then twnFaulted d
  else if x < 0x524 then pulseOff (x - 0x520) d
  else d

/-- Does the converter of one of channel j's sense inputs deliver no results: its reference is in error (R306, R363)? -/
def stpMute (d : Dev) (j : Nat) : Bool :=
  refErr d (rf d (STP_SENSE j) STP_SENSE_AIN_A / 24) || refErr d (rf d (STP_SENSE j) STP_SENSE_AIN_B / 24)

/-- Is the cause of a fault of function x still present (R98)? PIN_SUPPLY is gone when the bank's level matches EXPb (R86). -/
def fnCause (d : Dev) (x code : Nat) : Bool :=
  let pins := code == 1 && !supplyOk d x
  if x < 0x30 then pins || fbkCause d x code
  else if x < 0x40 then pins || emuCause d (x - 0x30) code
  else if x < 0x80 then mpgCause d (x - 0x40) code
  else if x < 0xA0 then pins || code == 4 && stpMute d (x - 0x80)
  else if x < 0xD0 then pins || code == 2 && fltActive d (x - 0xA0)
  else if x < 0xE0 then chanCause d (x - 0xD0) code
  else if x < 0x100 then pins
  else if x < 0x500 then slotCause d (x - 0x100) code
  else if x < 0x510 then false
  else if x < 0x518 then flkCause d (x - 0x510) code
  else if x = 0x51C then twnCause d code
  else pins

/-- Function x has left FAULTED. -/
def fnCleared (x code : Nat) (d : Dev) : Dev :=
  if 0x100 ≤ x ∧ x < 0x500 then slotCleared (x - 0x100) code d
  else if 0xA0 ≤ x ∧ x < 0xD0 then pwmLeave (x - 0xA0) d
  else if 0xD0 ≤ x ∧ x < 0xD4 then chanRetrack (x - 0xD0) (chanLeave (x - 0xD0) d)
  else if 0x510 ≤ x ∧ x < 0x518 then flkArm (x - 0x510) d
  else d

/-- Function x has entered ARMED from READY or STOPPING: a field-link port sends its parameters (R455). -/
def fnArmed (x : Nat) (d : Dev) : Dev := if 0x510 ≤ x ∧ x < 0x518 then flkArm (x - 0x510) d else d

/-- Function x has left ARMED, RUNNING or STOPPING for READY: the scan engine has no output image (R435). -/
def fnDisarmed (x : Nat) (d : Dev) : Dev := if x = 0x508 then scnHalt d else d

/-! ### The transitions (R98, R99) -/

/-- Function x enters FAULTED (R98, R518). -/
def enterFault (x code : Nat) (d : Dev) : Dev :=
  let d1 := setFn x { getFn d x with state := .faulted, fault := code, restart := false } d
  let d2 := { d1 with ffaults := smDel d1.ffaults x, fstops := d1.fstops.filter (· != x) }
  trigger 0x05 (fnSrc x) [x, code] (fnFaulted x code d2)

/-- The faults that wait are entered; a function that has left ARMED, RUNNING and STOPPING has none. -/
def faultsEnter (d : Dev) : Dev :=
  let waiting := d.ffaults
  forEach waiting (fun e d =>
    match (getFn d e.1).state with
    | .armed | .running | .stopping => enterFault e.1 e.2.1 d
    | _ => d) { d with ffaults := [] }

/-- Function x becomes RUNNING, or FAULTED at the same instant. -/
def fnRun (mem : Memory) (n x : Nat) (d : Dev) : Dev :=
  let d1 := setFn x { getFn d x with state := .running, restart := false } d
  match fnStartFault d x with
  | some c => enterFault x c d1
  | none => fnStart mem n x d1

/-- DISABLE of a RUNNING function. -/
def fnDisable (x : Nat) (d : Dev) : Dev := if fnStopNone d x then d else fnStop x (putFnState x .stopping d)

/-- Does the configuration refuse an ENABLE: a controlled disarm has taken effect (R114)? -/
def enableBarred (d : Dev) : Bool := match d.cfg.job with | some (.disarm acted) => acted | _ => false

/-- CLEAR_FAULT of a FAULTED function whose cause has gone. -/
def fnClear (x : Nat) (d : Dev) : Dev :=
  let f := getFn d x
  let armed := f.included && (match d.cfg.state with | .armed | .disarming => true | _ => false)
  fnCleared x f.fault (setFn x { f with state := if armed then .armed else .ready, fault := 0 } d)

/-- One command at the COMMIT instant of tick n (R98). -/
def fnAct (mem : Memory) (n x : Nat) (c : FnCmd) (d : Dev) : Dev :=
  let f := getFn d x
  match c, f.state with
  | .enable, .armed => if enableBarred d then fnReject x d else fnRun mem n x d
  | .enable, .stopping => if enableBarred d then fnReject x d else setFn x { f with restart := true } d
  | .disable, .running => fnDisable x d
  | .disable, .stopping => setFn x { f with restart := false } d
  | .clearFault, .faulted => if fnCause d x f.fault then fnReject x d else fnClear x d
  | _, _ => fnReject x d

/-- The commands that transfer, by ascending function index. -/
def fnCommands (mem : Memory) (n : Nat) (d : Dev) : Dev :=
  forEach d.fcmds (fun e d => fnAct mem n e.1 e.2 d) { d with fcmds := [] }

/-- A stop is complete: the function is ARMED; a queued restart runs at the next COMMIT instant. -/
def fnStopped (x : Nat) (d : Dev) : Dev :=
  if fnIs d x .stopping then fnArmed x (fnLeave x (putFnState x .armed { d with fstops := d.fstops.filter (· != x) })) else d

/-- A restart queued at an earlier COMMIT instant (R99). -/
def fnRestart (mem : Memory) (n x : Nat) (d : Dev) : Dev :=
  let f := getFn d x
  if f.state = .armed ∧ f.restart then fnRun mem n x d else d

/-- OFF to READY: the functions of the units that have reported ready (R98). -/
def unitsUp (d : Dev) : Dev :=
  forEach d.sys.newReady (fun bit d =>
    forEach (unitFns bit) (fun r d => forUpTo r.2 (fun i d => if fnIs d (r.1 + i) .off then putFnState (r.1 + i) .ready d else d) d) d)
    { d with sys := { d.sys with newReady := [] } }

/-! ### Arming and disarming (R113..R115) -/

/-- The gate lists that are in force at a swap at TB time t stay so until their cycle ends (R183). -/
def gatesKeep (t : Nat) (d : Dev) : Dev := forUpTo 3 (gateKeep t) d

/-- The arming COMMIT instant (R113): the arming swap, then ARMED; a READY run of an acquisition unit ends (R385); a SAFETY section
comes into force if the island still accepts it (R477); loop slots deliver (R332). -/
def armNow (d : Dev) : Dev :=
  let d1 := setStale allClasses false (draftsToLive allClasses (gatesKeep (d.tick * tickP d + tickP d - 1500 * nsUnits) d))
  let d2 := match d1.cfg.safety with
    | some c => if safAccepts d1.saf c then safInForce c d1 else d1
    | none => d1
  let d3 := forUpTo 8 (fun u d => if rb d (ACQ_STAT u) ACQ_STAT_RUN then acqLeave u d else d) d2
  let d4 := setCfgState .armed d3
  let d5 := forEach (inclFns d4) (fun x d => if fnIs d x .ready then fnArmed x (putFnState x .armed d) else d) d4
  cfgEnd 0 0 0 (lpeBudget (lpeArm (adcArm d5)))

/-- Every included function that is not FAULTED passes to READY; control-plane items go (R114, R115, R396). -/
def disarmAll (d : Dev) : Dev :=
  let d1 := forEach (inclFns d) (fun x d =>
    let f := getFn d x
    let d0 := setFn x { f with state := .ready, restart := false } { d with fstops := d.fstops.filter (· != x) }
    match f.state with
    | .armed => fnDisarmed x d0
    | .running | .stopping => fnDisarmed x (fnLeave x d0)
    | _ => d) d
  cfgEnd 0 0 0 (schDisarm (setCfgState .loaded d1))

/-- DISARM takes effect: DISABLE on every RUNNING included function; queued restarts are dropped (R114). -/
def disarmAct (d : Dev) : Dev :=
  forEach (inclFns d) (fun x d =>
    let f := getFn d x
    match f.state with
    | .running => fnDisable x d
    | .stopping | .armed => if f.restart then setFn x { f with restart := false } d else d
    | _ => d) (setJob (.disarm true) d)

/-- Does an included function still run or stop? -/
def disarmBusy (d : Dev) : Bool := (inclFns d).any (fnActive d)

/-- The function states at the COMMIT instant of tick n. Stops that are complete are those known before the commands act: a stop
with nothing to end is seen as STOPPING until the next COMMIT instant (R98; DEDUCED, log entry 110). -/
def fnCommit (mem : Memory) (n : Nat) (d : Dev) : Dev :=
  let stops := sortNat d.fstops
  let restarts := d.fns.filterMap (fun e => if e.2.state = .armed ∧ e.2.restart then some e.1 else none)
  let d1 := faultsEnter (fnCommands mem n d)
  let d2 := match d1.cfg.job with
    | some (.disarm false) => disarmAct d1
    | some .disarmNow => disarmAll d1
    | _ => d1
  let d3 := unitsUp (forEach restarts (fnRestart mem n) (forEach stops fnStopped d2))
  match d3.cfg.job with
  | some (.armSwap t) => if n = t then d3 else armNow d3
  | some (.disarm true) => if disarmBusy d3 then d3 else disarmAll d3
  | _ => d3

end Sys2Proof.Machine
end

