-- ==== Sys2Proof/Machine/Tick.lean ====
section
/-! DEFINITION. The tick (R26, R28, R32, R119, R120, R544): its three phase boundaries and what every block does there. In BREEZE
only the blocks that it keeps take part (R506). -/
namespace Sys2Proof.Machine
open Sys2Proof Sys2Proof.Reg

/-! ### Staged registers (R32..R34) -/

/-- The accepted value of a staged register transfers; with a high word goes its low word. -/
def transfer1 (off : Nat) (d : Dev) : Dev :=
  let d1 := wrLive off (rd d off) d
  match lowOf off with
  | some l => wrLive l (rd d l) d1
  | none => d1

def transferAll (d : Dev) : Dev := forEach d.staged transfer1 d

/-! ### The swap (R117..R122) -/

/-- The classes of MASK. -/
def swapClasses (q : SwapReq) : List Nat := allClasses.filter (fun c => q.mask / 2 ^ c % 2 == 1)

/-- Has the SAMPLE-latched position of the swap's master reached AT (R119, R225)? -/
def swapReached (d : Dev) (q : SwapReq) : Bool :=
  chanRuns d q.master && decide (q.pt ≤ (getChan d q.master).pos / 4294967296)

/-- The swap takes place at offset 0 of tick n (R120, R122, R123). -/
def swapNow (n : Nat) (q : SwapReq) (d : Dev) : Dev :=
  let cs := swapClasses q
  let d1 := if cs.contains 0 then gatesKeep (n * tickP d) d else d
  let d2 := setStale cs true (banksSwap cs d1)
  let d3 := if cs.contains 1 then lpeSwapped d1 d2 else d2
  let d4 := lpeBudget d3
  swapEnd true 0 (wr CFG_SWAP_TICK_HI (BitVec.ofNat 32 (n / 4294967296)) (wr CFG_SWAP_TICK_LO (BitVec.ofNat 32 n) d4))

/-- A PENDING swap at offset 0 of tick n. -/
def swapTick (n : Nat) (d : Dev) : Dev :=
  match d.cfg.swap with
  | none => d
  | some q =>
    if q.web then
      if q.timeout ≠ 0 ∧ q.tickA + q.timeout < n then swapEnd false 3 d
      else if q.checked && swapReached d q then swapNow n q d else d
    else if q.checked && decide (q.pt = n) then swapNow n q d
    else if q.pt ≤ n then swapEnd false 2 d
    else d

/-- The checks of a tick-mode swap have not ended before the COMMIT instant of tick AT − 1 (R119). -/
def swapLate (n : Nat) (d : Dev) : Dev :=
  match d.cfg.swap with
  | some q => if !q.web && !q.checked && decide (q.pt ≤ (n + 1 : Nat)) then swapEnd false 2 d else d
  | none => d

/-! ### Offset 0 -/

/-- The number of the next tick to start: after a step or a change of period the first one whose start TB time has not yet reached
(R26, R544). -/
def nextTickNum (d : Dev) : Nat :=
  match d.phase with
  | .none => d.tick
  | _ => d.tick + 1

/-- SAMPLE of the control and data planes in tick n (R28, R119, R120, R243, R262, R291, R299, R345, R362, R371, R448, R498). -/
def samplePlanes (n : Nat) (d : Dev) : Dev :=
  let t := n * tickP d
  let d1 := wpuSample t (fbkSample t d)
  let d2 := swapTick n d1
  let d3 := lpeSample (flkSample (sdLatch t d2))
  acqTick n (t / nsUnits) (stpTick n (twnAlign n d3))

/-- Offset 0 of the next tick; the states of the Celivo streams of this SAMPLE instant (R195) come before those who use them (R222). -/
def sampleStart (d : Dev) : Dev :=
  let n := nextTickNum d
  let d0 := clockRaw (n * tickP d) d
  let d1 := if tbRuns d0 && clocked d0 then wpuSync (n * tickP d / nsUnits) d0 else d0
  let d2 := { d1 with phase := .sample, tick := n }
  let d3 := celSample n d2
  celTick (if clocked d3 then samplePlanes n d3 else d3)

/-! ### Offset 1,250 ns -/

/-- COMPUTE of the present tick (R28, R274, R319, R359); `ecc`: slots whose state shows an uncorrectable error (R342); `corr`: single-bit
errors that the loop engine corrects (R48); `late`: trace units whose records of this tick the data plane cannot write in time (R344). -/
def computeStart (ecc : List Nat) (corr : Nat) (late : List Nat) (d : Dev) : Dev :=
  let d0 := clockTo (d.tick * tickP d + 1250 * nsUnits) d
  let d1 := { d0 with phase := .compute, lpe := { d0.lpe with late := late } }
  if clocked d1 then lpeCompute d1.tick (slotsEcc ecc d1.tick (countEcc corr (mpgCompute (sarLatch d1)))) else d1

/-! ### Offset P − 1,500 ns -/

/-- A loop step of the tick at whose COMMIT instant DISARM_NOW acts does not transfer (R341; DEDUCED, log entry 111). -/
def slotsDrop (d : Dev) : Dev :=
  match d.cfg.job with
  | some .disarmNow => forEach (inclSlots d) (fun s d => if (getSlot d s).out.isSome then setSlot s { getSlot d s with out := none } d else d) d
  | _ => d

/-- The results of the blocks that transfer at the COMMIT instant of tick n. -/
def transferPlanes (n : Nat) (d : Dev) : Dev :=
  let d1 := slotsDrop (wpuCommit (mpgCommit (transferAll d)))
  let d2 := lpeResets (lpeCommit n d1)
  flkStops (scnCommit (stpStops n (pwmCommit n { d2 with staged := [] })))

/-- What follows the changes of function states: bars whose channel has come back, holds of stop requests, outputs (R84, R240, R287,
R300, R365, R447). -/
def afterFns (was d : Dev) : Dev :=
  let d1 := forUpTo 4 (fun c d => if chanRuns d c && !chanRuns was c then barsBack c d else d) d
  let d2 := stpStandstill (mpgAfter d1)
  flkOutputs (pinsBack (tdacCommit (barFlags d2)))

/-- The owner's mirrored writes that transfer at the COMMIT instant of the next tick (R499). -/
def twnWrites (mem : Memory) (n : Nat) (d : Dev) : Dev :=
  let due := d.twn.writes.filter (fun w => !tickAfter w.2.2 ((n + 1) % 4294967296) || w.2.2 == (n + 1) % 4294967296)
  forEach due (fun w d => (regWrite mem .host true true w.1 w.2.1 d).1)
    (modTwn (fun t => { t with writes := t.writes.filter (fun w => !(due.contains w)) }) d)

/-- The COMMIT instant of tick n in the control, data and management planes. -/
def commitPlanes (mem : Memory) (n : Nat) (d : Dev) : Dev :=
  let d1 := transferPlanes n (celStops (swapLate n d))
  let d2 := afterFns d (fnCommit mem n d1)
  schDeadlines (fencesCommit n (n * tickP d + tickP d - 1500 * nsUnits) (twnCommit n d2))

/-- The COMMIT instant of the present tick (R32). -/
def commitInstant (mem : Memory) (d : Dev) : Dev :=
  let n := d.tick
  let d1 := { (clockTo (n * tickP d + tickP d - 1500 * nsUnits) d) with phase := .commit }
  if clocked d1 then
    twnWrites mem n (evrCommit readValue n (twnHello n (celCommit n (commitPlanes mem n d1))))
  else evrCommit readValue n (celCommit n (celStops d1))

/-! ### The boundaries in their order -/

/-- The next phase boundary. -/
def phaseStep (mem : Memory) (d : Dev) : Dev :=
  match d.phase with
  | .sample => computeStart [] 0 [] d
  | .compute => commitInstant mem d
  | _ => sampleStart d

/-- How many boundaries come before the next tick start, COMPUTE start or COMMIT instant, and it: 1 where it is the next one. -/
def stepsTo (p : Phase) (want : Nat) : Nat :=
  let here := match p with | .sample => 0 | .compute => 1 | _ => 2
  (want + 2 - here) % 3 + 1

/-- The next boundary of a kind (0 the tick start, 1 COMPUTE, 2 COMMIT), which is `f`. Boundaries that the sender left out come first,
since each tick has all its phases (R28). -/
def boundaryTo (mem : Memory) (want : Nat) (f : Dev → Dev) (d : Dev) : Dev :=
  if tbRuns d && awake d then
    let e := clockTo 0 d
    f (forUpTo (stepsTo e.phase want - 1) (fun _ d => phaseStep mem d) e)
  else d

end Sys2Proof.Machine
end

