-- ==== Sys2Proof/Machine/Run.lean ====
section
/-! DEFINITION. What every command has in common: its change of the device, what the device then does of itself at the same instant
(R145, R153, R225, R242, R384, R404, R415, R466, R519), and the change of memory. -/
namespace Sys2Proof.Machine
open Sys2Proof Sys2Proof.Reg

/-! ### Position-scheduled events (R225) -/

/-- The slots of items whose position release point channel c has reached. -/
def itemsAt (c : Nat) (d : Dev) : List Nat :=
  (d.sch.items.filter (fun e => e.2.master == c && !e.2.relReached && itemAt d e.2)).map (·.1)

/-- The events of channel c that a jump, or its return to RUNNING, has left behind (R225): each block's own rule applies. -/
def lookAt (c : Nat) (d : Dev) : Dev :=
  let d1 := forUpTo 4 (fun k d => if pulseFollows d k c && fnIs d (fnPulse k) .running then pulseBehind k d else d) d
  let d2 := acqLook c (barsJumped c d1)
  forEach (itemsAt c d2) (fun s d => relPoint s true d) d2

/-- The looks that the web phase unit asks for. -/
def looks (d : Dev) : Dev := forEach d.wpu.look lookAt { d with wpu := { d.wpu with look := [] } }

/-- Forward motion has brought channel c to scheduled events: pulses and work items (R177, R225, R400). -/
def eventsReached (c : Nat) (d : Dev) : Dev :=
  let d1 := forUpTo 4 (fun k d => if pulseFollows d k c then pulseReached 256 k d else d) d
  forEach (itemsAt c d1) (fun s d => relPoint s false d) d1

/-! ### Release lists (R404) -/

/-- The release pairs that wait are issued in order as the host master; a refused one sets REL_REFUSED. -/
def issueReleases (mem : Memory) : Nat → Dev → Dev
  | 0, d => d
  | n + 1, d =>
    match d.sch.relOut with
    | [] => d
    | p :: rest =>
      let d1 := { d with sch := { d.sch with relOut := rest } }
      let (d2, k) := regWrite mem .host true false p.1 p.2 d1
      issueReleases mem n (if k.isSome then wf SCH_ERR SCH_ERR_REL_REFUSED 1 d2 else d2)

/-- Spawns that wait for a slot (R399). -/
def schWaits (d : Dev) : Dev := if d.sch.items.any (fun e => e.2.spawnWait) then respawn d else d

/-! ### One command -/

/-- What the device does of itself at the instant of a command. -/
def settle (mem : Memory) (d : Dev) : Dev :=
  let d1 := if clocked d then scnSync d else d
  let d2 := acqSettle (acqBarRecs (looks d1))
  let d3 := schWaits (issueReleases mem 20000 d2)
  let d4 := acqRings d3
  let d5 := forUpTo 4 (fun k d => canDrain ((getCan d k).fifo.length) k d) d4
  let d6 := eddyDrain (d5.sch.eddy.length) d5
  evrCapture readValue (cfgWaits (fencesSettle d6))

/-- The operations on memory that the device asked for, in order. -/
def applyMem (ops : List MemOp) (m : Memory) : Memory :=
  ops.foldl (fun m o => match o with
    | .write a bs => memWriteN m a bs
    | .clearSram => memClearSram m) m

/-- The device while a command has its effect, on a clock of its own: `accepts` says whether the host accepts the endpoint's writes (HOST_WR_ERR,
CQ_WRITE_ERR). -/
def hostHears (accepts : Bool) (d : Dev) : Dev := { d with sets := [], clash := [], hif := { d.hif with wrRefused := !accepts } }

/-- The machine once a command has changed its device: what follows from the change comes about, memory takes what the device asked
for; the queue is not touched. -/
def State.after (s : State) (d : Dev) : State :=
  let d1 := settle s.mem d
  { s with dev := { d1 with memq := [], hif := { d1.hif with wrRefused := false } }, mem := applyMem d1.memq s.mem }

/-- A command's change of the device, with what follows from it. -/
def State.runHost (accepts : Bool) (f : Memory → Dev → Dev) (s : State) : State := s.after (f s.mem (hostHears accepts s.dev))

/-- A command in whatever power state (R506). -/
def State.run (f : Memory → Dev → Dev) (s : State) : State := s.runHost true f

/-- A command that has its effect while a condition of the device holds. -/
def State.runIf (p : Dev → Bool) (accepts : Bool) (f : Memory → Dev → Dev) (s : State) : State :=
  s.runHost accepts (fun m d => if p d then f m d else d)

/-- A command that has its effect while the control, data and management planes have their clocks (R506). -/
def State.runClocked (accepts : Bool) (f : Memory → Dev → Dev) (s : State) : State := s.runIf clocked accepts f

/-- A command that has its effect in GALE and BREEZE (R506). -/
def State.runAwake (accepts : Bool) (f : Memory → Dev → Dev) (s : State) : State := s.runIf awake accepts f

/-- May a master act? The host while the endpoint is not held in reset (R65) and in D0, and the debug module, in GALE and BREEZE; a core and the loader while their plane has its clock
(R506, R511). -/
def masterActs (m : Master) (d : Dev) : Bool :=
  match m with
  | .host => awake d && !d.sys.perstLow && !d.hif.space.d3hot
  | .debug => awake d
  | .core _ | .boot => clocked d

/-- The device at an access on the clock of the command before it, whose hardware sets take precedence (R16; log entry 4). -/
def sameClock (same : Bool) (s : State) (d : Dev) : Dev := if same then { d with clash := s.dev.sets } else d

/-- A command of a master. -/
def State.runFor (m : Master) (accepts : Bool) (f : Memory → Dev → Dev) (s : State) : State := s.runIf (masterActs m) accepts f

end Sys2Proof.Machine
end

