-- ==== Sys2Proof/Machine/Due.lean ====
section
/-! DEFINITION. The events that come at an instant which the device computes itself: the clock moves to the instant, then the event
has its effect; an event that is not due has none. -/
namespace Sys2Proof.Machine
open Sys2Proof Sys2Proof.Reg

/-- `f` at TB time t (units), once the clock has moved there; nothing when no instant is due. -/
def atDue (t : Option Nat) (f : Dev → Dev) (d : Dev) : Dev :=
  match t with
  | some t => f (clockTo t d)
  | none => d

/-- The TB ns that a line sampled at TB ns `t` is stamped with: that of its 1 GHz phase (R543); 0 before TB runs (R245). -/
def stampNs (d : Dev) (t : Nat) : Nat := if tbRuns d then phaseNs d t else 0

/-! ### Web phase unit -/

/-- The instant at which an encoder source stands still, in ns: it has counted no edge for STILL_US µs (R214). -/
def standstillDue (d : Dev) (c : Nat) (b : Bool) : Option Nat :=
  let t := if b then (getChan d c).encB else (getChan d c).encA
  if t.still || srcKind d c b != 1 then none else some (t.te + stillNs d c)

/-- ENCODER_STANDSTILL: the channel declares standstill (R214). -/
def chanStandstill (c : Nat) (b : Bool) (d : Dev) : Dev :=
  match standstillDue d c b with
  | some ns => let d1 := clockToNs ns d; chanSync (tbNs d1) c d1
  | none => d

/-- FIRE_PULSE_END: the oldest committed pulse of bar b ends (R233). -/
def barPulseDue (b : Nat) (d : Dev) : Dev :=
  atDue ((getBar d b).pulses.head?.map (fun p => (p.2 * nsUnits + 999) / 1000)) (barPulseEnd b) d

/-- DELAY_LINE_CALIBRATION: DL_CAL once a calibration has found every tap good; a bad tap sets DL_ERR, and the last good
calibration stays (WPU_STAT). -/
def delayLine (ok : Bool) (d : Dev) : Dev :=
  if ok then wf WPU_STAT WPU_STAT_DL_CAL 1 d else wf WPU_STAT WPU_STAT_DL_ERR 1 d

/-! ### Feedback and motion -/

/-- The TB ns at which the filter of interface k passes a level whose synchronised change falls on TB ns `s` and lasts `hold` ns: the
FILT_N-th filter clock strictly after it; none where the level has not held until then (R245). -/
def fbkFiltered (d : Dev) (k s hold : Nat) : Option Nat :=
  let n := rf d (FBK_CFG k) FBK_CFG_FILT_N
  let tf := 4 ^ rf d (FBK_CFG k) FBK_CFG_FILT_PRE
  let u := if n = 0 then s else (s / tf + n) * tf
  if n = 0 ∨ u < s + hold then some u else none

/-- Pad levels of interface k's lines that begin at TB ns t and last `hold` ns: the device with its pads, and for each line that shows the
level inside the TB ns at which its filter passes it: the pad filter, 3 ns of synchroniser, the interface's own filter (R81, R245, R246). -/
def fbkArrive (k t hold : Nat) : List (Nat × Bool) → Dev → Dev × List (Nat × Nat × Bool)
  | [], d => (d, [])
  | (sig, l) :: r, d =>
    let n := 3 * k + sig
    let (d1, x) := pinInput n (.fb k sig) l hold d
    let (d2, xs) := fbkArrive k t hold r d1
    match x, fbkFiltered d k (t + 4 * rf d (MFP_PIN n) MFP_PIN_FILT + 3) hold with
    | some v, some u => (d2, (u, sig, v) :: xs)
    | _, _ => (d2, xs)

/-- The lines of interface k with some of them changed: bit (width − 1 − signal number) of the decoder's state. -/
def fbkLinesWith (width : Nat) (xs : List (Nat × Nat × Bool)) (lines : Nat) : Nat :=
  xs.foldl (fun w x =>
    let b := 2 ^ (width - 1 - x.2.1)
    if (w / b % 2 == 1) == x.2.2 then w else if x.2.2 then w + b else w - b) lines

/-- The samples at which filtered levels of interface k change, in their order; levels that change in the same sample change together
(R249). `f` is what the sample does. -/
def fbkSamplesAt (f : Nat → List (Nat × Nat × Bool) → Dev → Dev) (xs : List (Nat × Nat × Bool)) (d : Dev) : Dev :=
  forEach (sortNat (xs.map (·.1)).eraseDups) (fun u d =>
    let e := clockToNs u d
    f (stampNs e u) (xs.filter (fun x => x.1 == u)) e) d

/-- Levels at the pads of interface k from TB ns t on: A and B, or U, V and W. -/
def fbkPads (k width t hold : Nat) (ls : List (Nat × Bool)) (f : Nat → Nat → Dev → Dev) (d : Dev) : Dev :=
  let (d1, xs) := fbkArrive k t hold ls (clockToNs t d)
  fbkSamplesAt (fun ts ys d => f ts (fbkLinesWith width ys (rawFbk d k).lines) d) xs d1

/-- QUADRATURE_EDGE: the levels of A and B at the pads. -/
def quadInput (k : Nat) (a b : Bool) (t hold : Nat) (d : Dev) : Dev :=
  fbkPads k 2 t hold [(0, a), (1, b)] (fun ts lines d => fbkQuad k ts lines d) d

/-- HALL_TRANSITION: the levels of U, V and W at the pads. -/
def hallInput (k uvw t hold : Nat) (d : Dev) : Dev :=
  fbkPads k 3 t hold [(0, uvw / 4 % 2 == 1), (1, uvw / 2 % 2 == 1), (2, uvw % 2 == 1)] (fun ts lines d => fbkHall k ts lines d) d

/-- INDEX_QUALIFIED: the level of Z at its pad. -/
def indexInput (k : Nat) (z : Bool) (t hold : Nat) (d : Dev) : Dev :=
  let (d1, xs) := fbkArrive k t hold [(2, z)] (clockToNs t d)
  fbkSamplesAt (fun ts ys d => forEach ys (fun y d => fbkZ k ts y.2.2 d) d) xs d1

/-- SSI_FRAME_START at n × P − 64 × LEAD ns (R259). -/
def ssiStartNext (k : Nat) (dataHigh : Bool) (d : Dev) : Dev :=
  let run := match (getFn d k).state with | .running | .faulted => true | _ => false
  let t := ssiStartDue d k
  atDue (if decide (fbkMode d k = 3) && run && !(rawFbk d k).busy then some t else none) (ssiStart k t dataHigh) d

/-- SSI_FRAME_END at the end check (R258, R260). -/
def ssiEndNext (k g ext : Nat) (endHigh : Bool) (d : Dev) : Dev :=
  let x := rawFbk d k
  atDue (if x.busy then some (x.t0 + ssiLen d k * nsUnits) else none) (ssiEnd k g ext endHigh) d

/-- EMU_STEP at the next step slot, while there is a step or a Z to give (R265, R266). -/
def emuNext (e : Nat) (d : Dev) : Dev :=
  let x := getEmu d e
  let busy := x.backlog != 0 || x.zWait
  atDue (if fnActive d (fnEmu e) && busy then some (emuDue d e * nsUnits) else none) (emuStep e) d

/-- STEP_PULSE: the next step of generator m's step output: a timer step on its ns of the 1 GHz phase, any other at its edge (R290,
R291). -/
def stepNext (m : Nat) (d : Dev) : Dev :=
  match stepDue d m with
  | some (t, s) =>
    let e := clockTo t d
    let ns := if rb d (MPG_STAT m) MPG_STAT_STEP_TIMER then t / nsUnits else tbNs e
    mpgEmit m s (setMpg m { getMpg e m with stepNs := ns } e)
  | none => d

/-- OFF_PHASE_END of a coil (R303). -/
def offNext (j : Nat) (coilB : Bool) (d : Dev) : Dev :=
  let x := getStp d j
  atDue (offDue d j (if coilB then x.b else x.a)) (stpOffEnd j coilB) d

/-- PWM_RELOAD at the next reload instant (R307, R310, R314). -/
def reloadNext (p : Nat) (d : Dev) : Dev := atDue (reloadDue d p) (pwmReload p) d

/-- REF_EDGE at the next compare instant (R307). -/
def refNext (p : Nat) (d : Dev) : Dev := atDue (refDue d p) (pwmRefEdge p) d

/-- PWM_FAULT_INPUT: fault input g's pin takes a level at TB ns t; its filter passes it, or removes one that is shorter (R81, R313). -/
def fltInput (g : Nat) (level : Bool) (t hold : Nat) (d : Dev) : Dev :=
  let n := 240 + g
  let (d1, _) := pinInput n (.flt g) level hold (clockToNs t d)
  fltSync (clockTo (d1.tb + pinFilt d1 n) d1)

/-- DEAD_TIME_END of one output (R311, R313). -/
def deadNext (p : Nat) (outB : Bool) (d : Dev) : Dev := atDue (deadDue d p outB) (pwmDeadEnd p) d

/-! ### Analog and acquisition -/

/-- The instant of TRG entry e that has not been taken yet (R354). -/
def trgDue (d : Dev) (c e : Nat) : Option Nat :=
  match smGet (getSar d c).trgLast e with
  | some l => trgNext d c e (max d.tb (l + 1))
  | none => trgNext d c e d.tb

/-- PWM_TRIGGER_INSTANT of entry e (R354). -/
def sarTriggerNext (c e : Nat) (d : Dev) : Dev :=
  match trgDue d c e with
  | some t =>
    let d1 := clockTo t d
    sarTrigger c e t (setSar c { getSar d1 c with trgLast := smPut (getSar d1 c).trgLast e t } d1)
  | none => d

/-- WINDOW_BOUND: a time-domain bound at its instant, a position-domain one at the instant at which it was reached (R375). -/
def boundNext (u w t : Nat) (d : Dev) : Dev :=
  if winPos d u w then winBoundEvent u w (clockToNs t d)
  else atDue ((winDue d u w).map (· * nsUnits)) (winBoundEvent u w) d

/-- ACQ_TIMER_EXPIRY of timer w (R379). -/
def timerNext (u w : Nat) (d : Dev) : Dev :=
  let x := getAcq d u
  atDue ((if w = 0 then x.tmr0 else x.tmr1).map (· * nsUnits)) (acqTimer u w) d

/-! ### Cores, scheduler, scan engine, twin -/

/-- MACHINE_TIMER_INTERRUPT: TB ns reaches MTIMECMP (R390). -/
def timerIrq (k : Nat) (d : Dev) : Dev :=
  emit (.coreIrq k 7) (clockToNs (rd64 d (SCH_CORE_MTIMECMP_LO k) (SCH_CORE_MTIMECMP_HI k)) d)

/-- RELEASE_POINT of an item with a TB time release (R400). -/
def releaseNext (slot : Nat) (d : Dev) : Dev :=
  match getItem d slot with
  | some i => if decide (i.relMode = 1) && !i.relReached then relPoint slot false (clockToNs i.release d) else d
  | none => d

/-- The end of the power window in progress: the first multiple of W behind its start (R409). -/
def windowDue (d : Dev) : Nat := (d.sch.winStart / windowLen d + 1) * windowLen d

/-- BUDGET_WINDOW_END (R409, R412). -/
def windowEndNext (d : Dev) : Dev := if tbRuns d then windowEnd (clockTo (windowDue d) d) else d

/-- SCAN_CYCLE_START at the next start instant, with the input bits of the safety island (R420, R473). -/
def scanStartNext (ecc : Bool) (corr : Nat) (d : Dev) : Dev :=
  match d.scn.nextK with
  | some k => let d1 := countEcc corr (clockToNs (scnStartNs d k) d); scanEcc ecc (scanStart (safScanBits d1.saf) d1)
  | none => d

/-- WRITE: the shadow applies a write of the owner so that it transfers at the owner's transfer tick; one that is late transfers at
the next COMMIT instant (R499). -/
def twnRxWrite (mem : Memory) (off : Nat) (v : Word) (tick : Nat) (d : Dev) : Dev :=
  if twnRole d = 2 ∨ twnRole d = 3 then
    let next := transferTick d % 4294967296
    if next = tick ∨ tickAfter next tick then (regWrite mem .host true true off v d).1
    else modTwn (fun t => { t with writes := t.writes ++ [(off, v, tick)] }) d
  else d

end Sys2Proof.Machine
end

