-- ==== Sys2Proof/Machine/Endpoint.lean ====
section
/-! DEFINITION. What the PCI Express endpoint shows beside BAR0: the configuration space and BAR2 (spec/04, R124..R127, R134). -/
namespace Sys2Proof.Machine
open Sys2Proof Sys2Proof.Reg

/-! ### The configuration space (R125, R126) -/

/-- The 32-bit word of the configuration space at a multiple of 4; none where the spec lays out nothing (log entry 235). -/
def cfgWord (d : Dev) (i : Nat) : Option Nat :=
  let x := d.hif.space
  match i with
  | 0x00 => some 0x96001D7A
  | 0x04 => some (b2n x.mse * 2 + b2n (rb d HIF_LINK HIF_LINK_BME) * 4)
  | 0x08 => some 0x118000B1
  | 0x10 => some (x.bar0 % 4294967296 / 1048576 * 1048576 + 4)
  | 0x14 => some (x.bar0 / 4294967296 % 4294967296)
  | 0x18 => some (x.bar2 % 4294967296 / 65536 * 65536 + 4)
  | 0x1C => some (x.bar2 / 4294967296 % 4294967296)
  | 0x20 | 0x24 | 0x30 => some 0
  | 0x2C => some 0x96001D7A
  | 0x104 => some x.aer
  | _ => none

/-- A word as the host reads it: a free value where the spec gives none (log entry 21). -/
def cfgRead (i : Nat) (d : Dev) : Nat × Dev :=
  match cfgWord d i with
  | some w => (w, d)
  | none => let (w, d1) := draw d; (w.toNat, d1)

/-- The bytes of the configuration space from an offset on. -/
def cfgBytes : Nat → Nat → Dev → List Byte × Dev
  | _, 0, d => ([], d)
  | i, n + 1, d =>
    let (w, d1) := cfgRead (i / 4 * 4) d
    let (bs, d2) := cfgBytes (i + 1) n d1
    (BitVec.ofNat 8 (w / 256 ^ (i % 4)) :: bs, d2)

/-- A 64-bit base with one of its words written; its low bits, the size of the BAR, stay 0. -/
def barBase (size old : Nat) (high : Bool) (w : Nat) : Nat :=
  if high then w % 4294967296 * 4294967296 + old % 4294967296 else old / 4294967296 * 4294967296 + w % 4294967296 / size * size

/-- A word of the configuration space written. -/
def cfgSet (i w : Nat) (d : Dev) : Dev :=
  let x := d.hif.space
  let put (y : CfgSpace) : Dev := { d with hif := { d.hif with space := y } }
  match i with
  | 0x04 => busMaster (w / 4 % 2 == 1) d.hif.msixEnable d.hif.msixFnMask { x with mse := w / 2 % 2 == 1 } d
  | 0x10 => put { x with bar0 := barBase 1048576 x.bar0 false w }
  | 0x14 => put { x with bar0 := barBase 1048576 x.bar0 true w }
  | 0x18 => put { x with bar2 := barBase 65536 x.bar2 false w }
  | 0x1C => put { x with bar2 := barBase 65536 x.bar2 true w }
  | 0x104 => put { x with aer := Nat.xor x.aer (Nat.land x.aer w) }
  | _ => d

/-- The word that a write of some of its bytes leaves: the others keep their value, or write no 1 to the AER status. -/
def cfgMerged (d : Dev) (off : Nat) (bs : List Byte) (i : Nat) : Nat :=
  (List.range 4).foldl (fun w b =>
    let v := if off ≤ i + b ∧ i + b < off + bs.length then (bs.getD (i + b - off) 0).toNat
      else if i = 0x104 then 0 else ((cfgWord d i).getD 0) / 256 ^ b % 256
    w + v * 256 ^ b) 0

def cfgAccess (off : Nat) (q : MemReq) (d : Dev) : Dev :=
  match q with
  | .read n =>
    let (bs, d1) := cfgBytes off n d
    emit (.window .config off bs) d1
  | .write bs => forEach (regsOf off bs.length) (fun i d => cfgSet i (cfgMerged d off bs i) d) d

/-! ### BAR2 (R127, R134) -/

/-- A write to one word of BAR2: a doorbell, or a reserved word; a write of some of its bytes is discarded with SUBWORD_WR, whose offset is
that in BAR2 (R11, R127; DESIGN CHOICE for the offset, log entry 237). -/
def bar2Write (off : Nat) (bs : List Byte) (r : Nat) (d : Dev) : Dev :=
  let part := (bs.zipIdx.filter (fun p => decide (r ≤ off + p.2 ∧ off + p.2 < r + 4))).map (·.1)
  if part.length ≠ 4 then accessErr .subword .host (max r off) d
  else if 0x10000 ≤ r then d
  else if r % 0x400 = 0 then bell (r / 0x400) false (BitVec.ofNat 32 (leNat part)) d
  else if r % 0x400 = 4 then bell (r / 0x400) true (BitVec.ofNat 32 (leNat part)) d
  else d

def bar2Access (off : Nat) (q : MemReq) (d : Dev) : Dev :=
  match q with
  | .read n => emit (.window .bar2 off (List.replicate n 0)) d
  | .write bs => forEach (regsOf off bs.length) (fun r d => bar2Write off bs r d) d

/-- Does the endpoint take an access of a master to one of its own windows? BAR2 answers in D0 only; the debug module and the cores have no
such window. -/
def endpointHears (w : HostWindow) (m : Master) (d : Dev) : Bool :=
  (match m with | .host => true | _ => false) && awake d && !d.sys.perstLow &&
  (match w with | .config => true | _ => !d.hif.space.d3hot)

/-- An access of the host to BAR2 or to the configuration space. -/
def windowAccess (w : HostWindow) (off : Nat) (q : MemReq) (d : Dev) : Dev :=
  match w with
  | .map => d
  | .bar2 => bar2Access off q d
  | .config => cfgAccess off q d

end Sys2Proof.Machine
end

