-- ==== Sys2Proof/Machine/CmdAccess.lean ====
section
/-! DEFINITION. The meanings of the commands of registers and memory (R10..R56). -/
namespace Sys2Proof.Machine
open Sys2Proof Sys2Proof.Reg

/-- REGISTER_WRITE: A host or core write to a register that has no row of its own is applied field by field under each field's
access code and the locking rules (R10, R11, R12, R13, R14, R16, R23, R32, R34, R37, R42, R43, R46, R52, R53, R83, R118, R127,
R161, R166, R173, R176, R178, R349, R392, R440, R463, R471, R495, R499, R511, R542). -/
def execRegisterWrite (x : Accessor) (off : Nat) (v : Word) (full : Bool) (s : State) : Host.Outcome State Fault Refusal :=
  .next (s.runFor x.m true (fun mem d => (regWrite mem x.m full false off v (sameClock x.same s d)).1))

/-- READ_CLEAR: A read of a register with an RC field returns the value and then clears the field (R11, R14, R16). -/
def execReadClear (x : Accessor) (off : Nat) (s : State) : Host.Outcome State Fault Refusal :=
  .next (s.runFor x.m true (fun _ d => regRead x.m off (sameClock x.same s d)))

/-- LOW_WORD_READ: A read of the low word of a two-register quantity latches the high word for the reading master (R11, R35,
R179, R213, R270, R294). -/
def execLowWordRead (m : Master) (off : Nat) (s : State) : Host.Outcome State Fault Refusal :=
  .next (s.runFor m true (fun _ d => regRead m off d))

/-- SYS_SYNC_READ: A read of SYS_SYNC returns only after every earlier write of the same master has been accepted (R54). -/
def execSysSyncRead (m : Master) (s : State) : Host.Outcome State Fault Refusal :=
  .next (s.runFor m true (fun _ d => regRead m SYS_SYNC d))

/-- MEMORY_ACCESS: A core or host access to SRAM, TCM or MRAM through its address map or the aperture (R23, R43, R44, R45,
R47, R48, R49, R50, R128, R389). An address that no map of R44 or R45 lists is a fault: the spec gives it no effect. -/
def execMemoryAccess (m : Master) (addr : Nat) (q : MemReq) (x : AccessMeets) (s : State) :
    Host.Outcome State Fault Refusal :=
  match x.win with
  | .map =>
    if masterActs m s.dev && placeOf s.dev m addr q.len == .none then .fault .noSuchAddress
    else .next (s.runFor m true (fun mem d => memoryAccess mem m addr q x.ecc (padsSeen x.pads d)))
  | w => .next (s.runIf (fun d => endpointHears w m d) true (fun _ d => windowAccess w addr q d))

/-- FENCE_INSTRUCTION: A core FENCE orders register and memory accesses of its predecessor set before those of its successor
set (R55). Commands take effect one after the other, so the order that the fence asks for holds already. -/
def execFenceInstruction (_k : Fin 16) (_pred : Nat) (_succ : Nat) (s : State) : Host.Outcome State Fault Refusal := .next s

/-- FENCE_TSO: FENCE.TSO acts as FENCE RW,RW and does not order device input or output (R56). The order holds already:
commands take effect one after the other. -/
def execFenceTso (_k : Fin 16) (s : State) : Host.Outcome State Fault Refusal := .next s

/-- FENCE_I: FENCE.I synchronises instruction fetch for the core's own TCM-I and shared SRAM (R56). No row of the table
fetches an instruction. -/
def execFenceI (_k : Fin 16) (s : State) : Host.Outcome State Fault Refusal := .next s

end Sys2Proof.Machine
end

