-- ==== Sys2Proof/Machine/CmdAnalog.lean ====
section
/-! DEFINITION. The meanings of the commands of converters and acquisition (R348..R388). -/
namespace Sys2Proof.Machine
open Sys2Proof Sys2Proof.Reg

/-- SAR_CONVERSION_START: A SAR conversion starts for a TICK, SLOT, PWM, REQ or BG request (R301, R348, R349, R350, R351,
R352, R355). -/
def execSarConversionStart (c : Fin 16) (kind : SarKind) (s : State) : Host.Outcome State Fault Refusal :=
  .next (s.runClocked true (fun _ d => sarStart c.val kind d))

/-- SAR_CONVERSION_COMPLETE: A SAR result completes and is written, handed to choppers and acquisition, and may post an
operand (R24, R157, R295, R302, R303, R304, R306, R350, R354, R355, R356, R358, R365, R370, R371, R373, R376, R377, R378,
R379, R380, R381, R382, R383). -/
def execSarConversionComplete (c : Fin 16) (vin : Int) (vref : Nat) (acc : Bool) (s : State) : Host.Outcome State Fault Refusal :=
  .next (s.runClocked acc (fun _ d => sarComplete c.val vin vref d))

/-- PWM_TRIGGER_INSTANT: A TRG entry's instant starts or defers a PWM-synchronised conversion (R354, R360). -/
def execPwmTriggerInstant (c : Fin 16) (e : Fin 4) (s : State) : Host.Outcome State Fault Refusal :=
  .next (s.runClocked true (fun _ d => sarTriggerNext c.val e.val d))

/-- START: ADC_SARc_REQ START requests a single conversion, or is rejected with REQ_REJ (R349, R357, R360). -/
def execStart (m : Master) (c : Fin 16) (v : Word) (s : State) : Host.Outcome State Fault Refusal :=
  .next (s.runFor m true (fun mem d => regPut mem m (ADC_SAR_REQ c.val) (fset v ADC_SAR_REQ_START 1) d))

/-- SD_RESULT: At each output boundary a sigma-delta result is delivered and latched (R358, R361, R362, R370, R371, R376,
R377, R378, R379, R381, R382, R383). -/
def execSdResult (k : Fin 8) (vd : Int) (vref : Nat) (acc : Bool) (s : State) : Host.Outcome State Fault Refusal :=
  .next (s.runClocked acc (fun _ d => sdResult k.val vd vref d))

/-- REFERENCE_ERROR: A reference leaves 1.15–1.85 V and REF_ERR and REF_EVT are set and a record triggered (R306, R360, R363).
-/
def execReferenceError (g : Fin 5) (t : Nat) (s : State) : Host.Outcome State Fault Refusal :=
  .next (s.runClocked true (fun _ d => refLost g.val (clockToNs t d)))

/-- REFERENCE_RECOVERY: REF_ERR clears after the reference has been in its window for 100 µs (R363). -/
def execReferenceRecovery (g : Fin 5) (t : Nat) (s : State) : Host.Outcome State Fault Refusal :=
  .next (s.runClocked true (fun _ d => refBack g.val (clockToNs t d)))

/-- TEST_DAC_WRITE: A write to ADC_TDACg sets the test DAC and injection, or is discarded with INJ_REJ (R364, R365). -/
def execTestDacWrite (m : Master) (g : Fin 5) (v : Word) (s : State) : Host.Outcome State Fault Refusal :=
  .next (s.runFor m true (fun mem d => regPut mem m (ADC_TDAC g.val) v d))

/-- CAL: ADC_CTRL CAL recalibrates the selected groups, or is refused with CAL_REJ while armed (R366). -/
def execCal (m : Master) (v : Word) (s : State) : Host.Outcome State Fault Refusal :=
  .next (s.runFor m true (fun mem d => regPut mem m ADC_CTRL (fset v ADC_CTRL_CMD 1) d))

/-- CALIBRATION_COMPLETE: Recalibration ends within 2 ms and CAL_DONE reads 1 (R366). -/
def execCalibrationComplete (s : State) : Host.Outcome State Fault Refusal :=
  .next (s.runClocked true (fun _ d => adcCalDone d))

/-- WINDOW_BOUND: A window interval bound occurs and is a sequencer event (R374, R375, R377, R378, R379). -/
def execWindowBound (u : Fin 8) (w : Fin 2) (t : Nat) (acc : Bool) (s : State) : Host.Outcome State Fault Refusal :=
  .next (s.runClocked acc (fun _ d => boundNext u.val w.val t d))

/-- ACQ_TIMER_EXPIRY: A sequencer timer expires and is a sequencer event (R377, R378, R379). -/
def execAcqTimerExpiry (u : Fin 8) (w : Fin 2) (acc : Bool) (s : State) : Host.Outcome State Fault Refusal :=
  .next (s.runClocked acc (fun _ d => timerNext u.val w.val d))

/-- FORCE: ACQ_Uu_CTRL FORCE presents a FORCE event to the sequencer (R377, R378, R379). -/
def execForce (m : Master) (u : Fin 8) (acc : Bool) (s : State) : Host.Outcome State Fault Refusal :=
  .next (s.runFor m acc (fun mem d => regPut mem m (ACQ_CTRL u.val) (fset 0 ACQ_CTRL_CMD 1) d))

/-- ACQ_REARM: ACQ_Uu_CTRL REARM clears DONE, TRIGGERED and WRAPPED, sets WPTR to 0 and returns to S0 (R383). -/
def execAcqRearm (m : Master) (u : Fin 8) (acc : Bool) (s : State) : Host.Outcome State Fault Refusal :=
  .next (s.runFor m acc (fun mem d => regPut mem m (ACQ_CTRL u.val) (fset 0 ACQ_CTRL_CMD 2) d))

/-- RUN: ACQ_Uu_CTRL RUN starts a run of a READY unit (R385). -/
def execRun (m : Master) (u : Fin 8) (acc : Bool) (s : State) : Host.Outcome State Fault Refusal :=
  .next (s.runFor m acc (fun mem d => regPut mem m (ACQ_CTRL u.val) (fset 0 ACQ_CTRL_CMD 3) d))

/-- STOP: ACQ_Uu_CTRL STOP ends a READY run (R385). -/
def execStop (m : Master) (u : Fin 8) (acc : Bool) (s : State) : Host.Outcome State Fault Refusal :=
  .next (s.runFor m acc (fun mem d => regPut mem m (ACQ_CTRL u.val) (fset 0 ACQ_CTRL_CMD 4) d))

/-- RPTR_WRITE: A host write to RPTR frees the region, or is discarded with RPTR_ERR or while a ring is enabled (R382, R384).
-/
def execRptrWrite (m : Master) (u : Fin 8) (v : Word) (s : State) : Host.Outcome State Fault Refusal :=
  .next (s.runFor m true (fun mem d => regPut mem m (ACQ_RPTR u.val) v d))

end Sys2Proof.Machine
end

