-- ==== Sys2Proof/Machine/CmdConfig.lean ====
section
/-! DEFINITION. The meanings of the commands of the configuration loader, arming and swaps (R99..R126). -/
namespace Sys2Proof.Machine
open Sys2Proof Sys2Proof.Reg

/-- LOAD: CFG_CTRL LOAD validates and applies the image at CFG_IMG_ADDR in two stages (R102, R103, R104, R105, R106, R107,
R110, R111, R116, R437). -/
def execLoad (m : Master) (s : State) : Host.Outcome State Fault Refusal :=
  .next (s.runFor m true (fun mem d => regPut mem m CFG_CTRL (fset 0 CFG_CTRL_CMD 1) d))

/-- ARM: CFG_CTRL ARM runs the arming checks against the locked draft banks (R111, R113). -/
def execArm (m : Master) (s : State) : Host.Outcome State Fault Refusal :=
  .next (s.runFor m true (fun mem d => regPut mem m CFG_CTRL (fset 0 CFG_CTRL_CMD 2) d))

/-- DISARM: CFG_CTRL DISARM abandons an arming or performs a controlled disarm from the next COMMIT instant (R100, R111, R113,
R114, R121, R436). -/
def execDisarm (m : Master) (s : State) : Host.Outcome State Fault Refusal :=
  .next (s.runFor m true (fun mem d => regPut mem m CFG_CTRL (fset 0 CFG_CTRL_CMD 3) d))

/-- DISARM_NOW: CFG_CTRL DISARM_NOW moves every included non-faulted function to READY at the next COMMIT instant without a
controlled stop (R100, R111, R113, R115, R121, R435, R436). -/
def execDisarmNow (m : Master) (s : State) : Host.Outcome State Fault Refusal :=
  .next (s.runFor m true (fun mem d => regPut mem m CFG_CTRL (fset 0 CFG_CTRL_CMD 4) d))

/-- STORE: CFG_CTRL STORE writes the image at CFG_IMG_ADDR into the MRAM configuration region with MAGIC last (R102, R103,
R104, R110, R111). -/
def execStore (m : Master) (s : State) : Host.Outcome State Fault Refusal :=
  .next (s.runFor m true (fun mem d => regPut mem m CFG_CTRL (fset 0 CFG_CTRL_CMD 5) d))

/-- LOAD_MRAM: CFG_CTRL LOAD_MRAM loads the image stored in MRAM at 0x6000_0000 (R102, R103, R104, R105, R107, R108, R111). -/
def execLoadMram (m : Master) (s : State) : Host.Outcome State Fault Refusal :=
  .next (s.runFor m true (fun mem d => regPut mem m CFG_CTRL (fset 0 CFG_CTRL_CMD 6) d))

/-- LOAD_QSPI: CFG_CTRL LOAD_QSPI loads the primary QSPI image, or the secondary one when the primary fails stage one (R102,
R103, R104, R105, R107, R108, R111, R538). -/
def execLoadQspi (m : Master) (s : State) : Host.Outcome State Fault Refusal :=
  .next (s.runFor m true (fun mem d => regPut mem m CFG_CTRL (fset 0 CFG_CTRL_CMD 7) d))

/-- ERASE_STORE: CFG_CTRL ERASE_STORE writes 0 to the stored MAGIC and so invalidates the stored image (R110, R111). -/
def execEraseStore (m : Master) (s : State) : Host.Outcome State Fault Refusal :=
  .next (s.runFor m true (fun mem d => regPut mem m CFG_CTRL (fset 0 CFG_CTRL_CMD 8) d))

/-- DRAFT_SYNC: CFG_CTRL DRAFT_SYNC copies the live bank into the draft bank of every class not held by a pending swap (R111,
R122). -/
def execDraftSync (m : Master) (s : State) : Host.Outcome State Fault Refusal :=
  .next (s.runFor m true (fun mem d => regPut mem m CFG_CTRL (fset 0 CFG_CTRL_CMD 9) d))

/-- IMAGE_LOAD_END: A load ends after its stages and leaves the state LOADED, INCOMPLETE or unchanged, with DONE, ERR and
CFG_FAULT set (R107, R112, R391). -/
def execImageLoadEnd (s : State) : Host.Outcome State Fault Refusal :=
  .next (s.runClocked true (fun mem d => imageLoadEnd mem d))

/-- ARM_CHECKS_END: The arming checks end, leaving the state LOADED on a failure or scheduling the arming swap (R31, R75, R76,
R78, R85, R112, R113, R184, R209, R231, R256, R259, R264, R266, R273, R298, R301, R312, R313, R320, R321, R324, R326, R328,
R330, R331, R333, R340, R352, R353, R372, R419, R428, R460, R475, R476, R477, R478, R493, R497, R524). -/
def execArmChecksEnd (s : State) : Host.Outcome State Fault Refusal :=
  .next (s.runClocked true (fun _ d => armChecksEnd d))

/-- STORE_COMPLETE: STORE ends after the image is written and read back against IMAGE_CRC (R110). -/
def execStoreComplete (s : State) : Host.Outcome State Fault Refusal :=
  .next (s.runClocked true (fun _ d => storeComplete d))

/-- ERASE_STORE_COMPLETE: ERASE_STORE ends with OK within 1 ms (R110). -/
def execEraseStoreComplete (s : State) : Host.Outcome State Fault Refusal :=
  .next (s.runClocked true (fun _ d => eraseStoreComplete d))

/-- DRAFT_SYNC_COMPLETE: DRAFT_SYNC ends, clears DRAFT_STALE of the copied classes and unlocks their drafts (R122). -/
def execDraftSyncComplete (s : State) : Host.Outcome State Fault Refusal :=
  .next (s.runClocked true (fun _ d => draftSyncComplete d))

/-- BOOT_ACTION: After a cold reset the loader performs the boot load that the sampled BOOTSEL selects (R102, R103, R104,
R105, R107, R108, R109, R538). -/
def execBootAction (s : State) : Host.Outcome State Fault Refusal :=
  .next (s.runClocked true (fun mem d => bootAction mem d))

/-- REQUEST: CFG_SWAP_CTRL REQUEST captures the swap parameters and runs the swap checks on the drafts of the classes in MASK
(R34, R117). -/
def execRequest (m : Master) (v : Word) (s : State) : Host.Outcome State Fault Refusal :=
  .next (s.runFor m true (fun mem d => regPut mem m CFG_SWAP_CTRL (fset v CFG_SWAP_CTRL_CMD 1) d))

/-- SWAP_CANCEL: CFG_SWAP_CTRL CANCEL ends a pending swap FAILED with CANCELLED (R121). -/
def execSwapCancel (m : Master) (v : Word) (s : State) : Host.Outcome State Fault Refusal :=
  .next (s.runFor m true (fun mem d => regPut mem m CFG_SWAP_CTRL (fset v CFG_SWAP_CTRL_CMD 2) d))

/-- SWAP_CHECKS_END: The swap checks end; a failure ends the swap FAILED with INVALID and writes CFG_FAULT (R31, R112, R117,
R184, R209, R273, R320, R428). -/
def execSwapChecksEnd (s : State) : Host.Outcome State Fault Refusal :=
  .next (s.runClocked true (fun _ d => swapChecksEnd d))

/-- SWAP_TIMEOUT: A position-mode swap not taken by tick a + TIMEOUT ends FAILED with TIMEOUT (R119). -/
def execSwapTimeout (s : State) : Host.Outcome State Fault Refusal :=
  .next (s.runClocked true (fun _ d => swapTimeout d))

end Sys2Proof.Machine
end

