-- ==== Sys2Proof/Machine/CmdDrive.lean ====
section
/-! DEFINITION. The meanings of the commands of step outputs, choppers and PWM pairs (R290..R317). -/
namespace Sys2Proof.Machine
open Sys2Proof Sys2Proof.Reg

/-- STEP_PULSE: The step output emits a step to its stepper channel when floor(q) changes (R290, R291, R296, R297, R303). -/
def execStepPulse (g : Fin 64) (s : State) : Host.Outcome State Fault Refusal :=
  .next (s.runClocked true (fun _ d => stepNext g.val d))

/-- OFF_PHASE_END: An OFF phase ends after OFF_LEN and the next ON phase starts (R295, R303). -/
def execOffPhaseEnd (j : Fin 32) (coilB : Bool) (s : State) : Host.Outcome State Fault Refusal :=
  .next (s.runClocked true (fun _ d => offNext j.val coilB d))

/-- SET_EPOS: STPj_CMD SET_EPOS loads EPOS while the channel is not RUNNING, or is rejected (R296). -/
def execSetEpos (m : Master) (j : Fin 32) (v : Word) (s : State) : Host.Outcome State Fault Refusal :=
  .next (s.runFor m true (fun mem d => regPut mem m (STP_CMD j.val) (fset v STP_CMD_CMD 1) d))

/-- PWM_RELOAD: At a PWM reload instant the closed PER and CMP set becomes active and the period starts (R307, R309, R310,
R312, R313, R314). -/
def execPwmReload (p : Fin 48) (s : State) : Host.Outcome State Fault Refusal :=
  .next (s.runClocked true (fun _ d => reloadNext p.val d))

/-- CMP_WRITE: A write to PWMp_CMP closes the staged set for transfer at a reload or the next COMMIT (R310, R314). -/
def execCmpWrite (m : Master) (p : Fin 48) (v : Word) (s : State) : Host.Outcome State Fault Refusal :=
  .next (s.runFor m true (fun mem d => regPut mem m (PWM_CMP p.val) v d))

/-- PWM_FAULT_INPUT: An active fault input drives FLT_STATE on every mapped pair and may latch a fault (R313); the level
lasts `hold` ns at the pin, whose filter it must pass (R81). -/
def execPwmFaultInput (g : Fin 8) (level : Bool) (x : InputTime) (s : State) : Host.Outcome State Fault Refusal :=
  .next (s.runClocked true (fun _ d => fltInput g.val level x.t x.hold d))

/-- REF_EDGE: Within a PWM period, REF changes at its compare instant (CMP, PER ± CMP), and its outputs follow (R307, R311,
R312). -/
def execRefEdge (p : Fin 48) (s : State) : Host.Outcome State Fault Refusal :=
  .next (s.runClocked true (fun _ d => refNext p.val d))

/-- DEAD_TIME_END: An output rises DTR or DTF × 4 ns after the REF edge that allowed it, including after a fault-state change
under R313 (R311). -/
def execDeadTimeEnd (p : Fin 48) (outB : Bool) (s : State) : Host.Outcome State Fault Refusal :=
  .next (s.runClocked true (fun _ d => deadNext p.val outB d))

end Sys2Proof.Machine
end

