-- ==== Sys2Proof/Machine/CmdFieldBus.lean ====
section
/-! DEFINITION. The meanings of the commands of field link and CAN (R441..R467). -/
namespace Sys2Proof.Machine
open Sys2Proof Sys2Proof.Reg

/-- FIELD_LINK_FRAME_START: A downstream frame leaves FLKp_TX at a multiple of 31,250 ns carrying the output image and a
parameter (R39, R443, R444, R446, R447, R455, R456, R457, R495, R537). -/
def execFieldLinkFrameStart (p : Fin 8) (s : State) : Host.Outcome State Fault Refusal :=
  .next (s.runClocked true (fun _ d => flkStart p.val d))

/-- UPSTREAM_BLOCK: An expander's upstream block arrives and is checked, its round trip measured (R442, R443, R445, R446,
R455, R501). -/
def execUpstreamBlock (p : Fin 8) (t : Nat) (framed : Bool) (bytes : List Byte) (s : State) : Host.Outcome State Fault Refusal :=
  .next (s.runClocked true (fun _ d => flkUpstream p.val t framed bytes d))

/-- FRAME_CLOSE: At F + 30,500 ns the frame closes and the input image, substitutes and counters are updated (R446, R448,
R449, R456, R457, R458). -/
def execFrameClose (p : Fin 8) (s : State) : Host.Outcome State Fault Refusal :=
  .next (s.runClocked true (fun _ d => flkCloseDue p.val d))

/-- LINE_BREAK: A field-link line held low for more than 1 µs is a broken link (R442). -/
def execLineBreak (p : Fin 8) (t : Nat) (s : State) : Host.Outcome State Fault Refusal :=
  .next (s.runClocked true (fun _ d => flkBreak p.val t d))

/-- CLEAR: FLK_PORTp_CMD CLEAR sends CLR for the masked expanders in the next frame (R459). -/
def execClear (m : Master) (p : Fin 8) (v : Word) (s : State) : Host.Outcome State Fault Refusal :=
  .next (s.runFor m true (fun mem d => regPut mem m (FLK_PORT_CMD p.val) (fset v FLK_PORT_CMD_CMD 1) d))

/-- RESEND: FLK_PORTp_CMD RESEND sends every parameter of every included expander again (R455, R459). -/
def execResend (m : Master) (p : Fin 8) (v : Word) (s : State) : Host.Outcome State Fault Refusal :=
  .next (s.runFor m true (fun mem d => regPut mem m (FLK_PORT_CMD p.val) (fset v FLK_PORT_CMD_CMD 2) d))

/-- CAN_CTRL_WRITE: A write to CANk_CTRL changes mode and options, or is discarded with CFG_REJ (R462). -/
def execCanCtrlWrite (m : Master) (k : Fin 4) (v : Word) (s : State) : Host.Outcome State Fault Refusal :=
  .next (s.runFor m true (fun mem d => regPut mem m (CAN_CTRL k.val) v d))

/-- CAN_FRAME_RECEIVE: A correct received CAN frame is acknowledged and recorded into the ring, or lost (R157, R461, R462,
R465, R466). -/
def execCanFrameReceive (k : Fin 4) (id : Nat) (dlc : Fin 16) (flags : Fin 8) (sof : Nat) (data : List Byte) (t : Nat) (acc : Bool) (s : State) : Host.Outcome State Fault Refusal :=
  .next (s.runClocked acc (fun _ d => canReceive k.val id dlc.val flags.val sof data (clockToNs t d)))

/-- CAN_START_OF_FRAME: At a start of frame the controller offers a pending buffer and arbitrates (R461, R463). -/
def execCanStartOfFrame (k : Fin 4) (t : Nat) (s : State) : Host.Outcome State Fault Refusal :=
  .next (s.runClocked true (fun _ d => canSof k.val (clockToNs t d)))

/-- TX_OK: A transmitted frame completes successfully and its SOF time is recorded (R463, R465, R466). -/
def execTxOk (k : Fin 4) (tdcv : Fin 128) (esi : Bool) (t : Nat) (acc : Bool) (s : State) : Host.Outcome State Fault Refusal :=
  .next (s.runClocked acc (fun _ d => canTxOk k.val tdcv.val esi (clockToNs t d)))

/-- CAN_ERROR_FRAME: An error during a frame ends it; the frame is retried or fails with ONESHOT (R463). -/
def execCanErrorFrame (k : Fin 4) (code : Fin 8) (data : Bool) (tx : Bool) (first : Bool) (t : Nat) (s : State) : Host.Outcome State Fault Refusal :=
  .next (s.runClocked true (fun _ d => canError k.val code.val data tx first (clockToNs t d)))

/-- BUS_OFF: The controller enters bus-off, sets BOFF_EVT and may start recovery (R467). -/
def execBusOff (k : Fin 4) (t : Nat) (s : State) : Host.Outcome State Fault Refusal :=
  .next (s.runClocked true (fun _ d => canBusOff k.val (clockToNs t d)))

/-- BUS_OFF_RECOVERY_END: Recovery ends after 128 occurrences of 11 recessive bits (R467). -/
def execBusOffRecoveryEnd (k : Fin 4) (t : Nat) (s : State) : Host.Outcome State Fault Refusal :=
  .next (s.runClocked true (fun _ d => canRecovered k.val (clockToNs t d)))

/-- REQ: TXBb_CMD REQ makes a transmit buffer pending, or is rejected with REQ_REJ (R463). -/
def execReq (m : Master) (k : Fin 4) (b : Fin 3) (s : State) : Host.Outcome State Fault Refusal :=
  .next (s.runFor m true (fun mem d => regPut mem m (CAN_TXB_CMD k.val b.val) (fset 0 CAN_TXB_CMD_CMD 1) d))

/-- CAN_CANCEL: TXBb_CMD CANCEL cancels a pending buffer according to its moment of acceptance (R464). -/
def execCanCancel (m : Master) (k : Fin 4) (b : Fin 3) (s : State) : Host.Outcome State Fault Refusal :=
  .next (s.runFor m true (fun mem d => regPut mem m (CAN_TXB_CMD k.val b.val) (fset 0 CAN_TXB_CMD_CMD 2) d))

/-- BOR: CANk_CMD BOR starts bus-off recovery (R467). -/
def execBor (m : Master) (k : Fin 4) (s : State) : Host.Outcome State Fault Refusal :=
  .next (s.runFor m true (fun mem d => regPut mem m (CAN_CMD k.val) (fset 0 CAN_CMD_CMD 1) d))

end Sys2Proof.Machine
end

