-- ==== Sys2Proof/Machine/CmdHost.lean ====
section
/-! DEFINITION. The meanings of the commands of the PCI Express endpoint and the host rings (R127..R166). -/
namespace Sys2Proof.Machine
open Sys2Proof Sys2Proof.Reg

/-- FLR: A Function Level Reset resets the endpoint and the host rings only (R129, R138, R162). -/
def execFlr (s : State) : Host.Outcome State Fault Refusal :=
  .next (s.runAwake true (fun _ d => flr d))

/-- LINK_LOST: Loss of the PCI Express link acts on the endpoint and rings only and sets LINK_LOST (R129). -/
def execLinkLost (t : Nat) (s : State) : Host.Outcome State Fault Refusal :=
  .next (s.runAwake true (fun _ d => linkLost (clockToNs t d)))

/-- BUS_MASTER_ENABLE_CHANGE: Clearing Bus Master Enable pauses every RUNNING ring; setting it resumes them (R130, R162). -/
def execBusMasterEnableChange (x : PciControl) (enable : Bool) (fnMask : Bool) (acc : Bool) (s : State) :
    Host.Outcome State Fault Refusal :=
  .next (s.runAwake acc (fun _ d => busMaster x.bme enable fnMask { d.hif.space with d3hot := x.d3hot, mps := x.mps.val, mrrs := x.mrrs.val } d))

/-- SQ_TAIL: An SQ_TAIL doorbell stores the tail and starts fetching, or halts the ring with BAD_DOORBELL, or is discarded on
a disabled ring (R134, R135, R136, R152, R162, R163, R511). -/
def execSqTail (r : Fin 64) (v : Word) (acc : Bool) (s : State) : Host.Outcome State Fault Refusal :=
  .next (s.runFor .host acc (fun _ d => bell r.val false v d))

/-- CQ_HEAD: A CQ_HEAD doorbell tells the device which CQ entries the host has read, freeing room in the CQ (R134, R136,
R139). -/
def execCqHead (r : Fin 64) (v : Word) (acc : Bool) (s : State) : Host.Outcome State Fault Refusal :=
  .next (s.runFor .host acc (fun _ d => bell r.val true v d))

/-- DESCRIPTOR_FETCH: The device fetches descriptors up to 16 ahead of the oldest uncompleted one (R135, R138, R139, R141,
R151, R162, R163). -/
def execDescriptorFetch (r : Fin 64) (x : HostRead (List Byte)) (acc : Bool) (s : State) : Host.Outcome State Fault Refusal :=
  .next (s.runAwake acc (fun _ d => descFetch r.val x d))

/-- NOP: Descriptor NOP does nothing and completes with RESULT 0 (R142, R147, R148, R149, R150, R159). -/
def execNop (r : Fin 64) (acc : Bool) (s : State) : Host.Outcome State Fault Refusal :=
  .next (s.runAwake acc (fun _ d => descNop r.val d))

/-- REG_WRITE_LIST: Descriptor REG_WRITE_LIST writes offset-value pairs in order and stops at the first refused write (R142,
R143, R147, R148, R149, R150, R159, R163). -/
def execRegWriteList (r : Fin 64) (x : HostRead (List Byte)) (acc : Bool) (s : State) : Host.Outcome State Fault Refusal :=
  .next (s.runAwake acc (fun mem d => descWriteList mem r.val x d))

/-- REG_READ_LIST: Descriptor REG_READ_LIST reads the listed registers and writes the values to host memory (R142, R147, R148,
R149, R150, R159). -/
def execRegReadList (r : Fin 64) (x : ListRead) (acc : Bool) (s : State) : Host.Outcome State Fault Refusal :=
  .next (s.runAwake acc (fun _ d => descReadList r.val x.list x.ecc d))

/-- MEM_WRITE: Descriptor MEM_WRITE copies bytes from host memory to a permitted core address range (R50, R142, R144, R147,
R148, R149, R150, R159, R163). -/
def execMemWrite (r : Fin 64) (x : HostRead (List Byte)) (acc : Bool) (s : State) : Host.Outcome State Fault Refusal :=
  .next (s.runAwake acc (fun _ d => descMemWrite r.val x d))

/-- MEM_READ: Descriptor MEM_READ copies bytes from a permitted core address range to host memory (R142, R144, R147, R148,
R149, R150, R159, R163). -/
def execMemRead (r : Fin 64) (ecc : Ecc) (acc : Bool) (s : State) : Host.Outcome State Fault Refusal :=
  .next (s.runAwake acc (fun mem d => descMemRead mem r.val ecc d))

/-- FENCE: Descriptor FENCE waits for earlier descriptors of its scope and, with LIVE, for the next COMMIT instant (R142,
R147, R148, R149, R150, R152, R153, R154, R159). -/
def execFence (r : Fin 64) (acc : Bool) (s : State) : Host.Outcome State Fault Refusal :=
  .next (s.runAwake acc (fun _ d => descFence r.val d))

/-- CFG_CMD: Descriptor CFG_CMD runs a CFG_CTRL command to its end and reports CFG_FAULT (R142, R145, R147, R148, R149, R150,
R159, R163). -/
def execCfgCmd (r : Fin 64) (acc : Bool) (s : State) : Host.Outcome State Fault Refusal :=
  .next (s.runAwake acc (fun mem d => descCfg mem r.val d))

/-- WORK_SUBMIT: Descriptor WORK_SUBMIT submits a work item to the scheduler and completes on its acceptance or refusal (R142,
R146, R147, R148, R149, R150, R159, R163, R393, R394, R395). -/
def execWorkSubmit (r : Fin 64) (x : HostRead (List Byte)) (acc : Bool) (s : State) : Host.Outcome State Fault Refusal :=
  .next (s.runAwake acc (fun _ d => descSubmit r.val x d))

/-- RX_BUFFER: Descriptor RX_BUFFER posts a buffer for the streaming ring's producer (R142, R147, R148, R149, R150, R156,
R157, R159, R384). -/
def execRxBuffer (r : Fin 64) (acc : Bool) (s : State) : Host.Outcome State Fault Refusal :=
  .next (s.runAwake acc (fun _ d => descRxBuffer r.val d))

/-- ETH_TX: Descriptor ETH_TX sends a frame through the management MAC (R142, R147, R148, R149, R150, R158, R159, R163, R181).
-/
def execEthTx (r : Fin 64) (x : HostRead (List Byte)) (acc : Bool) (s : State) : Host.Outcome State Fault Refusal :=
  .next (s.runAwake acc (fun _ d => descEthTx r.val x d))

/-- PARTIAL_BUFFER_FLUSH: A partly filled streaming buffer is completed with PARTIAL when no record has arrived for FLUSH_US
µs (R156). -/
def execPartialBufferFlush (r : Fin 64) (acc : Bool) (s : State) : Host.Outcome State Fault Refusal :=
  .next (s.runAwake acc (fun _ d => bufferFlush r.val d))

/-- MGMT_FRAME_RECEIVE: The management MAC receives an Ethernet frame into the next posted buffer of the NET ring (R157, R158,
R185). -/
def execMgmtFrameReceive (bytes : List Byte) (acc : Bool) (t : Nat) (s : State) : Host.Outcome State Fault Refusal :=
  .next (s.runAwake acc (fun _ d => streamFrame bytes (clockToNs t d)))

/-- COALESCING_TIMEOUT: The oldest unsignalled CQ entry reaches TIME_US µs and the ring signals its MSI-X vector (R159). -/
def execCoalescingTimeout (r : Fin 64) (s : State) : Host.Outcome State Fault Refusal :=
  .next (s.runAwake true (fun _ d => coalesce r.val d))

/-- MSIX_VECTOR_UNMASK: Unmasking a vector with its pending bit set sends the message (R160). -/
def execMsixVectorUnmask (m : Master) (n : Fin 256) (s : State) : Host.Outcome State Fault Refusal :=
  .next (s.runFor m true (fun mem d => regPut mem m (HIF_MSIX_CTRL n.val) 0 d))

/-- RING_ENABLE: HIF_RINGr_CTRL ENABLE moves a DISABLED ring to RUNNING, or leaves it DISABLED with BAD_CFG (R132, R140, R155,
R162). -/
def execRingEnable (m : Master) (r : Fin 64) (acc : Bool) (s : State) : Host.Outcome State Fault Refusal :=
  .next (s.runFor m acc (fun mem d => regPut mem m (HIF_RING_CTRL r.val) (fset 0 HIF_RING_CTRL_CMD 1) d))

/-- RING_DISABLE: HIF_RINGr_CTRL DISABLE moves a RUNNING ring to DRAINING (R162). -/
def execRingDisable (m : Master) (r : Fin 64) (acc : Bool) (s : State) : Host.Outcome State Fault Refusal :=
  .next (s.runFor m acc (fun mem d => regPut mem m (HIF_RING_CTRL r.val) (fset 0 HIF_RING_CTRL_CMD 2) d))

/-- RING_RESUME: HIF_RINGr_CTRL RESUME restarts a HALTED ring from IDX.SQ_HEAD (R162, R164). -/
def execRingResume (m : Master) (r : Fin 64) (acc : Bool) (s : State) : Host.Outcome State Fault Refusal :=
  .next (s.runFor m acc (fun mem d => regPut mem m (HIF_RING_CTRL r.val) (fset 0 HIF_RING_CTRL_CMD 3) d))

/-- RING_RESET: HIF_RINGr_CTRL RESET clears the indices, stored doorbells and PHASE of a HALTED or DISABLED ring (R140, R162).
-/
def execRingReset (m : Master) (r : Fin 64) (acc : Bool) (s : State) : Host.Outcome State Fault Refusal :=
  .next (s.runFor m acc (fun mem d => regPut mem m (HIF_RING_CTRL r.val) (fset 0 HIF_RING_CTRL_CMD 4) d))

/-- SQ_HEAD_WRITE: A write to IDX.SQ_HEAD takes effect only while the ring is HALTED and otherwise sets CFG_WR_ACTIVE (R165).
-/
def execSqHeadWrite (m : Master) (r : Fin 64) (v : Word) (s : State) : Host.Outcome State Fault Refusal :=
  .next (s.runFor m true (fun mem d => regPut mem m (HIF_RING_IDX r.val) v d))

/-- RING_CONFIG_WRITE: A write to a ring's base or CFG register is discarded with CFG_WR_ACTIVE unless the ring is DISABLED
(R166). -/
def execRingConfigWrite (m : Master) (off : Nat) (v : Word) (s : State) : Host.Outcome State Fault Refusal :=
  .next (s.runFor m true (fun mem d => regPut mem m off v d))

/-- LINK_UP: The PCI Express link comes up or returns to L0, which sets HIF_LINK.UP, ends a WAKE_N assertion and can refuse a
LULL or CALM entry with LINK (R509, R513). -/
def execLinkUp (x : LinkRate) (pm : Fin 4) (s : State) : Host.Outcome State Fault Refusal :=
  .next (s.run (fun _ d => linkUp x.speed.val x.width.val pm.val d))

/-- PERST_N_DEASSERT: PERST_N going high releases the PCI Express endpoint from reset (R65). -/
def execPerstNDeassert (t : Nat) (s : State) : Host.Outcome State Fault Refusal :=
  .next (s.run (fun _ d => perstHigh (clockToNs t d)))

end Sys2Proof.Machine
end

