-- ==== Sys2Proof/Machine/CmdIsland.lean ====
section
/-! DEFINITION. The meanings of the commands of the safety island (R468..R492). -/
namespace Sys2Proof.Machine
open Sys2Proof Sys2Proof.Reg

/-- CHANNEL_A_EVALUATION: Safety channel A evaluates inputs, readbacks and decisions every 250 µs (R161, R468, R469, R471,
R474, R478, R479, R480, R481, R482, R483, R485, R486, R487, R488, R489). -/
def execChannelAEvaluation (x : SafSample) (s : State) : Host.Outcome State Fault Refusal :=
  .next (s.runAwake true (fun _ d => safEval false x d))

/-- CHANNEL_B_EVALUATION: Safety channel B evaluates 125 µs after channel A (R468, R469, R480, R481, R482, R483, R487). -/
def execChannelBEvaluation (x : SafSample) (s : State) : Host.Outcome State Fault Refusal :=
  .next (s.runAwake true (fun _ d => safEval true x d))

/-- SQUALL_WINDOW_END: An output in SQUALL is cut when SQUALL_MS has run out (R488). -/
def execSquallWindowEnd (s : State) : Host.Outcome State Fault Refusal :=
  .next (s.runAwake true (fun _ d => squallEnd d))

/-- STANDSTILL_HOLD_END: With STILL_MODE 1, standstill held for STILL_MS cuts the outputs in SQUALL (R488). -/
def execStandstillHoldEnd (s : State) : Host.Outcome State Fault Refusal :=
  .next (s.runAwake true (fun _ d => standstillEnd d))

/-- OUTPUT_TEST: Every TEST_S seconds each on output is test-pulsed by both channels and its readback checked (R484). -/
def execOutputTest (k : Fin 8) (pass : Bool) (s : State) : Host.Outcome State Fault Refusal :=
  .next (s.runAwake true (fun _ d => outputTest k.val pass d))

/-- SAFETY_SUPPLY_FAULT: VDD_SAF or VDDIO_SAF out of tolerance cuts every output and enters LOCKOUT (R487, R528). -/
def execSafetySupplyFault (s : State) : Host.Outcome State Fault Refusal :=
  .next (s.runAwake true (fun _ d => safSupply d))

/-- CHANNEL_DEAD: A dead safety channel drops its switches and the other channel enters LOCKOUT (R487). -/
def execChannelDead (chB : Bool) (s : State) : Host.Outcome State Fault Refusal :=
  .next (s.runAwake true (fun _ d => safDead chB d))

end Sys2Proof.Machine
end

