-- ==== Sys2Proof/Machine/CmdLineNet.lean ====
section
/-! DEFINITION. The meanings of the commands of the switch and the Celivo line network (R180..R207). -/
namespace Sys2Proof.Machine
open Sys2Proof Sys2Proof.Reg

/-- FRAME_INGRESS: The switch forwards a frame received on an external port by learning, flooding, Celivo group, traffic class
and gates (R180, R181, R182, R187). -/
def execFrameIngress (p : Fin 3) (f : EthFrame) (t : Nat) (s : State) : Host.Outcome State Fault Refusal :=
  .next (s.runAwake true (fun _ d => frameIngress p.val f (clockToNs t d)))

/-- MAC_AGEING: A learnt unicast address ages out after 300 s (R180). -/
def execMacAgeing (s : State) : Host.Outcome State Fault Refusal :=
  .next (s.runAwake true (fun _ d => macAgeing d))

/-- GATE_ENTRY_CHANGE: At each gate list entry END the next entry's gates come into force within the gate cycle (R183). -/
def execGateEntryChange (p : Fin 3) (s : State) : Host.Outcome State Fault Refusal :=
  .next (s.runAwake true (fun _ d => gateChange p.val d))

/-- MASTER_POS: A received MASTER_POS frame passes the acceptance steps and updates its stream and any Celivo source (R189,
R192, R193, R194, R196, R211, R217, R218, R225). -/
def execMasterPos (f : CelFrame) (t : Nat) (s : State) : Host.Outcome State Fault Refusal :=
  .next (s.runAwake true (fun _ d => celTake 1 celMasterPos f (clockToNs t d)))

/-- LINE_STATE: A received LINE_STATE updates the watched station and its acknowledgements (R189, R192, R193, R199, R204). -/
def execLineState (f : CelFrame) (t : Nat) (s : State) : Host.Outcome State Fault Refusal :=
  .next (s.runAwake true (fun _ d => celTake 2 celLineState f (clockToNs t d)))

/-- STOP_REQ: A received STOP or QUICK request matching this device is put in force at the first COMMIT instant 500 ns after
acceptance (R189, R193, R197, R198, R200, R224, R287, R487, R490, R491). -/
def execStopReq (f : CelFrame) (t : Nat) (s : State) : Host.Outcome State Fault Refusal :=
  .next (s.runAwake true (fun _ d => celTake 3 (fun f d => celSafety f (celStopReq f d)) f (clockToNs t d)))

/-- RELEASE: A RELEASE from a joined station lifts the matching request in force (R200, R224). -/
def execRelease (f : CelFrame) (t : Nat) (s : State) : Host.Outcome State Fault Refusal :=
  .next (s.runAwake true (fun _ d => celTake 3 (fun f d => celSafety f (celRelease f d)) f (clockToNs t d)))

/-- DRIVE_STATUS: A received DRIVE_STATUS updates the drive stream, ECHO_SEQ and status (R189, R193, R194, R196, R201, R203).
-/
def execDriveStatus (f : CelFrame) (t : Nat) (s : State) : Host.Outcome State Fault Refusal :=
  .next (s.runAwake true (fun _ d => celTake 5 celDriveStatus f (clockToNs t d)))

/-- JOIN_REQ: A received JOIN_REQ from a sponsored station is answered with JOIN_OFFER or DUPLICATE (R189, R193, R206, R207).
-/
def execJoinReq (f : CelFrame) (t : Nat) (s : State) : Host.Outcome State Fault Refusal :=
  .next (s.runAwake true (fun _ d => celTake 6 celJoinReq f (clockToNs t d)))

/-- JOIN_OFFER: A received JOIN_OFFER records or withdraws an offer and, for the joiner, puts the listed requests in force and
sends JOIN_ACK (R189, R193, R206, R207). -/
def execJoinOffer (f : CelFrame) (t : Nat) (s : State) : Host.Outcome State Fault Refusal :=
  .next (s.runAwake true (fun _ d => celTake 7 celJoinOffer f (clockToNs t d)))

/-- JOIN_ACK: A received JOIN_ACK confirms the joiner to its sponsor (R189, R193, R206). -/
def execJoinAck (f : CelFrame) (t : Nat) (s : State) : Host.Outcome State Fault Refusal :=
  .next (s.runAwake true (fun _ d => celTake 8 celJoinAck f (clockToNs t d)))

/-- STATION_LOST: A watched station with no LINE_STATE for DROP_TICKS ticks becomes LOST and a record is triggered (R204). -/
def execStationLost (w : Fin 64) (s : State) : Host.Outcome State Fault Refusal :=
  .next (s.runAwake true (fun _ d => stationLost w.val d))

/-- ISSUE: NET_STOP_CTRL ISSUE issues a stop request from the host or a core (R197, R198, R199). -/
def execIssue (m : Master) (v : Word) (s : State) : Host.Outcome State Fault Refusal :=
  .next (s.runFor m true (fun mem d => regPut mem m NET_STOP_CTRL (fset v NET_STOP_CTRL_CMD 1) d))

/-- RELEASE_OWN: NET_STOP_CTRL RELEASE_OWN sends RELEASE for the last request issued here (R200). -/
def execReleaseOwn (m : Master) (v : Word) (s : State) : Host.Outcome State Fault Refusal :=
  .next (s.runFor m true (fun mem d => regPut mem m NET_STOP_CTRL (fset v NET_STOP_CTRL_CMD 2) d))

/-- FORCE_RELEASE_ALL: NET_STOP_CTRL FORCE_RELEASE_ALL lifts locally every request with ORIGIN 0 and an overflow stop without
OVF_SAFE (R200). -/
def execForceReleaseAll (m : Master) (v : Word) (s : State) : Host.Outcome State Fault Refusal :=
  .next (s.runFor m true (fun mem d => regPut mem m NET_STOP_CTRL (fset v NET_STOP_CTRL_CMD 3) d))

/-- STOP_REQ_REPEAT: The issuer repeats a standing request each tick until acknowledged and then every 64 ticks (R199). -/
def execStopReqRepeat (reqId : Nat) (s : State) : Host.Outcome State Fault Refusal :=
  .next (s.runAwake true (fun _ d => stopRepeat reqId d))

/-- DRIVE_LOST: A drive whose ECHO_SEQ has not advanced, or whose status has been STALE, for ECHO_LIMIT ticks is declared lost
(R203, R289). -/
def execDriveLost (i : Fin 64) (s : State) : Host.Outcome State Fault Refusal :=
  .next (s.runAwake true (fun _ d => driveLost i.val d))

/-- JOIN: NET_CELIVO_CTRL JOIN starts a join by LISTEN and JOIN_REQ (R205, R206). -/
def execJoin (m : Master) (v : Word) (s : State) : Host.Outcome State Fault Refusal :=
  .next (s.runFor m true (fun mem d => regPut mem m NET_CELIVO_CTRL (fset v NET_CELIVO_CTRL_CMD 1) d))

/-- FORCE_JOIN: NET_CELIVO_CTRL FORCE_JOIN makes the device JOINED at the next tick without an offer (R207). -/
def execForceJoin (m : Master) (v : Word) (s : State) : Host.Outcome State Fault Refusal :=
  .next (s.runFor m true (fun mem d => regPut mem m NET_CELIVO_CTRL (fset v NET_CELIVO_CTRL_CMD 2) d))

/-- LEAVE: NET_CELIVO_CTRL LEAVE ends the join and sends one LINE_STATE with CFG_STATE 0xFF (R205). -/
def execLeave (m : Master) (v : Word) (s : State) : Host.Outcome State Fault Refusal :=
  .next (s.runFor m true (fun mem d => regPut mem m NET_CELIVO_CTRL (fset v NET_CELIVO_CTRL_CMD 3) d))

/-- AUTOJOIN: With AUTOJOIN, the device starts a join once Celivo is enabled and LOCKED is 1 (R206). -/
def execAutojoin (s : State) : Host.Outcome State Fault Refusal :=
  .next (s.runAwake true (fun _ d => celAutojoin d))

/-- JOIN_REQ_TIMEOUT: With no offer for 16 ticks the joiner repeats JOIN_REQ, up to 4 attempts, then reads NO_SPONSOR (R207).
-/
def execJoinReqTimeout (s : State) : Host.Outcome State Fault Refusal :=
  .next (s.runAwake true (fun _ d => celReqTimeout d))

/-- JOIN_ACK_TIMEOUT: A sponsor without JOIN_ACK by JOIN_AT − 4 sends JOIN_OFFER with RESULT 3 (R206). -/
def execJoinAckTimeout (joiner : Nat) (s : State) : Host.Outcome State Fault Refusal :=
  .next (s.runAwake true (fun _ d => celAckTimeout joiner d))

/-- JOIN_AT_REACHED: At tick JOIN_AT the joiner becomes JOINED and sends LINE_STATE and all its classes (R206). -/
def execJoinAtReached (s : State) : Host.Outcome State Fault Refusal :=
  .next (s.runAwake true (fun _ d => celJoinAt d))

/-- PORT_LINK_CHANGE: An external switch port's link goes up or down, which changes NET_PORTp_CFG.LINK and the egress and PTP
behaviour of the port (R180). -/
def execPortLinkChange (p : Fin 3) (up : Bool) (t : Nat) (s : State) : Host.Outcome State Fault Refusal :=
  .next (s.runAwake true (fun _ d => portLinkChange p.val up (clockToNs t d)))

end Sys2Proof.Machine
end

