-- ==== Sys2Proof/Machine/CmdLoops.lean ====
section
/-! DEFINITION. The meanings of the commands of loop slots and trace units (R318..R347). -/
namespace Sys2Proof.Machine
open Sys2Proof Sys2Proof.Reg

/-- RESET_SUP: LPE_SLOTs_CTRL RESET_SUP zeroes the supervision count and sets ŷ to y at the next due step (R339). -/
def execResetSup (m : Master) (sl : Fin 1024) (v : Word) (s : State) : Host.Outcome State Fault Refusal :=
  .next (s.runFor m true (fun mem d => regPut mem m (LPE_SLOT_CTRL sl.val) (fset v LPE_SLOT_CTRL_CMD 1) d))

/-- TRIGGER: LPE_TRCt_CTRL TRIGGER triggers the trace unit (R345). -/
def execTrigger (m : Master) (u : Fin 16) (v : Word) (s : State) : Host.Outcome State Fault Refusal :=
  .next (s.runFor m true (fun mem d => regPut mem m (LPE_TRC_CTRL u.val) (fset v LPE_TRC_CTRL_CMD 1) d))

/-- REARM: LPE_TRCt_CTRL REARM clears DONE, TRIGGERED and WRAPPED and restarts recording at BASE (R345). -/
def execRearm (m : Master) (u : Fin 16) (v : Word) (s : State) : Host.Outcome State Fault Refusal :=
  .next (s.runFor m true (fun mem d => regPut mem m (LPE_TRC_CTRL u.val) (fset v LPE_TRC_CTRL_CMD 2) d))

/-- TRACE_CONFIG_WRITE: A write to a trace unit's CFG or BASE takes effect at the next tick start; EN may be refused with
BAD_REGION (R345). -/
def execTraceConfigWrite (m : Master) (off : Nat) (v : Word) (s : State) : Host.Outcome State Fault Refusal :=
  .next (s.runFor m true (fun mem d => regPut mem m off v d))

end Sys2Proof.Machine
end

