-- ==== Sys2Proof/Machine/CmdMotion.lean ====
section
/-! DEFINITION. The meanings of the commands of feedback, encoder emulation and motion profiles (R245..R294). -/
namespace Sys2Proof.Machine
open Sys2Proof Sys2Proof.Reg

/-- QUADRATURE_EDGE: A filtered quadrature transition is decoded, counted and timestamped (R81, R211, R212, R214, R215, R245,
R246, R247, R248, R249, R250, R251, R257, R264, R265, R543). -/
def execQuadratureEdge (k : Fin 48) (a : Bool) (b : Bool) (x : InputTime) (s : State) : Host.Outcome State Fault Refusal :=
  .next (s.runClocked true (fun _ d => quadInput k.val a b x.t x.hold d))

/-- HALL_TRANSITION: A Hall code change counts ±1 or reports HALL_ERR (R245, R246, R250, R251, R252, R264). -/
def execHallTransition (k : Fin 48) (uvw : Fin 8) (x : InputTime) (s : State) : Host.Outcome State Fault Refusal :=
  .next (s.runClocked true (fun _ d => hallInput k.val uvw.val x.t x.hold d))

/-- INDEX_QUALIFIED: A qualified index captures IDX_POS and IDX_TS and may load HOME_VAL (R245, R246, R253, R254, R257, R266).
-/
def execIndexQualified (k : Fin 48) (z : Bool) (x : InputTime) (s : State) : Host.Outcome State Fault Refusal :=
  .next (s.runClocked true (fun _ d => indexInput k.val z x.t x.hold d))

/-- ARM_HOME: FBK_CMD ARM_HOME sets HOME_ARMED or is rejected (R255, R256). -/
def execArmHome (m : Master) (k : Fin 48) (s : State) : Host.Outcome State Fault Refusal :=
  .next (s.runFor m true (fun mem d => regPut mem m (FBK_CMD k.val) (fset 0 FBK_CMD_CMD 1) d))

/-- CANCEL_HOME: FBK_CMD CANCEL_HOME clears HOME_ARMED (R255). -/
def execCancelHome (m : Master) (k : Fin 48) (s : State) : Host.Outcome State Fault Refusal :=
  .next (s.runFor m true (fun mem d => regPut mem m (FBK_CMD k.val) (fset 0 FBK_CMD_CMD 2) d))

/-- SET_COUNT: FBK_CMD SET_COUNT loads HOME_VAL into the count at the TBCLK edge of acceptance, or is rejected (R255, R256,
R257). -/
def execSetCount (m : Master) (k : Fin 48) (s : State) : Host.Outcome State Fault Refusal :=
  .next (s.runFor m true (fun mem d => regPut mem m (FBK_CMD k.val) (fset 0 FBK_CMD_CMD 3) d))

/-- SSI_FRAME_START: An SSI frame starts with the first falling clock edge at n × P − 64 × LEAD ns (R258, R259). -/
def execSsiFrameStart (k : Fin 48) (dataHigh : Bool) (s : State) : Host.Outcome State Fault Refusal :=
  .next (s.runClocked true (fun _ d => ssiStartNext k.val dataHigh d))

/-- SSI_FRAME_END: A completed SSI frame is decoded into the count or fails with START, PARITY or END (R258, R260, R261, R264,
R536). -/
def execSsiFrameEnd (k : Fin 48) (g : Nat) (ext : Nat) (endHigh : Bool) (s : State) : Host.Outcome State Fault Refusal :=
  .next (s.runClocked true (fun _ d => ssiEndNext k.val g ext endHigh d))

/-- EMU_STEP: An encoder-emulation output steps one count toward its backlog after the minimum gap (R265, R266). -/
def execEmuStep (e : Fin 8) (s : State) : Host.Outcome State Fault Refusal :=
  .next (s.runClocked true (fun _ d => emuNext e.val d))

/-- CONTINUE: MPGm_CMD CONTINUE clears HELD and resumes the mode, or is rejected (R278, R286). -/
def execContinueMotion (m : Master) (g : Fin 64) (s : State) : Host.Outcome State Fault Refusal :=
  .next (s.runFor m true (fun mem d => regPut mem m (MPG_CMD g.val) (fset 0 MPG_CMD_CMD 1) d))

/-- HALT: MPGm_CMD HALT starts a stop ramp and holds the generator HELD, or is rejected (R286, R287). -/
def execHalt (m : Master) (g : Fin 64) (s : State) : Host.Outcome State Fault Refusal :=
  .next (s.runFor m true (fun mem d => regPut mem m (MPG_CMD g.val) (fset 0 MPG_CMD_CMD 2) d))

/-- SET_POS: MPGm_CMD SET_POS loads SET_POS into p, or is rejected while moving or in GEAR (R286). -/
def execSetPos (m : Master) (g : Fin 64) (s : State) : Host.Outcome State Fault Refusal :=
  .next (s.runFor m true (fun mem d => regPut mem m (MPG_CMD g.val) (fset 0 MPG_CMD_CMD 3) d))

/-- STREAM_STALE: STREAM_HOLD ticks without a STREAM_POS_HI transfer start the STREAM_STALE fault reaction (R283, R289). -/
def execStreamStale (g : Fin 64) (s : State) : Host.Outcome State Fault Refusal :=
  .next (s.runClocked true (fun _ d => mpgStale g.val d))

end Sys2Proof.Machine
end

