-- ==== Sys2Proof/Machine/CmdPowerRec.lean ====
section
/-! DEFINITION. The meanings of the commands of power states, sensors and the event recorder (R506..R524). -/
namespace Sys2Proof.Machine
open Sys2Proof Sys2Proof.Reg

/-- PWR_REQUEST: PWR_CTRL REQUEST asks for a power state, or is refused with REJ and REJ_CODE (R508, R509). -/
def execPwrRequest (m : Master) (v : Word) (s : State) : Host.Outcome State Fault Refusal :=
  .next (s.runFor m true (fun mem d => regPut mem m PWR_CTRL (fset v PWR_CTRL_CMD 1) d))

/-- EXIT: PWR_CTRL EXIT ends BREEZE (R511, R512). -/
def execExit (m : Master) (v : Word) (s : State) : Host.Outcome State Fault Refusal :=
  .next (s.runFor m true (fun mem d => regPut mem m PWR_CTRL (fset v PWR_CTRL_CMD 2) d))

/-- LOW_POWER_ENTRY: After its waits, the device stops clocks for BREEZE or powers down for LULL or CALM (R66, R67, R506,
R509, R510, R514, R515). -/
def execLowPowerEntry (l23 : Bool) (s : State) : Host.Outcome State Fault Refusal :=
  .next (s.runAwake true (fun _ d => lowPowerEntry l23 d))

/-- WAKE_IN: The WAKE_IN comparator trips and wakes the device from a low-power state (R67, R511, R512). -/
def execWakeIn (railsOk : Bool) (lfxo : Nat) (s : State) : Host.Outcome State Fault Refusal :=
  .next (s.run (fun _ d => wakeIn railsOk lfxo d))

/-- ALARM: TB ns or the coarse time keeper reaching PWR_ALARM wakes the device (R67, R511, R512, R514). -/
def execAlarm (railsOk : Bool) (s : State) : Host.Outcome State Fault Refusal :=
  .next (s.run (fun _ d => alarm railsOk d))

/-- TEMPERATURE_READING: Every 50 µs the sensors are read and WARN, CRIT or thermal shutdown react (R71, R410, R516, R517). -/
def execTemperatureReading (ts : List Int) (s : State) : Host.Outcome State Fault Refusal :=
  .next (s.runAwake true (fun _ d => tempReading readValue ts d))

/-- THERMAL_SHUTDOWN_RELEASE: When every sensor reads below 130 °C the device performs a power-on reset and sets SHDN_EVT
(R517). -/
def execThermalShutdownRelease (ts : List Int) (s : State) : Host.Outcome State Fault Refusal :=
  .next (s.run (fun _ d => thermRelease ts d))

/-- OPERATING_TIME_SAVE: Every 60 s the operating-time counter is written to MRAM (R515). -/
def execOperatingTimeSave (s : State) : Host.Outcome State Fault Refusal :=
  .next (s.runAwake true (fun _ d => opSave d))

/-- RECORD_WRITE: A queued record is assigned SEQ and written into the store with its CRC last (R157, R161, R518, R520, R521,
R522). -/
def execRecordWrite (acc : Bool) (s : State) : Host.Outcome State Fault Refusal :=
  .next (s.runAwake acc (fun _ d => recordWrite d))

/-- MANUAL: A write to EVR_TRIG triggers a MANUAL record (R518, R519). -/
def execManual (m : Master) (v : Word) (s : State) : Host.Outcome State Fault Refusal :=
  .next (s.runFor m true (fun mem d => regPut mem m EVR_TRIG v d))

/-- RD_SEQ_WRITE: A write to EVR_RD_SEQ copies the record with that SEQ into the window and sets READY (R522). -/
def execRdSeqWrite (m : Master) (v : Word) (s : State) : Host.Outcome State Fault Refusal :=
  .next (s.runFor m true (fun mem d => regPut mem m EVR_RD_SEQ v d))

/-- EVR_CLEAR: EVR_CTRL CLEAR writes the CLEAR record and erases the store, or is refused (R518, R523). -/
def execEvrClear (m : Master) (s : State) : Host.Outcome State Fault Refusal :=
  .next (s.runFor m true (fun mem d => regPut mem m EVR_CTRL (fset 0 EVR_CTRL_CMD 1) d))

/-- SET_AUTH: EVR_CTRL SET_AUTH stores EVR_ARG once as the authorisation value (R523). -/
def execSetAuth (m : Master) (s : State) : Host.Outcome State Fault Refusal :=
  .next (s.runFor m true (fun mem d => regPut mem m EVR_CTRL (fset 0 EVR_CTRL_CMD 2) d))

/-- ERASE_COMPLETE: The erasure of the record store ends within 1.5 s and BUSY_ERASE clears (R523). -/
def execEraseComplete (s : State) : Host.Outcome State Fault Refusal :=
  .next (s.runAwake true (fun _ d => eraseComplete d))

end Sys2Proof.Machine
end

