-- ==== Sys2Proof/Machine/CmdScan.lean ====
section
/-! DEFINITION. The meanings of the commands of the scan engine (R419..R440). -/
namespace Sys2Proof.Machine
open Sys2Proof Sys2Proof.Reg

/-- SCAN_CYCLE_START: At a start instant the scan engine copies its inputs and begins the cycle, or skips a start on overrun
(R120, R419, R420, R421, R422, R423, R425, R426, R427, R429, R430, R431, R432, R434, R436, R437, R438, R473). -/
def execScanCycleStart (x : EccSeen Bool) (s : State) : Host.Outcome State Fault Refusal :=
  .next (s.runClocked true (fun _ d => scanStartNext x.bad x.corr d))

/-- SNAPSHOT_WRITE_COMPLETE: A snapshot write into the older MRAM copy completes with its header last (R434). -/
def execSnapshotWriteComplete (s : State) : Host.Outcome State Fault Refusal :=
  .next (s.runClocked true (fun mem d => snapComplete mem d))

/-- FORCE_WRITE: A write to a scan force entry takes effect from the next INPUT or OUTPUT, or is discarded with FORCE_REJ
(R436). -/
def execForceWrite (m : Master) (k : Fin 64) (sel : Bool) (v : Word) (s : State) : Host.Outcome State Fault Refusal :=
  .next (s.runFor m true (fun mem d => regPut mem m (if sel then SCN_FORCE_SEL k.val else SCN_FORCE_VAL k.val) v d))

/-- SCAN_WINDOW_WRITE: A write to M or D through the scan window lands at acceptance between two instructions (R424, R440). -/
def execScanWindowWrite (m : Master) (off : Nat) (v : Word) (s : State) : Host.Outcome State Fault Refusal :=
  .next (s.runFor m true (fun mem d => regPut mem m off v d))

end Sys2Proof.Machine
end

