-- ==== Sys2Proof/Machine/CmdScheduler.lean ====
section
/-! DEFINITION. The meanings of the commands of cores, work items and the power budget (R389..R418). -/
namespace Sys2Proof.Machine
open Sys2Proof Sys2Proof.Reg

/-- MACHINE_TIMER_INTERRUPT: TB ns reaching SCH_COREk_MTIMECMP makes the core's timer interrupt pending (R390). -/
def execMachineTimerInterrupt (k : Fin 16) (s : State) : Host.Outcome State Fault Refusal :=
  .next (s.runClocked true (fun _ d => timerIrq k.val d))

/-- MACHINE_SOFTWARE_INTERRUPT: Writing MSIP makes the core's software interrupt pending (R390). -/
def execMachineSoftwareInterrupt (m : Master) (k : Fin 16) (v : Word) (s : State) : Host.Outcome State Fault Refusal :=
  .next (s.runFor m true (fun mem d => regPut mem m (SCH_CORE_MSIP k.val) v d))

/-- CORE_RELEASE: SCH_COREk_CTRL RELEASE starts a halted core at SCH_COREk_BOOT (R391). -/
def execCoreRelease (m : Master) (k : Fin 16) (acc : Bool) (s : State) : Host.Outcome State Fault Refusal :=
  .next (s.runFor m acc (fun mem d => regPut mem m (SCH_CORE_CTRL k.val) (fset 0 SCH_CORE_CTRL_CMD 1) d))

/-- CORE_HALT: SCH_COREk_CTRL HALT stops the core and aborts its items with HALT (R391, R406). -/
def execCoreHalt (m : Master) (k : Fin 16) (acc : Bool) (s : State) : Host.Outcome State Fault Refusal :=
  .next (s.runFor m acc (fun mem d => regPut mem m (SCH_CORE_CTRL k.val) (fset 0 SCH_CORE_CTRL_CMD 2) d))

/-- ABORT_ITEM: SCH_COREk_CTRL ABORT_ITEM aborts the core's top item (R406, R416). -/
def execAbortItem (m : Master) (k : Fin 16) (acc : Bool) (s : State) : Host.Outcome State Fault Refusal :=
  .next (s.runFor m acc (fun mem d => regPut mem m (SCH_CORE_CTRL k.val) (fset 0 SCH_CORE_CTRL_CMD 3) d))

/-- LOCKSTEP_MISMATCH: A lockstep compare mismatch halts both cores, aborts their items and triggers a record (R392, R406,
R416). -/
def execLockstepMismatch (j : Fin 8) (t : Nat) (acc : Bool) (s : State) : Host.Outcome State Fault Refusal :=
  .next (s.runClocked acc (fun _ d => lockstepMismatch j.val (clockToNs t d)))

/-- SUBMIT: A write to SCH_COREk_SUBMIT submits a work-item descriptor to the scheduler, which accepts or refuses it (R20,
R393, R394, R395). -/
def execSubmit (m : Master) (k : Fin 16) (v : Word) (acc : Bool) (s : State) : Host.Outcome State Fault Refusal :=
  .next (s.runFor m acc (fun mem d => regPut mem m (SCH_CORE_SUBMIT k.val) v d))

/-- SCH_CANCEL: A write to SCH_CANCEL removes a standing item or an undispatched one-shot item (R396, R416). -/
def execSchCancel (m : Master) (v : Word) (acc : Bool) (s : State) : Host.Outcome State Fault Refusal :=
  .next (s.runFor m acc (fun mem d => regPut mem m SCH_CANCEL v d))

/-- OPERAND_POST: An operand is posted into the matching store as one copy per item that names its key (R20, R395, R397, R398,
R399). -/
def execOperandPost (key : Fin 65536) (v : Word) (s : State) : Host.Outcome State Fault Refusal :=
  .next (s.runClocked true (fun _ d => postOperand key.val v d))

/-- POST_KEY: A write of a key to SCH_POST_KEY posts it with SCH_POST_VAL (R397). -/
def execPostKey (m : Master) (v : Word) (s : State) : Host.Outcome State Fault Refusal :=
  .next (s.runFor m true (fun mem d => regPut mem m SCH_POST_KEY v d))

/-- OPERAND_AGE_EXPIRY: A copy held longer than OP_AGE ticks is discarded as DROPPED (R398). -/
def execOperandAgeExpiry (s : State) : Host.Outcome State Fault Refusal :=
  .next (s.runClocked true (fun _ d => ageOperands d))

/-- RELEASE_POINT: An item's TB time release point is reached (R399, R400). -/
def execReleasePoint (slot : Fin 4096) (s : State) : Host.Outcome State Fault Refusal :=
  .next (s.runClocked true (fun _ d => releaseNext slot.val d))

/-- DISPATCH: The scheduler dispatches the highest-ranked ready item to an eligible core or pre-empts one (R18, R20, R22,
R157, R390, R401, R402, R403, R410, R411, R414, R415, R416). -/
def execDispatch (x : EccSeen (List (Fin 4096))) (acc : Bool) (s : State) : Host.Outcome State Fault Refusal :=
  .next (s.runClocked acc (fun _ d => dispatch (itemsEcc (x.bad.map (·.val)) (countEcc x.corr d))))

/-- CUR_READ: A read of SCH_COREk_CUR clears NEW and de-asserts the dispatch interrupt (R403). -/
def execCurRead (m : Master) (k : Fin 16) (s : State) : Host.Outcome State Fault Refusal :=
  .next (s.runFor m true (fun _ d => regRead m (SCH_CORE_CUR k.val) d))

/-- DONE: A write to SCH_COREk_DONE ends the core's top item, which is released in flow order or aborted (R399, R403, R404,
R405, R406, R407, R408, R413, R414, R415, R416). -/
def execDone (m : Master) (k : Fin 16) (v : Word) (acc : Bool) (s : State) : Host.Outcome State Fault Refusal :=
  .next (s.runFor m acc (fun mem d => regPut mem m (SCH_CORE_DONE k.val) v d))

/-- RELQ_DATA_WRITE: Writing RELQ_DATA appends a release pair, or sets RELQ_ERR (R404). -/
def execRelqDataWrite (m : Master) (k : Fin 16) (v : Word) (s : State) : Host.Outcome State Fault Refusal :=
  .next (s.runFor m true (fun mem d => regPut mem m (SCH_CORE_RELQ_DATA k.val) v d))

/-- FLOW_RESUME: SCH_FLOWf_CFG RESUME releases held items in order and lets the flow run (R407). -/
def execFlowResume (m : Master) (f : Fin 256) (v : Word) (acc : Bool) (s : State) : Host.Outcome State Fault Refusal :=
  .next (s.runFor m acc (fun mem d => regPut mem m (SCH_FLOW_CFG f.val) (fset v SCH_FLOW_CFG_CMD 1) d))

/-- FLOW_FLUSH: SCH_FLOWf_CFG FLUSH aborts every held and running item after the halt position (R406, R407). -/
def execFlowFlush (m : Master) (f : Fin 256) (v : Word) (acc : Bool) (s : State) : Host.Outcome State Fault Refusal :=
  .next (s.runFor m acc (fun mem d => regPut mem m (SCH_FLOW_CFG f.val) (fset v SCH_FLOW_CFG_CMD 2) d))

/-- BUDGET_WINDOW_END: At each power window end measured power is formed and running items are slowed if it exceeds EFF (R22,
R409, R410, R412). -/
def execBudgetWindowEnd (acc : Bool) (s : State) : Host.Outcome State Fault Refusal :=
  .next (s.runClocked acc (fun _ d => windowEndNext d))

end Sys2Proof.Machine
end

