-- ==== Sys2Proof/Machine/CmdSystem.lean ====
section
/-! DEFINITION. The meanings of the commands of pins, supplies, resets, readiness and function commands (R57..R98). -/
namespace Sys2Proof.Machine
open Sys2Proof Sys2Proof.Reg

/-- MFP_PIN_WRITE: A write to MFP_PINn takes effect at acceptance; on an FSEL change the pad goes high impedance for one cycle
and takes the new signal (R74, R75, R77, R79, R80, R82, R101). -/
def execMfpPinWrite (m : Master) (n : Fin 288) (v : Word) (s : State) : Host.Outcome State Fault Refusal :=
  .next (s.runFor m true (fun mem d => regPut mem m (MFP_PIN n.val) v d))

/-- VDDIO_LEVEL_CHANGE: A bank supply leaves its widened range and, after 1 µs, LEVELb takes the new level (R71, R72, R86,
R306, R314, R527). -/
def execVddioLevelChange (b : Fin 9) (mv : Nat) (t : Nat) (s : State) : Host.Outcome State Fault Refusal :=
  .next (s.runAwake true (fun _ d => vddio b.val mv (clockToNs t d)))

/-- PERST_N_ASSERT: A low level on PERST_N holds the PCI Express endpoint in reset and leaves every other block unaffected
(R65, R88, R129). -/
def execPerstNAssert (t : Nat) (s : State) : Host.Outcome State Fault Refusal :=
  .next (s.run (fun _ d => perstLow (clockToNs t d)))

/-- POWER_ON_RESET: PORST_N low or a supply supervisor trip resets the device cold, including the safety island (R15, R62,
R63, R69, R70, R71, R88, R89, R90, R92, R116, R162, R200, R205, R241, R470, R474, R477, R511, R513, R515, R529). -/
def execPowerOnReset (x : PorstInput) (supply : Bool) (s : State) : Host.Outcome State Fault Refusal :=
  .next (s.run (fun _ d => porst x.bootsel.val supply x.held d))

/-- SUPPLY_SUPERVISOR_TRIP: A GALE rail falling 2 % below its minimum for 1 µs, or VAON below 1.55 V, causes a power-on reset
(R70, R71, R528). -/
def execSupplySupervisorTrip (x : PorstInput) (s : State) : Host.Outcome State Fault Refusal :=
  .next (s.run (fun _ d => porst x.bootsel.val true x.held d))

/-- RESET_PIN: SYSRST_N low for at least 1 µs causes a cold reset that spares MRAM, the always-on domain and the safety island
(R15, R88, R89, R90, R92, R116, R162, R200). -/
def execResetPin (t : Nat) (s : State) : Host.Outcome State Fault Refusal :=
  .next (s.runAwake true (fun _ d => pinReset (clockToNs t d)))

/-- COLD: A SYS_RST_CTRL write with KEY 0x5A17 and COLD requests a software cold reset; a wrong KEY discards it (R93). -/
def execCold (m : Master) (key : Fin 65536) (s : State) : Host.Outcome State Fault Refusal :=
  .next (s.runFor m true (fun mem d => regPut mem m SYS_RST_CTRL (fset (fset 0 SYS_RST_CTRL_KEY key.val) SYS_RST_CTRL_COLD 1) d))

/-- WARM: A SYS_RST_CTRL write with KEY 0x5A17 and WARM requests a software warm reset (R93). -/
def execWarm (m : Master) (key : Fin 65536) (s : State) : Host.Outcome State Fault Refusal :=
  .next (s.runFor m true (fun mem d => regPut mem m SYS_RST_CTRL (fset (fset 0 SYS_RST_CTRL_KEY key.val) SYS_RST_CTRL_WARM 1) d))

/-- SOFTWARE_RESET_START: A software reset starts 1 µs after acceptance of the valid request (R15, R88, R89, R90, R92, R93,
R95, R116, R162, R200, R205, R296). -/
def execSoftwareResetStart (s : State) : Host.Outcome State Fault Refusal :=
  .next (s.runAwake true (fun _ d => softReset d))

/-- OSCILLATOR_LOCK: Oscillators and PLLs lock after a reset and RSTOUT_N is released (R91, R529). -/
def execOscillatorLock (lfxo : Nat) (s : State) : Host.Outcome State Fault Refusal :=
  .next (s.run (fun _ d => oscillatorLock lfxo d))

/-- UNIT_READY: A unit completes its initialisation and self-test and sets its bit in SYS_READY (R58, R94, R95, R96, R210,
R366, R442). -/
def execUnitReady (bit : Fin 23) (passed : Bool) (t : Nat) (s : State) : Host.Outcome State Fault Refusal :=
  .next (s.runAwake true (fun _ d => unitReady bit.val passed (clockToNs t d)))

/-- ENABLE: CFG_FSTATE_x CMD ENABLE moves an ARMED function to RUNNING, or queues a restart in STOPPING, at the next COMMIT
instant (R98, R99, R178, R222, R225, R228, R229, R231, R237, R241, R264, R267, R268, R289, R299, R305, R314, R337, R385, R433,
R435, R457). -/
def execEnable (m : Master) (x : Nat) (s : State) : Host.Outcome State Fault Refusal :=
  .next (s.runFor m true (fun mem d => regPut mem m (CFG_FSTATE x) (fset 0 CFG_FSTATE_CMD 1) d))

/-- DISABLE: CFG_FSTATE_x CMD DISABLE starts the stop of a RUNNING function, or clears RESTART_PENDING in STOPPING, at the
next COMMIT instant (R98, R178, R223, R233, R267, R287, R288, R305, R314, R338, R385, R434, R435, R457). -/
def execDisable (m : Master) (x : Nat) (s : State) : Host.Outcome State Fault Refusal :=
  .next (s.runFor m true (fun mem d => regPut mem m (CFG_FSTATE x) (fset 0 CFG_FSTATE_CMD 2) d))

/-- CLEAR_FAULT: CFG_FSTATE_x CMD CLEAR_FAULT leaves FAULTED for ARMED or READY when the cause has gone, or sets REJECTED
(R98, R100, R222, R268, R342, R455, R503). -/
def execClearFault (m : Master) (x : Nat) (s : State) : Host.Outcome State Fault Refusal :=
  .next (s.runFor m true (fun mem d => regPut mem m (CFG_FSTATE x) (fset 0 CFG_FSTATE_CMD 3) d))

end Sys2Proof.Machine
end

