-- ==== Sys2Proof/Machine/CmdTicks.lean ====
section
/-! DEFINITION. The meanings of the commands of the three instants of a tick (R26..R40). -/
namespace Sys2Proof.Machine
open Sys2Proof Sys2Proof.Reg

/-- TICK_START: At offset 0 of each tick the tick number advances and every tick-bound input is latched in SAMPLE (R21, R26,
R28, R29, R119, R120, R122, R123, R183, R191, R195, R203, R208, R210, R211, R216, R219, R220, R221, R222, R223, R224, R225,
R228, R238, R243, R256, R262, R263, R275, R291, R297, R299, R300, R305, R314, R345, R362, R370, R371, R376, R377, R378, R379,
R381, R382, R383, R498, R503). -/
def execTickStart (s : State) : Host.Outcome State Fault Refusal :=
  .next (s.run (fun mem d => boundaryTo mem 0 sampleStart d))

/-- COMPUTE_START: At offset 1,250 ns COMPUTE begins: loop slots are evaluated, profile generators advance and the SAR latch
is taken (R28, R30, R271, R272, R274, R275, R276, R277, R278, R279, R280, R281, R282, R283, R284, R285, R287, R288, R289,
R292, R318, R319, R321, R322, R323, R324, R325, R326, R327, R328, R329, R330, R334, R335, R336, R337, R338, R339, R340, R341,
R343, R345, R359, R360). -/
def execComputeStart (x : TickMeets) (s : State) : Host.Outcome State Fault Refusal :=
  .next (s.run (fun mem d => boundaryTo mem 1 (computeStart (x.bad.map (·.val)) x.corr (x.late.map (·.val))) d))

/-- COMMIT_INSTANT: At offset P − 1,500 ns staged values and computed results transfer into the output shadow registers and
function states change (R25, R28, R29, R32, R33, R34, R38, R41, R84, R86, R98, R99, R101, R113, R114, R115, R119, R161, R189,
R191, R192, R198, R201, R224, R229, R237, R239, R240, R243, R256, R267, R268, R272, R274, R278, R286, R288, R289, R292, R300,
R305, R308, R310, R314, R331, R332, R341, R342, R344, R365, R385, R396, R406, R408, R420, R433, R435, R455, R457, R489, R490,
R494, R495, R500, R502, R518, R519). -/
def execCommitInstant (s : State) : Host.Outcome State Fault Refusal :=
  .next (s.run (fun mem d => boundaryTo mem 2 (commitInstant mem) d))

end Sys2Proof.Machine
end

