-- ==== Sys2Proof/Machine/CmdTimeBase.lean ====
section
/-! DEFINITION. The meanings of the commands of TB time, the PTP engine, pulses and captures (R167..R188). -/
namespace Sys2Proof.Machine
open Sys2Proof Sys2Proof.Reg

/-- STEP: TB_CTRL STEP loads TB_SET into TB time unless an owning function is armed, sets STEPPED and triggers a record (R20,
R170, R178, R544). -/
def execStep (m : Master) (v : Word) (s : State) : Host.Outcome State Fault Refusal :=
  .next (s.runFor m true (fun mem d => regPut mem m TB_CTRL (fset v TB_CTRL_STEP 1) d))

/-- TICK_PERIOD_WRITE: A write to TB_TICK_CFG.PERIOD changes the tick period at the next TBCLK edge while no owning function
is armed (R20, R27, R175, R544). -/
def execTickPeriodWrite (m : Master) (v : Word) (s : State) : Host.Outcome State Fault Refusal :=
  .next (s.runFor m true (fun mem d => regPut mem m TB_TICK_CFG v d))

/-- ADDEND_WRITE: A write to TB_ADDEND sets the nominal addend, or is discarded with ADDEND_WR while SERVO_EN = 1 (R168). -/
def execAddendWrite (m : Master) (high : Bool) (v : Word) (s : State) : Host.Outcome State Fault Refusal :=
  .next (s.runFor m true (fun mem d => regPut mem m (if high then TB_ADDEND_HI else TB_ADDEND_LO) v d))

/-- SYNC: A received Sync on the SLAVE port yields an offset measurement that the servo turns into an addend correction (R20,
R168, R171, R172, R173, R185, R186, R188). -/
def execSync (p : Fin 3) (msg : PtpMsg) (t : Nat) (acc : Bool) (s : State) : Host.Outcome State Fault Refusal :=
  .next (s.runAwake acc (fun _ d => ptpSync p.val msg (stampNs (clockToNs t d) t) (clockToNs t d)))

/-- SYNC_TIMEOUT: No measurement for 8 Sync intervals clears LOCKED and sets HOLDOVER and LOCK_LOST (R173). -/
def execSyncTimeout (s : State) : Host.Outcome State Fault Refusal :=
  .next (s.runAwake true (fun _ d => syncTimeout d))

/-- FOLLOW_UP: A received Follow_Up completes a two-step Sync measurement (R185, R186, R188). -/
def execFollowUp (p : Fin 3) (msg : PtpMsg) (t : Nat) (acc : Bool) (s : State) : Host.Outcome State Fault Refusal :=
  .next (s.runAwake acc (fun _ d => ptpFollowUp p.val msg (clockToNs t d)))

/-- DELAY_REQ: A received Delay_Req is answered in hardware with Delay_Resp (R185, R186). -/
def execDelayReq (p : Fin 3) (msg : PtpMsg) (t : Nat) (acc : Bool) (s : State) : Host.Outcome State Fault Refusal :=
  .next (s.runAwake acc (fun _ d => ptpDelayReq p.val msg (stampNs (clockToNs t d) t) (clockToNs t d)))

/-- DELAY_RESP: A received Delay_Resp completes a delay measurement (R185, R186, R188). -/
def execDelayResp (p : Fin 3) (msg : PtpMsg) (t : Nat) (acc : Bool) (s : State) : Host.Outcome State Fault Refusal :=
  .next (s.runAwake acc (fun _ d => ptpDelayResp p.val msg (clockToNs t d)))

/-- PDELAY_REQ: A received Pdelay_Req is answered with Pdelay_Resp and, two-step, Pdelay_Resp_Follow_Up (R185, R186, R187). -/
def execPdelayReq (p : Fin 3) (msg : PtpMsg) (t : Nat) (acc : Bool) (s : State) : Host.Outcome State Fault Refusal :=
  .next (s.runAwake acc (fun _ d => ptpPdelayReq p.val msg (stampNs (clockToNs t d) t) (clockToNs t d)))

/-- PDELAY_RESP: A received Pdelay_Resp contributes to the peer link delay measurement (R185, R186). -/
def execPdelayResp (p : Fin 3) (msg : PtpMsg) (t : Nat) (acc : Bool) (s : State) : Host.Outcome State Fault Refusal :=
  .next (s.runAwake acc (fun _ d => ptpPdelayResp p.val msg (stampNs (clockToNs t d) t) (clockToNs t d)))

/-- PDELAY_RESP_FOLLOW_UP: A received Pdelay_Resp_Follow_Up completes a two-step peer delay measurement (R185). -/
def execPdelayRespFollowUp (p : Fin 3) (msg : PtpMsg) (t : Nat) (acc : Bool) (s : State) : Host.Outcome State Fault Refusal :=
  .next (s.runAwake acc (fun _ d => ptpPdelayFollow p.val msg (clockToNs t d)))

/-- SYNC_INTERVAL_EXPIRY: At each logSyncInterval a MASTER port originates a Sync (R185, R186, R187). -/
def execSyncIntervalExpiry (p : Fin 3) (t : Nat) (s : State) : Host.Outcome State Fault Refusal :=
  .next (s.runAwake true (fun _ d => ptpSendSync p.val (clockToNs t d)))

/-- PDELAY_INTERVAL_EXPIRY: At each logMinPdelayReqInterval a P2P port sends Pdelay_Req (R185, R186). -/
def execPdelayIntervalExpiry (p : Fin 3) (t : Nat) (s : State) : Host.Outcome State Fault Refusal :=
  .next (s.runAwake true (fun _ d => ptpSendPdelay p.val (clockToNs t d)))

/-- TB_PULSE_EDGE: With DOMAIN = 0, a scheduled pulse rises at the first TBCLK edge at which TB time reaches START + j ×
PERIOD, or counts MISSED (R177, R178). -/
def execTbPulseEdge (k : Fin 4) (s : State) : Host.Outcome State Fault Refusal :=
  .next (s.runAwake true (fun _ d => pulseEdgeDue k.val d))

/-- TB_PULSE_END: A TB_PULSEk output falls WIDTH ns, rounded up to whole TBCLK periods, after its rising edge (R177). -/
def execTbPulseEnd (k : Fin 4) (s : State) : Host.Outcome State Fault Refusal :=
  .next (s.runAwake true (fun _ d => pulseEnd k.val d))

/-- CAPTURE_EDGE: A selected edge at a TB_CAPk pin stores a timestamped FIFO entry, counts OVERFLOW, and may post operand
0x0830 + k (R81, R179, R543). -/
def execCaptureEdge (k : Fin 4) (rise : Bool) (x : InputTime) (s : State) : Host.Outcome State Fault Refusal :=
  .next (s.runAwake true (fun _ d => captureInput k.val rise x.t x.hold d))

/-- TS_HI_READ: A read of TB_CAPk_TS_HI removes the oldest capture entry from the FIFO (R179). -/
def execTsHiRead (m : Master) (k : Fin 4) (s : State) : Host.Outcome State Fault Refusal :=
  .next (s.runFor m true (fun _ d => regRead m (TB_CAP_TS_HI k.val) d))

end Sys2Proof.Machine
end

