-- ==== Sys2Proof/Machine/CmdTwinLink.lean ====
section
/-! DEFINITION. The meanings of the commands of the twin link (R493..R505). -/
namespace Sys2Proof.Machine
open Sys2Proof Sys2Proof.Reg

/-- HELLO: A received HELLO twin frame reports the peer's role, token and image (R493, R494, R497, R503). -/
def execHello (h : TwnHello) (s : State) : Host.Outcome State Fault Refusal :=
  .next (s.runClocked true (fun _ d => twnRxHello h d))

/-- STATE: Received STATE chunks of a tick are collected for alignment (R497, R498). -/
def execState (tick : Nat) (chunk : Nat) (last : Bool) (items : List TwnItem) (s : State) : Host.Outcome State Fault Refusal :=
  .next (s.runClocked true (fun _ d => twnRxState tick chunk last items d))

/-- WRITE: A received WRITE frame makes the shadow apply the owner's mirrored writes (R499). -/
def execWrite (off : Nat) (v : Word) (tick : Nat) (s : State) : Host.Outcome State Fault Refusal :=
  .next (s.runClocked true (fun mem d => twnRxWrite mem off v tick d))

/-- FAULT: A FAULT frame from the owner makes the shadow take ownership (R500, R501, R504). -/
def execFault (t : Nat) (s : State) : Host.Outcome State Fault Refusal :=
  .next (s.runClocked true (fun _ d => twnRxFault (clockToNs t d)))

/-- HANDOVER_FRAME: A received HANDOVER makes the shadow answer HANDOVER_ACK (R502). -/
def execHandoverFrame (tick : Nat) (token : Nat) (s : State) : Host.Outcome State Fault Refusal :=
  .next (s.runClocked true (fun _ d => twnRxHandover tick token d))

/-- HANDOVER_ACK: A received HANDOVER_ACK confirms a planned handover (R502). -/
def execHandoverAck (tick : Nat) (s : State) : Host.Outcome State Fault Refusal :=
  .next (s.runClocked true (fun _ d => twnRxAck tick d))

/-- SYNC_FRAME: A received SYNC frame transfers bulk state to a SYNCING device (R503). -/
def execSyncFrame (bulk : TwnBulk) (s : State) : Host.Outcome State Fault Refusal :=
  .next (s.runClocked true (fun _ d => twnRxSync bulk d))

/-- SCAN_CRC: A received SCAN_CRC differing from the shadow's requests a scan SYNC (R498). -/
def execScanCrc (cycle : Nat) (crc : Nat) (s : State) : Host.Outcome State Fault Refusal :=
  .next (s.runClocked true (fun _ d => twnRxCrc cycle crc d))

/-- LANES_LOST: Both lanes without symbol lock for 1 µs make the shadow take over at the next tick's COMMIT (R500, R501,
R504). -/
def execLanesLost (t : Nat) (s : State) : Host.Outcome State Fault Refusal :=
  .next (s.runClocked true (fun _ d => twnLanesLost (clockToNs t d)))

/-- LANE_LOSS: One lane lost: the link continues on the other and LANE_EVT is set (R497, R504). -/
def execLaneLoss (lane : Fin 2) (t : Nat) (s : State) : Host.Outcome State Fault Refusal :=
  .next (s.runClocked true (fun _ d => twnLaneLoss lane.val (clockToNs t d)))

/-- TWN_HANDOVER: TWN_CMD HANDOVER sends HANDOVER with AT = tick + 16 (R502, R505). -/
def execTwnHandover (m : Master) (s : State) : Host.Outcome State Fault Refusal :=
  .next (s.runFor m true (fun mem d => regPut mem m TWN_CMD (fset 0 TWN_CMD_CMD 1) d))

/-- RESYNC: TWN_CMD RESYNC requests a full SYNC (R505). -/
def execResync (m : Master) (s : State) : Host.Outcome State Fault Refusal :=
  .next (s.runFor m true (fun mem d => regPut mem m TWN_CMD (fset 0 TWN_CMD_CMD 2) d))

/-- SYMBOL_LOCK: A twin-link lane gains symbol lock, which sets LANE0 or LANE1 and lets the link run on that lane again
(R497). -/
def execSymbolLock (lane : Fin 2) (t : Nat) (s : State) : Host.Outcome State Fault Refusal :=
  .next (s.runClocked true (fun _ d => twnSymbolLock lane.val (clockToNs t d)))

end Sys2Proof.Machine
end

