-- ==== Sys2Proof/Machine/CmdWeb.lean ====
section
/-! DEFINITION. The meanings of the commands of the web phase unit (R208..R244). -/
namespace Sys2Proof.Machine
open Sys2Proof Sys2Proof.Reg

/-- ENCODER_STANDSTILL: No counted edge for STILL_US µs makes the channel declare standstill with velocity and acceleration 0
(R214). -/
def execEncoderStandstill (c : Fin 4) (b : Bool) (s : State) : Host.Outcome State Fault Refusal :=
  .next (s.runClocked true (fun _ d => chanStandstill c.val b d))

/-- USE_A: WPU_CHc_CMD USE_A changes the channel to source A at offset 0 after the next COMMIT instant, or sets SW_REJ (R220).
-/
def execUseA (m : Master) (c : Fin 4) (s : State) : Host.Outcome State Fault Refusal :=
  .next (s.runFor m true (fun mem d => regPut mem m (WPU_CH_CMD c.val) (fset 0 WPU_CH_CMD_CMD 1) d))

/-- USE_B: WPU_CHc_CMD USE_B changes the channel to source B at offset 0 after the next COMMIT instant, or sets SW_REJ (R220).
-/
def execUseB (m : Master) (c : Fin 4) (s : State) : Host.Outcome State Fault Refusal :=
  .next (s.runFor m true (fun mem d => regPut mem m (WPU_CH_CMD c.val) (fset 0 WPU_CH_CMD_CMD 2) d))

/-- POSITION_EVENT_REACHED: Forward motion brings a channel's position to a scheduled event position and the event fires once
(R177, R213, R225, R226, R375, R400). -/
def execPositionEventReached (c : Fin 4) (t : Nat) (s : State) : Host.Outcome State Fault Refusal :=
  .next (s.runClocked true (fun _ d => eventsReached c.val (clockToNs t d)))

/-- PRINT_BAR_FIRE: The web phase unit commits a print-bar fire at its 125 ps placement, or treats it as behind, and computes
the next X_k (R24, R213, R217, R226, R228, R230, R232, R234, R236, R238, R239, R240, R241, R242, R380, R381, R382, R535). -/
def execPrintBarFire (b : Fin 32) (t : Nat) (s : State) : Host.Outcome State Fault Refusal :=
  .next (s.runClocked true (fun _ d => barEval b.val (clockToNs t d)))

/-- FIRE_PULSE_END: A committed fire pulse ends WIDTH ns after its leading edge (R233). -/
def execFirePulseEnd (b : Fin 32) (s : State) : Host.Outcome State Fault Refusal :=
  .next (s.runClocked true (fun _ d => barPulseDue b.val d))

/-- APPLY: WPU_UPD_CTRL APPLY captures staged offset and stretch as a pending update for each masked bar (R34, R236, R237). -/
def execApply (m : Master) (v : Word) (s : State) : Host.Outcome State Fault Refusal :=
  .next (s.runFor m true (fun mem d => regPut mem m WPU_UPD_CTRL (fset v WPU_UPD_CTRL_CMD 1) d))

/-- CANCEL: WPU_UPD_CTRL CANCEL drops the pending updates of the masked bars (R237). -/
def execCancel (m : Master) (v : Word) (s : State) : Host.Outcome State Fault Refusal :=
  .next (s.runFor m true (fun mem d => regPut mem m WPU_UPD_CTRL (fset v WPU_UPD_CTRL_CMD 2) d))

/-- DELAY_LINE_CALIBRATION: The web phase unit calibrates its delay line at reset and continuously, setting DL_CAL or DL_ERR
(R244). -/
def execDelayLineCalibration (ok : Bool) (s : State) : Host.Outcome State Fault Refusal :=
  .next (s.runClocked true (fun _ d => delayLine ok d))

end Sys2Proof.Machine
end

