-- ==== Sys2Proof/Machine/Dispatch.lean ====
section
/-! DEFINITION. One arm per command: its meaning. -/
namespace Sys2Proof.Machine
open Sys2Proof

/-- The effect of a command on everything but the queue. -/
def exec (i : Instr) (s : State) : Host.Outcome State Fault Refusal :=
  match i with
  | .registerWrite x off v full => Sys2Proof.Machine.execRegisterWrite x off v full s
  | .readClear x off => Sys2Proof.Machine.execReadClear x off s
  | .lowWordRead m off => Sys2Proof.Machine.execLowWordRead m off s
  | .sysSyncRead m => Sys2Proof.Machine.execSysSyncRead m s
  | .memoryAccess m addr q x => Sys2Proof.Machine.execMemoryAccess m addr q x s
  | .fenceInstruction k pred succ => Sys2Proof.Machine.execFenceInstruction k pred succ s
  | .fenceTso k => Sys2Proof.Machine.execFenceTso k s
  | .fenceI k => Sys2Proof.Machine.execFenceI k s
  | .tickStart => Sys2Proof.Machine.execTickStart s
  | .computeStart x => Sys2Proof.Machine.execComputeStart x s
  | .commitInstant => Sys2Proof.Machine.execCommitInstant s
  | .mfpPinWrite m n v => Sys2Proof.Machine.execMfpPinWrite m n v s
  | .vddioLevelChange b mv t => Sys2Proof.Machine.execVddioLevelChange b mv t s
  | .perstNAssert t => Sys2Proof.Machine.execPerstNAssert t s
  | .powerOnReset x supply => Sys2Proof.Machine.execPowerOnReset x supply s
  | .supplySupervisorTrip x => Sys2Proof.Machine.execSupplySupervisorTrip x s
  | .resetPin t => Sys2Proof.Machine.execResetPin t s
  | .cold m key => Sys2Proof.Machine.execCold m key s
  | .warm m key => Sys2Proof.Machine.execWarm m key s
  | .softwareResetStart => Sys2Proof.Machine.execSoftwareResetStart s
  | .oscillatorLock lfxo => Sys2Proof.Machine.execOscillatorLock lfxo s
  | .unitReady bit passed t => Sys2Proof.Machine.execUnitReady bit passed t s
  | .enable m x => Sys2Proof.Machine.execEnable m x s
  | .disable m x => Sys2Proof.Machine.execDisable m x s
  | .clearFault m x => Sys2Proof.Machine.execClearFault m x s
  | .load m => Sys2Proof.Machine.execLoad m s
  | .arm m => Sys2Proof.Machine.execArm m s
  | .disarm m => Sys2Proof.Machine.execDisarm m s
  | .disarmNow m => Sys2Proof.Machine.execDisarmNow m s
  | .store m => Sys2Proof.Machine.execStore m s
  | .loadMram m => Sys2Proof.Machine.execLoadMram m s
  | .loadQspi m => Sys2Proof.Machine.execLoadQspi m s
  | .eraseStore m => Sys2Proof.Machine.execEraseStore m s
  | .draftSync m => Sys2Proof.Machine.execDraftSync m s
  | .imageLoadEnd => Sys2Proof.Machine.execImageLoadEnd s
  | .armChecksEnd => Sys2Proof.Machine.execArmChecksEnd s
  | .storeComplete => Sys2Proof.Machine.execStoreComplete s
  | .eraseStoreComplete => Sys2Proof.Machine.execEraseStoreComplete s
  | .draftSyncComplete => Sys2Proof.Machine.execDraftSyncComplete s
  | .bootAction => Sys2Proof.Machine.execBootAction s
  | .request m v => Sys2Proof.Machine.execRequest m v s
  | .swapCancel m v => Sys2Proof.Machine.execSwapCancel m v s
  | .swapChecksEnd => Sys2Proof.Machine.execSwapChecksEnd s
  | .swapTimeout => Sys2Proof.Machine.execSwapTimeout s
  | .flr => Sys2Proof.Machine.execFlr s
  | .linkLost t => Sys2Proof.Machine.execLinkLost t s
  | .busMasterEnableChange x enable fnMask acc => Sys2Proof.Machine.execBusMasterEnableChange x enable fnMask acc s
  | .sqTail r v acc => Sys2Proof.Machine.execSqTail r v acc s
  | .cqHead r v acc => Sys2Proof.Machine.execCqHead r v acc s
  | .descriptorFetch r x acc => Sys2Proof.Machine.execDescriptorFetch r x acc s
  | .nop r acc => Sys2Proof.Machine.execNop r acc s
  | .regWriteList r x acc => Sys2Proof.Machine.execRegWriteList r x acc s
  | .regReadList r x acc => Sys2Proof.Machine.execRegReadList r x acc s
  | .memWrite r x acc => Sys2Proof.Machine.execMemWrite r x acc s
  | .memRead r ecc acc => Sys2Proof.Machine.execMemRead r ecc acc s
  | .fence r acc => Sys2Proof.Machine.execFence r acc s
  | .cfgCmd r acc => Sys2Proof.Machine.execCfgCmd r acc s
  | .workSubmit r x acc => Sys2Proof.Machine.execWorkSubmit r x acc s
  | .rxBuffer r acc => Sys2Proof.Machine.execRxBuffer r acc s
  | .ethTx r x acc => Sys2Proof.Machine.execEthTx r x acc s
  | .partialBufferFlush r acc => Sys2Proof.Machine.execPartialBufferFlush r acc s
  | .mgmtFrameReceive bytes acc t => Sys2Proof.Machine.execMgmtFrameReceive bytes acc t s
  | .coalescingTimeout r => Sys2Proof.Machine.execCoalescingTimeout r s
  | .msixVectorUnmask m n => Sys2Proof.Machine.execMsixVectorUnmask m n s
  | .ringEnable m r acc => Sys2Proof.Machine.execRingEnable m r acc s
  | .ringDisable m r acc => Sys2Proof.Machine.execRingDisable m r acc s
  | .ringResume m r acc => Sys2Proof.Machine.execRingResume m r acc s
  | .ringReset m r acc => Sys2Proof.Machine.execRingReset m r acc s
  | .sqHeadWrite m r v => Sys2Proof.Machine.execSqHeadWrite m r v s
  | .ringConfigWrite m off v => Sys2Proof.Machine.execRingConfigWrite m off v s
  | .step m v => Sys2Proof.Machine.execStep m v s
  | .tickPeriodWrite m v => Sys2Proof.Machine.execTickPeriodWrite m v s
  | .addendWrite m high v => Sys2Proof.Machine.execAddendWrite m high v s
  | .sync p msg t acc => Sys2Proof.Machine.execSync p msg t acc s
  | .syncTimeout => Sys2Proof.Machine.execSyncTimeout s
  | .followUp p msg t acc => Sys2Proof.Machine.execFollowUp p msg t acc s
  | .delayReq p msg t acc => Sys2Proof.Machine.execDelayReq p msg t acc s
  | .delayResp p msg t acc => Sys2Proof.Machine.execDelayResp p msg t acc s
  | .pdelayReq p msg t acc => Sys2Proof.Machine.execPdelayReq p msg t acc s
  | .pdelayResp p msg t acc => Sys2Proof.Machine.execPdelayResp p msg t acc s
  | .pdelayRespFollowUp p msg t acc => Sys2Proof.Machine.execPdelayRespFollowUp p msg t acc s
  | .syncIntervalExpiry p t => Sys2Proof.Machine.execSyncIntervalExpiry p t s
  | .pdelayIntervalExpiry p t => Sys2Proof.Machine.execPdelayIntervalExpiry p t s
  | .frameIngress p f t => Sys2Proof.Machine.execFrameIngress p f t s
  | .macAgeing => Sys2Proof.Machine.execMacAgeing s
  | .gateEntryChange p => Sys2Proof.Machine.execGateEntryChange p s
  | .masterPos f t => Sys2Proof.Machine.execMasterPos f t s
  | .lineState f t => Sys2Proof.Machine.execLineState f t s
  | .stopReq f t => Sys2Proof.Machine.execStopReq f t s
  | .release f t => Sys2Proof.Machine.execRelease f t s
  | .driveStatus f t => Sys2Proof.Machine.execDriveStatus f t s
  | .joinReq f t => Sys2Proof.Machine.execJoinReq f t s
  | .joinOffer f t => Sys2Proof.Machine.execJoinOffer f t s
  | .joinAck f t => Sys2Proof.Machine.execJoinAck f t s
  | .stationLost w => Sys2Proof.Machine.execStationLost w s
  | .issue m v => Sys2Proof.Machine.execIssue m v s
  | .releaseOwn m v => Sys2Proof.Machine.execReleaseOwn m v s
  | .forceReleaseAll m v => Sys2Proof.Machine.execForceReleaseAll m v s
  | .stopReqRepeat reqId => Sys2Proof.Machine.execStopReqRepeat reqId s
  | .driveLost n => Sys2Proof.Machine.execDriveLost n s
  | .join m v => Sys2Proof.Machine.execJoin m v s
  | .forceJoin m v => Sys2Proof.Machine.execForceJoin m v s
  | .leave m v => Sys2Proof.Machine.execLeave m v s
  | .autojoin => Sys2Proof.Machine.execAutojoin s
  | .joinReqTimeout => Sys2Proof.Machine.execJoinReqTimeout s
  | .joinAckTimeout joiner => Sys2Proof.Machine.execJoinAckTimeout joiner s
  | .joinAtReached => Sys2Proof.Machine.execJoinAtReached s
  | .encoderStandstill c b => Sys2Proof.Machine.execEncoderStandstill c b s
  | .useA m c => Sys2Proof.Machine.execUseA m c s
  | .useB m c => Sys2Proof.Machine.execUseB m c s
  | .positionEventReached c t => Sys2Proof.Machine.execPositionEventReached c t s
  | .printBarFire b t => Sys2Proof.Machine.execPrintBarFire b t s
  | .firePulseEnd b => Sys2Proof.Machine.execFirePulseEnd b s
  | .apply m v => Sys2Proof.Machine.execApply m v s
  | .cancel m v => Sys2Proof.Machine.execCancel m v s
  | .delayLineCalibration ok => Sys2Proof.Machine.execDelayLineCalibration ok s
  | .quadratureEdge k a b x => Sys2Proof.Machine.execQuadratureEdge k a b x s
  | .hallTransition k uvw x => Sys2Proof.Machine.execHallTransition k uvw x s
  | .indexQualified k z x => Sys2Proof.Machine.execIndexQualified k z x s
  | .armHome m k => Sys2Proof.Machine.execArmHome m k s
  | .cancelHome m k => Sys2Proof.Machine.execCancelHome m k s
  | .setCount m k => Sys2Proof.Machine.execSetCount m k s
  | .ssiFrameStart k dataHigh => Sys2Proof.Machine.execSsiFrameStart k dataHigh s
  | .ssiFrameEnd k g ext endHigh => Sys2Proof.Machine.execSsiFrameEnd k g ext endHigh s
  | .emuStep e => Sys2Proof.Machine.execEmuStep e s
  | .continueMotion m g => Sys2Proof.Machine.execContinueMotion m g s
  | .halt m g => Sys2Proof.Machine.execHalt m g s
  | .setPos m g => Sys2Proof.Machine.execSetPos m g s
  | .streamStale g => Sys2Proof.Machine.execStreamStale g s
  | .stepPulse g => Sys2Proof.Machine.execStepPulse g s
  | .offPhaseEnd j coilB => Sys2Proof.Machine.execOffPhaseEnd j coilB s
  | .setEpos m j v => Sys2Proof.Machine.execSetEpos m j v s
  | .pwmReload p => Sys2Proof.Machine.execPwmReload p s
  | .cmpWrite m p v => Sys2Proof.Machine.execCmpWrite m p v s
  | .pwmFaultInput g level x => Sys2Proof.Machine.execPwmFaultInput g level x s
  | .resetSup m sl v => Sys2Proof.Machine.execResetSup m sl v s
  | .trigger m u v => Sys2Proof.Machine.execTrigger m u v s
  | .rearm m u v => Sys2Proof.Machine.execRearm m u v s
  | .traceConfigWrite m off v => Sys2Proof.Machine.execTraceConfigWrite m off v s
  | .sarConversionStart c kind => Sys2Proof.Machine.execSarConversionStart c kind s
  | .sarConversionComplete c vin vref acc => Sys2Proof.Machine.execSarConversionComplete c vin vref acc s
  | .pwmTriggerInstant c e => Sys2Proof.Machine.execPwmTriggerInstant c e s
  | .start m c v => Sys2Proof.Machine.execStart m c v s
  | .sdResult k vd vref acc => Sys2Proof.Machine.execSdResult k vd vref acc s
  | .referenceError g t => Sys2Proof.Machine.execReferenceError g t s
  | .referenceRecovery g t => Sys2Proof.Machine.execReferenceRecovery g t s
  | .testDacWrite m g v => Sys2Proof.Machine.execTestDacWrite m g v s
  | .cal m v => Sys2Proof.Machine.execCal m v s
  | .calibrationComplete => Sys2Proof.Machine.execCalibrationComplete s
  | .windowBound u w t acc => Sys2Proof.Machine.execWindowBound u w t acc s
  | .acqTimerExpiry u w acc => Sys2Proof.Machine.execAcqTimerExpiry u w acc s
  | .force m u acc => Sys2Proof.Machine.execForce m u acc s
  | .acqRearm m u acc => Sys2Proof.Machine.execAcqRearm m u acc s
  | .run m u acc => Sys2Proof.Machine.execRun m u acc s
  | .stop m u acc => Sys2Proof.Machine.execStop m u acc s
  | .rptrWrite m u v => Sys2Proof.Machine.execRptrWrite m u v s
  | .machineTimerInterrupt k => Sys2Proof.Machine.execMachineTimerInterrupt k s
  | .machineSoftwareInterrupt m k v => Sys2Proof.Machine.execMachineSoftwareInterrupt m k v s
  | .coreRelease m k acc => Sys2Proof.Machine.execCoreRelease m k acc s
  | .coreHalt m k acc => Sys2Proof.Machine.execCoreHalt m k acc s
  | .abortItem m k acc => Sys2Proof.Machine.execAbortItem m k acc s
  | .lockstepMismatch j t acc => Sys2Proof.Machine.execLockstepMismatch j t acc s
  | .submit m k v acc => Sys2Proof.Machine.execSubmit m k v acc s
  | .schCancel m v acc => Sys2Proof.Machine.execSchCancel m v acc s
  | .operandPost key v => Sys2Proof.Machine.execOperandPost key v s
  | .postKey m v => Sys2Proof.Machine.execPostKey m v s
  | .operandAgeExpiry => Sys2Proof.Machine.execOperandAgeExpiry s
  | .releasePoint slot => Sys2Proof.Machine.execReleasePoint slot s
  | .dispatch x acc => Sys2Proof.Machine.execDispatch x acc s
  | .curRead m k => Sys2Proof.Machine.execCurRead m k s
  | .done m k v acc => Sys2Proof.Machine.execDone m k v acc s
  | .relqDataWrite m k v => Sys2Proof.Machine.execRelqDataWrite m k v s
  | .flowResume m f v acc => Sys2Proof.Machine.execFlowResume m f v acc s
  | .flowFlush m f v acc => Sys2Proof.Machine.execFlowFlush m f v acc s
  | .budgetWindowEnd acc => Sys2Proof.Machine.execBudgetWindowEnd acc s
  | .scanCycleStart x => Sys2Proof.Machine.execScanCycleStart x s
  | .snapshotWriteComplete => Sys2Proof.Machine.execSnapshotWriteComplete s
  | .forceWrite m k sel v => Sys2Proof.Machine.execForceWrite m k sel v s
  | .scanWindowWrite m off v => Sys2Proof.Machine.execScanWindowWrite m off v s
  | .fieldLinkFrameStart p => Sys2Proof.Machine.execFieldLinkFrameStart p s
  | .upstreamBlock p t framed bytes => Sys2Proof.Machine.execUpstreamBlock p t framed bytes s
  | .frameClose p => Sys2Proof.Machine.execFrameClose p s
  | .lineBreak p t => Sys2Proof.Machine.execLineBreak p t s
  | .clear m p v => Sys2Proof.Machine.execClear m p v s
  | .resend m p v => Sys2Proof.Machine.execResend m p v s
  | .canCtrlWrite m k v => Sys2Proof.Machine.execCanCtrlWrite m k v s
  | .canFrameReceive k id dlc flags sof data t acc => Sys2Proof.Machine.execCanFrameReceive k id dlc flags sof data t acc s
  | .canStartOfFrame k t => Sys2Proof.Machine.execCanStartOfFrame k t s
  | .txOk k tdcv esi t acc => Sys2Proof.Machine.execTxOk k tdcv esi t acc s
  | .canErrorFrame k code data tx first t => Sys2Proof.Machine.execCanErrorFrame k code data tx first t s
  | .busOff k t => Sys2Proof.Machine.execBusOff k t s
  | .busOffRecoveryEnd k t => Sys2Proof.Machine.execBusOffRecoveryEnd k t s
  | .req m k b => Sys2Proof.Machine.execReq m k b s
  | .canCancel m k b => Sys2Proof.Machine.execCanCancel m k b s
  | .bor m k => Sys2Proof.Machine.execBor m k s
  | .channelAEvaluation x => Sys2Proof.Machine.execChannelAEvaluation x s
  | .channelBEvaluation x => Sys2Proof.Machine.execChannelBEvaluation x s
  | .squallWindowEnd => Sys2Proof.Machine.execSquallWindowEnd s
  | .standstillHoldEnd => Sys2Proof.Machine.execStandstillHoldEnd s
  | .outputTest k pass => Sys2Proof.Machine.execOutputTest k pass s
  | .safetySupplyFault => Sys2Proof.Machine.execSafetySupplyFault s
  | .channelDead chB => Sys2Proof.Machine.execChannelDead chB s
  | .hello h => Sys2Proof.Machine.execHello h s
  | .state tick chunk last items => Sys2Proof.Machine.execState tick chunk last items s
  | .write off v tick => Sys2Proof.Machine.execWrite off v tick s
  | .fault t => Sys2Proof.Machine.execFault t s
  | .handoverFrame tick token => Sys2Proof.Machine.execHandoverFrame tick token s
  | .handoverAck tick => Sys2Proof.Machine.execHandoverAck tick s
  | .syncFrame bulk => Sys2Proof.Machine.execSyncFrame bulk s
  | .scanCrc cycle crc => Sys2Proof.Machine.execScanCrc cycle crc s
  | .lanesLost t => Sys2Proof.Machine.execLanesLost t s
  | .laneLoss lane t => Sys2Proof.Machine.execLaneLoss lane t s
  | .twnHandover m => Sys2Proof.Machine.execTwnHandover m s
  | .resync m => Sys2Proof.Machine.execResync m s
  | .pwrRequest m v => Sys2Proof.Machine.execPwrRequest m v s
  | .exit m v => Sys2Proof.Machine.execExit m v s
  | .lowPowerEntry l23 => Sys2Proof.Machine.execLowPowerEntry l23 s
  | .wakeIn railsOk lfxo => Sys2Proof.Machine.execWakeIn railsOk lfxo s
  | .alarm railsOk => Sys2Proof.Machine.execAlarm railsOk s
  | .temperatureReading ts => Sys2Proof.Machine.execTemperatureReading ts s
  | .thermalShutdownRelease ts => Sys2Proof.Machine.execThermalShutdownRelease ts s
  | .operatingTimeSave => Sys2Proof.Machine.execOperatingTimeSave s
  | .recordWrite acc => Sys2Proof.Machine.execRecordWrite acc s
  | .manual m v => Sys2Proof.Machine.execManual m v s
  | .rdSeqWrite m v => Sys2Proof.Machine.execRdSeqWrite m v s
  | .evrClear m => Sys2Proof.Machine.execEvrClear m s
  | .setAuth m => Sys2Proof.Machine.execSetAuth m s
  | .eraseComplete => Sys2Proof.Machine.execEraseComplete s
  | .tbPulseEdge k => Sys2Proof.Machine.execTbPulseEdge k s
  | .tbPulseEnd k => Sys2Proof.Machine.execTbPulseEnd k s
  | .captureEdge k rise x => Sys2Proof.Machine.execCaptureEdge k rise x s
  | .tsHiRead m k => Sys2Proof.Machine.execTsHiRead m k s
  | .refEdge p => Sys2Proof.Machine.execRefEdge p s
  | .deadTimeEnd p outB => Sys2Proof.Machine.execDeadTimeEnd p outB s
  | .linkUp x pm => Sys2Proof.Machine.execLinkUp x pm s
  | .perstNDeassert t => Sys2Proof.Machine.execPerstNDeassert t s
  | .portLinkChange p up t => Sys2Proof.Machine.execPortLinkChange p up t s
  | .symbolLock lane t => Sys2Proof.Machine.execSymbolLock lane t s

end Sys2Proof.Machine
end

