-- ==== Sys2Proof/Machine/Pins.lean ====
section
/-! DEFINITION. The dedicated output signals and what they show in every state (spec/02, R62, R71; R91, R442, R463, R474, R513). -/
namespace Sys2Proof.Machine
open Sys2Proof Sys2Proof.Reg

/-- The dedicated outputs of R62. -/
inductive DedPin
  | pcieTx | wakeN | clkreqN | ethMdi (p : Fin 2) | sgmiiTx | mdc | mdio | twnTx | canTx (k : Fin 4) | flkTx (p : Fin 8)
  | safHs (k : Fin 8) | safLs (k : Fin 8) | safFaultN | qspiClk | qspiCsN | qspiIo | tdo | rstoutN
  deriving DecidableEq, Repr

/-- What a dedicated output shows. -/
inductive DedLevel
  | low | high | highZ | pullUp
  /-- an open-drain output that is not driven low -/
  | released
  /-- electrical idle of a SERDES transmitter -/
  | idle
  /-- the switch drive of a safety output -/
  | switch (on : Bool)
  /-- the bits of the signal's protocol, which the model does not show one by one -/
  | protocol
  deriving DecidableEq, Repr

/-- Is VDD_CORE out of tolerance: in LULL and CALM, where it may be switched off, and in a reset that is held for a rail (R66, R70, R71)? -/
def coreOff (d : Dev) : Bool :=
  match d.pwr.state with
  | .lull | .calm => true
  | .held => d.pwr.railLow
  | _ => false

/-- Does the loader read the QSPI flash (R108, R538)? -/
def qspiReads (d : Dev) : Bool :=
  match d.cfg.job with
  | some (.load _ _ r) => r.source == 2 || r.source == 3
  | _ => false

/-- The pads of R71 while VDD_CORE is out of tolerance; RSTOUT_N stays driven low (R91, R510). -/
def dedHeld : DedPin → DedLevel
  | .canTx _ => .pullUp
  | .safHs _ | .safLs _ => .switch false
  | .safFaultN | .rstoutN => .low
  | .wakeN => .released
  | _ => .highZ

/-- What a dedicated output shows with VDD_CORE in tolerance: its reset state until the owning block configures the signal (R62). -/
def dedActive (d : Dev) : DedPin → DedLevel
  | .pcieTx => if rb d HIF_LINK HIF_LINK_UP then .protocol else .idle
  | .wakeN => if d.pwr.wakeNLow then .low else .released
  -- CLKREQ_N is released in L1.1 and L1.2 alone (PRESUMED, PCI Express; log entry 235)
  | .clkreqN => if rf d HIF_LINK HIF_LINK_PM = 2 ∨ rf d HIF_LINK HIF_LINK_PM = 3 then .released else .low
  | .ethMdi _ => if rb d SYS_READY SYS_READY_NET then .protocol else .highZ
  | .sgmiiTx => if rb d SYS_READY SYS_READY_NET then .protocol else .idle
  | .mdc => .low
  | .mdio => .pullUp
  | .twnTx => if rb d SYS_READY SYS_READY_TWN then .protocol else .idle
  | .canTx k => if clocked d && (getCan d k.val).cur.isSome then .protocol else .high
  | .flkTx p =>
    if !rb d SYS_READY SYS_READY_FLK then .low
    else if clocked d && (getFlk d p.val).open_.isSome then .protocol else .high
  | .safHs k => .switch (d.saf.hs / 2 ^ k.val % 2 == 1)
  | .safLs k => .switch (d.saf.ls / 2 ^ k.val % 2 == 1)
  | .safFaultN => match safState d.saf with | 0 | 1 | 6 => .low | _ => .released
  | .qspiClk => if qspiReads d then .protocol else .low
  | .qspiCsN => if qspiReads d then .protocol else .high
  | .qspiIo => if qspiReads d then .protocol else .pullUp
  | .tdo => .highZ
  | .rstoutN => if d.sys.rstoutHigh then .high else .low

/-- The level of a dedicated output. -/
def dedLevel (d : Dev) (p : DedPin) : DedLevel := if coreOff d then dedHeld p else dedActive d p

end Sys2Proof.Machine
end

