-- ==== Sys2Proof/Safety.lean ====
section
/-! DEFINITION. What holds between two commands, and what counts as a safe run. -/
namespace Sys2Proof.Machine
open Sys2Proof

/-- What holds between two commands: memory has its canonical form, and what a command works with while it has its effect (its
list of memory operations, the refusal of the endpoint's writes by the host) is at rest. -/
structure State.Inv (s : State) : Prop where
  memory : Memory.wf s.mem = true
  noOps : s.dev.memq = []
  noRefusal : s.dev.hif.wrRefused = false

/-- Nothing waits in the device to come about by itself at the end of a command: no instruction of a scan cycle, no look at
position-scheduled events (R225), no print-bar record (R242), no event of an acquisition unit (R383), no release pair (R404), no
spawn for a slot (R399), no record for a ring (R384, R415, R466), no trigger (R519), no descriptor in a wait (R145, R153), no refused
descriptor that may start (R148). -/
structure Quiet (d : Dev) : Prop where
  scan : d.scn.cycle = none
  looks : d.wpu.look = []
  barRecs : d.wpu.recs = []
  releases : d.sch.relOut = []
  spawns : ∀ e ∈ d.sch.items, e.2.spawnWait = false
  acqWaits : ∀ u, u < 8 → (getAcq d u).wait = []
  acqRecs : ∀ u, u < 8 → (getAcq d u).fifo = []
  canRecs : ∀ k, k < 4 → (getCan d k).fifo = []
  eddy : d.sch.eddy = []
  triggers : d.evr.wait = []
  clear : d.evr.clr = none
  waits : ∀ r e, e ∈ (getRing d r).q → e.wait = .nothing
  refused : ∀ r e, startable d r = some e → descRefused (ringSource d r) e.desc = none

/-! ### How claims speak of a command -/

/-- Command c answers the machine that the device `d` becomes. -/
def Gives (c : Instr) (s : State) (d : Dev) : Prop := exec c s = .next (s.after d)

/-- The device when a master has reached for an offset; `acc`: the host accepts the endpoint's writes meanwhile. -/
def reached (m : Master) (off : Nat) (acc : Bool) (s : State) : Dev := touched m off (hostHears acc s.dev)

/-- The same for an access that falls on the clock of the command before it (`same`), whose hardware sets take precedence (R16). -/
def reachedAt (same : Bool) (m : Master) (off : Nat) (s : State) : Dev := touched m off (sameClock same s (hostHears true s.dev))

/-- Master m's write of v gets to the register at `off`: the master's plane has its clock (R506, R511), and the register is not one
that a shadow takes from its owner alone (R495, R499). -/
structure Lets (m : Master) (off : Nat) (v : Word) (acc : Bool) (s : State) : Prop where
  acts : masterActs m s.dev = true
  free : shadowKeeps (reached m off acc s) m off v = false

/-- Command c, master m's write of v to `off`, makes of the device what f says; a twin's owner sends the write to its shadow. -/
def Starts (c : Instr) (m : Master) (off : Nat) (v : Word) (acc : Bool) (s : State) (f : Dev → Dev) : Prop :=
  Gives c s (mirrored (reached m off acc s) off v (f (reached m off acc s)))

/-- The device whose register at `off` has taken a whole write of v field by field (R14), with nothing started by it. -/
def fieldsTaken (off : Nat) (v : Word) (d : Dev) : Dev :=
  match findRow off with
  | some r => (putReg off v r d).1
  | none => d

/-- Master m's write of v to `off` that gets there makes of the device what f says. -/
def Takes (c : Instr) (m : Master) (off : Nat) (v : Word) (acc : Bool) (s : State) (f : Dev → Dev) : Prop :=
  Lets m off v acc s → Starts c m off v acc s f

/-- While the control, data and management planes have their clocks (R506), event c makes of the device what f says. -/
def InGale (c : Instr) (acc : Bool) (s : State) (f : Dev → Dev) : Prop := clocked s.dev = true → Gives c s (f (hostHears acc s.dev))

/-- In GALE and BREEZE (R506), event c makes of the device what f says. -/
def WhileAwake (c : Instr) (acc : Bool) (s : State) (f : Dev → Dev) : Prop := awake s.dev = true → Gives c s (f (hostHears acc s.dev))

/-- A run of n steps neither faults nor is refused, and the invariant holds after each of them. -/
def Safe : Nat → State → Prop
  | 0, s => s.Inv
  | n + 1, s => s.Inv ∧ ∃ t, step s = .next t ∧ Safe n t

end Sys2Proof.Machine
end

