-- ==== Sys2Proof/Certificates/Slice0/Obligations.lean ====
section
/-! DEFINITION. The statements about the model that the provers settle. -/
open Sys2Proof
open Sys2Proof.Machine Sys2Proof.Reg

/-! ### Steps, the queue, the invariant -/

/-- The command at the front of the queue is taken from it and has its effect with the rest of the queue waiting. -/
def Obligations.StepRunsTheCommandAtTheFront : Prop :=
  ∀ (c : Instr) (rest : List Instr) (s : State), Machine.step { s with pending := c :: rest } = exec c { s with pending := rest }

/-- On an empty queue one edge of TBCLK passes (the model's choice, log entry 1): TB time advances to the first edge after the
present time (R168), with what follows from it; the queue stays empty. -/
def Obligations.AnEmptyQueueLetsOneClockEdgePass : Prop :=
  ∀ s : State, s.pending = [] → Machine.step s = .next (s.after (clockTo (s.dev.tb + 1) (hostHears true s.dev)))

/-- Every command but an access to memory that no address map lists answers a next state, with the same commands waiting. An access to an
address that no address map of R44 and R45 lists stops with the fault `noSuchAddress` (the model's stop: the spec gives such an access no
effect). R55, R56: a core's fences change nothing, since commands take effect one after the other (log entry 112). -/
def Obligations.EveryCommandAnswersANextState : Prop :=
  (∀ (c : Instr) (s : State),
    (∀ m a q e p, c = .memoryAccess m a q ⟨e, .map, p⟩ → masterActs m s.dev = true → placeOf s.dev m a q.len ≠ .none) →
    ∃ t, exec c s = .next t ∧ t.pending = s.pending) ∧
  (∀ m addr q e p s, masterActs m s.dev = true → placeOf s.dev m addr q.len = .none →
    exec (.memoryAccess m addr q ⟨e, .map, p⟩) s = .fault .noSuchAddress) ∧
  (∀ k p q s, exec (.fenceInstruction k p q) s = .next s) ∧ (∀ k s, exec (.fenceTso k) s = .next s) ∧
  (∀ k s, exec (.fenceI k) s = .next s)

/-- Every step keeps the invariant: memory stays in its canonical form, and no command leaves memory operations or a refusal
behind. -/
def Obligations.EveryStepKeepsTheInvariant : Prop := ∀ s t : State, s.Inv → Machine.step s = .next t → t.Inv

/-- The invariant holds at reset. -/
def Obligations.ResetMeetsTheInvariant : Prop := State.reset.Inv ∧ Quiet State.reset.dev

/-- In a device in which nothing waits nothing comes about by itself: the machine after a command is what the command made of it,
with memory changed by exactly the writes that it asked for. -/
def Obligations.AQuietDeviceStaysAsTheCommandLeftIt : Prop :=
  ∀ (s : State) (d : Dev), Quiet d →
    s.after d = { s with dev := { d with memq := [], hif := { d.hif with wrRefused := false } }, mem := applyMem d.memq s.mem }

/-- Memory changes only at the bytes of the writes that a command asked for: every other byte reads as before, but for the SRAM that a
cold reset clears (R89). -/
def Obligations.MemoryChangesOnlyWhereItWasWritten : Prop :=
  ∀ (ops : List MemOp) (m : Memory) (a : Nat),
    (∀ b bs, MemOp.write b bs ∈ ops → a < b ∨ b + bs.length ≤ a) →
    memRead (applyMem ops m) a = if ops.contains .clearSram && !isMram a then unlisted else memRead m a

/-! ### Registers and memory (spec/00, spec/01) -/

/-- What the field `f` of a register holds after a whole write of `v` by R14, where it held `o` before; `locked`: its owning function
is armed, or its draft is held; `hw`: the bits that hardware sets on the same clock, which stay set (R16). -/
def Sys2Proof.fieldAfter (a : Acc) (locked : Bool) (o n hw : Nat) : Nat :=
  match a with
  | .rw => n
  | .rwl | .rwd => if locked then o else n
  | .w1c => Nat.lor (Nat.xor o (Nat.land o n)) (Nat.land o hw)
  | .w1s => Nat.lor o n
  | .ro | .wo | .rc => o

/-- Is a field of a register kept from a write: an RWL field while its owning function is armed (R541), an RWD field while its draft
is held (R14, R118, R122)? SCH_COREk_CFG.LOCK exists at even k alone. -/
def Sys2Proof.fieldLocked (d : Dev) (off : Nat) (f : FieldDesc) : Bool :=
  match f.acc with
  | .rwl => rwlLocked d off f.lo || (decide (0x31000 ≤ off ∧ off < 0x31800) && f.lo == 8 && (off / 0x80) % 2 == 1)
  | .rwd => draftHeld d (classOf off)
  | _ => false

/-- R14, R16, R542: in a whole write each field of a register takes the value that its access code gives it, whatever the other fields are; a
locked field keeps its value, and one that a write would change is reported; a bit of a W1C field that hardware sets on the same clock stays set. -/
def Obligations.EachFieldTakesAWriteByItsAccessCode : Prop :=
  ∀ (d : Dev) (off : Nat) (old v : Word) (r : RegDesc), findRow off = some r → ∀ f ∈ r.fields,
    fget (putFields d off old v r).1 ⟨f.hi, f.lo⟩ =
      fieldAfter f.acc (fieldLocked d off f) (fget old ⟨f.hi, f.lo⟩) (fget v ⟨f.hi, f.lo⟩) (setNow d off ⟨f.hi, f.lo⟩) ∧
    (heldField d off f = true → ¬ (0x31000 ≤ off ∧ off < 0x31800) → fget v ⟨f.hi, f.lo⟩ ≠ fget (rd d off) ⟨f.hi, f.lo⟩ → (putFields d off old v r).2 = true) ∧
    ((∀ g ∈ r.fields, heldField d off g = true → fget v ⟨g.hi, g.lo⟩ = fget (rd d off) ⟨g.hi, g.lo⟩) → (putFields d off old v r).2 = false)

/-- R11, R13, R495: a write that does not cover all four bytes of a register sets SUBWORD_WR, a write to an offset that holds no register
sets UNMAPPED, one that only a twin's owner may make sets LOCKED_WR at the shadow; the access is captured, and no register but SYS_ACCESS_ERR, SYS_ACCESS_ADDR and those of the endpoint's event message
changes. -/
def Obligations.RefusedWritesChangeOnlyTheirRecord : Prop :=
  (∀ m off v full same s, masterActs m s.dev = true → (full = false ∨ off % 4 ≠ 0) →
    Gives (.registerWrite ⟨m, same⟩ off v full) s (accessErr .subword m off (reachedAt same m off s))) ∧
  (∀ m off v same s, masterActs m s.dev = true → off % 4 = 0 →
    (0x80000 ≤ off ∨ (0x38000 ≤ off ∧ off < 0x3A000) ∨ ((off < 0x35000 ∨ 0x36000 ≤ off) ∧ findRow off = none ∧ shadowKeeps (reachedAt same m off s) m off v = false)) →
    Gives (.registerWrite ⟨m, same⟩ off v true) s (accessErr .unmapped m off (reachedAt same m off s))) ∧
  (∀ m off v same s, masterActs m s.dev = true → off % 4 = 0 → off < 0x38000 → shadowKeeps (reachedAt same m off s) m off v = true →
    Gives (.registerWrite ⟨m, same⟩ off v true) s (accessErr .lockedWr m off (reachedAt same m off s))) ∧
  (∀ k m off d, rb (accessErr k m off d) SYS_ACCESS_ERR ⟨k.num, k.num⟩ = true) ∧
  (∀ k m off d, rb d SYS_ACCESS_ADDR SYS_ACCESS_ADDR_VALID = false →
    rd (accessErr k m off d) SYS_ACCESS_ADDR = BitVec.ofNat 32 (2147483648 + k.num * 33554432 + m.num * 1048576 + off % 1048576)) ∧
  (∀ k m off d, rb d SYS_ACCESS_ADDR SYS_ACCESS_ADDR_VALID = true →
    rb (accessErr k m off d) SYS_ACCESS_ERR SYS_ACCESS_ERR_OVERFLOW = true ∧
    rd (accessErr k m off d) SYS_ACCESS_ADDR = rd d SYS_ACCESS_ADDR) ∧
  (∀ k m off d j, j ≠ SYS_ACCESS_ERR → j ≠ SYS_ACCESS_ADDR → j ≠ HIF_EVT_STAT →
    j ≠ HIF_MSIX_PBA (rf d HIF_EVT_VEC HIF_EVT_VEC_VEC % 256 / 32) → rd (accessErr k m off d) j = rd d j)

/-- REGISTER_WRITE of a register that takes its fields one by one, starts nothing and is no part of a two-register or staged quantity: the
register reads the fields' new values, and nothing else of the device changes; where a locked field would have changed, the access is reported
with LOCKED_WR beside that (R14, R542). -/
def Obligations.ARegisterWriteChangesItsRegister : Prop :=
  ∀ (m : Master) (off : Nat) (v : Word) (same : Bool) (s : State) (r : RegDesc),
    let e := reachedAt same m off s
    let put := putFields e off (rd e off) v r
    masterActs m s.dev = true → shadowKeeps e m off v = false → off % 4 = 0 → off < 0x35000 → findRow off = some r →
    wholeWrite off v r e = none → highOf off = none → lowOf off = none → isStaged off = false → off ≠ TB_CTRL →
    (∀ d old b, regEffect s.mem m off v old b d = d) →
    ∃ d, Gives (.registerWrite ⟨m, same⟩ off v true) s (mirrored e off v (if put.2 then accessErr .lockedWr m off d else d)) ∧
      rd d off = put.1 ∧ (∀ j, j ≠ off → rd d j = rd e j) ∧ { d with regs := e.regs } = e

/-- R34, R542: the low word of a two-register quantity waits, and reads as it was written, until its high word is written, and then both take what
was written; the quantity keeps its value meanwhile. A word all of whose fields are locked changes nothing, and a low word goes on waiting for it
(the model's choice, log entry 4). -/
def Obligations.ALowWordWaitsForItsHighWord : Prop :=
  ∀ (d : Dev) (lo hi : Nat) (v w : Word) (rl rh : RegDesc),
    highOf lo = some hi → findRow lo = some rl → findRow hi = some rh → setMask rl ≠ 0 →
    let x := (putFields d lo (match smGet d.half lo with | some x => x | none => rd d lo) v rl).1
    let d1 := (putReg lo v rl d).1
    let d2 := (putReg hi w rh d1).1
    d1.regs = d.regs ∧ d1.live = d.live ∧
    (takesWrite d lo rl = false → d1 = d) ∧
    (takesWrite d lo rl = true → smGet d1.half lo = some x ∧ readValue d1 lo = x) ∧
    (highOf hi = none → lowOf hi = some lo →
      rd d2 hi = (putFields d1 hi (rd d1 hi) w rh).1 ∧
      (takesWrite d1 hi rh = false → rd d2 lo = rd d lo ∧ smGet d2.half lo = smGet d1.half lo) ∧
      (takesWrite d lo rl = true → takesWrite d1 hi rh = true → rd d2 lo = x ∧ smGet d2.half lo = none))

/-- R35: a read of the low word of a two-register quantity, of which nothing is latched for the master, returns it and latches the high
word as it reads at that instant, for that master alone, in place of what was latched before; the master's reads of the high word return what is
latched for it, and the live one while nothing is. The register with RC fields returns its value and clears them, but for what hardware sets on the
clock of the read (R16); SYS_SYNC returns its value. -/
def Obligations.ReadsReturnAndLatch : Prop :=
  (∀ m off h s, masterActs m s.dev = true → highOf off = some h →
    smGet (reached m off true s).latch (latchKey m off) = none →
    ∃ d, Gives (.lowWordRead m off) s (emit (.read m off (readValue (reached m off true s) off)) d) ∧
      smGet d.latch (latchKey m h) = some (readValue (reached m off true s) h) ∧
      (∀ k, k ∉ (latchesOf off).map (latchKey m) → smGet d.latch k = smGet (reached m off true s).latch k)) ∧
  (∀ m off h d, highOf off = some h →
    (∀ w, smGet d.latch (latchKey m h) = some w → readFor m d h = w) ∧
    (smGet d.latch (latchKey m h) = none → readFor m d h = readValue d h)) ∧
  (∀ (m n : Master) (a b : Nat), a < 0x80000 → b < 0x80000 → latchKey m a = latchKey n b → m = n ∧ a = b) ∧ State.reset.dev.latch = [] ∧
  (∀ m off s, masterActs m s.dev = true → rcMask off ≠ 0 → highOf off = none →
    ¬ (0x8200 ≤ off ∧ off < 0x8280) → ¬ (0x31000 ≤ off ∧ off < 0x31800) →
    Gives (.readClear ⟨m, false⟩ off) s (emit (.read m off (readFor m (reached m off true s) off))
      (wr off (rd (reached m off true s) off &&& ~~~(rcMask off)) (reached m off true s))) ∧
    Gives (.readClear ⟨m, true⟩ off) s (emit (.read m off (readFor m (reachedAt true m off s) off))
      (wr off (rcLeft (reachedAt true m off s) off) (reachedAt true m off s)))) ∧
  (∀ off r f was bits d, findRow off = some r → f ∈ r.fields → f.acc = .rc → smGet d.clash off = some (was, bits) →
    let fl : Fld := ⟨f.hi, f.lo⟩
    fget (rcLeft d off) fl = (if fget bits fl = 0 then 0 else if fl.width = 1 then 1 else max 1 (fget (rd d off) fl - fget was fl) % 2 ^ fl.width)) ∧
  (∀ m s, masterActs m s.dev = true →
    Gives (.sysSyncRead m) s (emit (.read m SYS_SYNC (readFor m (reached m SYS_SYNC true s) SYS_SYNC)) (reached m SYS_SYNC true s)))

/-- MEMORY_ACCESS where a master may reach (R10, R11, R43..R47, R392): in memory a read returns the bytes as they stand and a write stores its bytes
from its address on, but a lockstep checker's TCM reads 0 and keeps its contents; the range of R43 reads 0, discards writes and sets UNMAPPED; a word of
the register space is read or written as that register, and a write of a part of one is refused. -/
def Obligations.MemoryAccessesReachTheirBytes : Prop :=
  ∀ (m : Master) (addr a : Nat) (pads : List (Nat × Option Bool × Nat)) (s : State), masterActs m s.dev = true →
    let d := padsSeen pads (hostHears true s.dev)
    (∀ n e, placeOf s.dev m addr n = .mem a → touchesChecker d a n = false → (∀ i, i < n → isCounter (a + i) = false) →
      (e = .good ∨ hasEcc a = false) →
      Gives (.memoryAccess m addr (.read n) ⟨e, .map, pads⟩) s (emit (.mem m addr (memReadN s.mem a n)) d)) ∧
    (∀ bs e, placeOf s.dev m addr bs.length = .mem a → touchesChecker d a bs.length = false → closedMram a bs.length = false →
      Gives (.memoryAccess m addr (.write bs) ⟨e, .map, pads⟩) s (memPut a bs d)) ∧
    (placeOf s.dev m addr 1 = .mem a → isCheckerTcm d a = true →
      Gives (.memoryAccess m addr (.read 1) ⟨.good, .map, pads⟩) s (emit (.mem m addr [0]) d) ∧
      ∀ b e, Gives (.memoryAccess m addr (.write [b]) ⟨e, .map, pads⟩) s (accessErr .unmapped m a d)) ∧
    (∀ n e, placeOf s.dev m addr n = .closed a →
      Gives (.memoryAccess m addr (.read n) ⟨e, .map, pads⟩) s (emit (.mem m addr (List.replicate n 0)) (accessErr .unmapped m a d))) ∧
    (∀ bs e, placeOf s.dev m addr bs.length = .closed a → Gives (.memoryAccess m addr (.write bs) ⟨e, .map, pads⟩) s (accessErr .unmapped m a d)) ∧
    (placeOf s.dev m addr 4 = .reg a → a % 4 = 0 →
      Gives (.memoryAccess m addr (.read 4) ⟨.good, .map, pads⟩) s (regRead m a d) ∧
      ∀ (v : Word) e, Gives (.memoryAccess m addr (.write (leBytes 4 v.toNat)) ⟨e, .map, pads⟩) s (regPut s.mem m a v d)) ∧
    (∀ b e, placeOf s.dev m addr 1 = .reg a → Gives (.memoryAccess m addr (.write [b]) ⟨e, .map, pads⟩) s (accessErr .subword m a (touched m a d)))

/-- R48, R50, R128: a single-bit ECC error of an SRAM read is corrected and counted, and the read returns the bytes as it does without an error; an
uncorrectable one gives the master an access fault and triggers a record. A write to a region of MRAM that is closed to the master is discarded and
sets RO_REGION. -/
def Obligations.MemoryErrorsAreReported : Prop :=
  (∀ (m : Master) (addr a n : Nat) (pads : List (Nat × Option Bool × Nat)) (s : State), masterActs m s.dev = true → placeOf s.dev m addr n = .mem a →
    let d := padsSeen pads (hostHears true s.dev)
    let count := { d with sys := { d.sys with eccCount := d.sys.eccCount + 1 } }
    let x := readBytes s.mem a n d
    let y := readBytes s.mem a n count
    (hasEcc a = true → Gives (.memoryAccess m addr (.read n) ⟨.single, .map, pads⟩) s (emit (.mem m addr y.1) y.2)) ∧
    Gives (.memoryAccess m addr (.read n) ⟨.good, .map, pads⟩) s (emit (.mem m addr x.1) x.2) ∧ y.1 = x.1 ∧ y.2.sys.eccCount = x.2.sys.eccCount + 1 ∧
    (hasEcc a = true → Gives (.memoryAccess m addr (.read n) ⟨.double, .map, pads⟩) s (readFault m addr (Machine.trigger 0x03 0x00 [a, m.num] d)))) ∧
  (∀ (m : Master) (addr : Nat) (d : Dev), (readFault m addr d).out = .accessFault m addr :: d.out ∧ (readFault m addr d).regs = d.regs ∧
    (readFault m addr d).evr = d.evr ∧ (m = .host → (readFault m addr d).hif.space.aer / 0x8000 % 2 = 1)) ∧
  (∀ (m : Master) (addr a : Nat) (bs : List Byte) (e : Ecc) (pads : List (Nat × Option Bool × Nat)) (s : State), masterActs m s.dev = true →
    placeOf s.dev m addr bs.length = .mem a → closedMram a bs.length = true →
      Gives (.memoryAccess m addr (.write bs) ⟨e, .map, pads⟩) s (accessErr .roRegion m a (padsSeen pads (hostHears true s.dev)))) ∧
  (∀ (m : Master) (a : Nat) (d : Dev), (accessErr .roRegion m a d).memq = d.memq ∧
    rb (accessErr .roRegion m a d) SYS_ACCESS_ERR SYS_ACCESS_ERR_RO_REGION = true)

/-- A read after a write of the same bytes gives what was written, and a write leaves every other byte alone; both keep memory in its
canonical form. -/
def Obligations.AReadAfterAWriteGivesWhatWasWritten : Prop :=
  ∀ (m : Memory) (a : Nat) (bs : List Byte), memReadN (memWriteN m a bs) a bs.length = bs ∧
    (∀ j, j < a ∨ a + bs.length ≤ j → memRead (memWriteN m a bs) j = memRead m j) ∧
    (Memory.wf m = true → Memory.wf (memWriteN m a bs) = true)

/-! ### Resets, readiness, pins (spec/02, spec/03) -/

/-- R33, R98, R99: a command written to CFG_FSTATE_x waits for the next COMMIT instant, and the last one before it counts; there it acts by the function's
state: in every state that R98 does not name for the command it is rejected and changes nothing else; ENABLE makes an ARMED function RUNNING, or FAULTED
at the same instant where its start shows a fault, and queues a restart of a STOPPING one, which DISABLE drops; DISABLE makes a RUNNING function
STOPPING; CLEAR_FAULT leaves FAULTED only when the cause has gone. During a controlled disarm ENABLE is rejected (R114). -/
def Obligations.FunctionCommandsWaitAndActByTheState : Prop :=
  (∀ (m : Master) (x : Nat) (s : State), isFn x = true →
    let w (n : Nat) := fset 0 CFG_FSTATE_CMD n
    (Lets m (CFG_FSTATE x) (w 1) true s →
      Starts (.enable m x) m (CFG_FSTATE x) (w 1) true s (fun d => { d with fcmds := smPut d.fcmds x .enable })) ∧
    (Lets m (CFG_FSTATE x) (w 2) true s →
      Starts (.disable m x) m (CFG_FSTATE x) (w 2) true s (fun d => { d with fcmds := smPut d.fcmds x .disable })) ∧
    (Lets m (CFG_FSTATE x) (w 3) true s →
      Starts (.clearFault m x) m (CFG_FSTATE x) (w 3) true s (fun d => { d with fcmds := smPut d.fcmds x .clearFault }))) ∧
  (∀ (mem : Memory) (n x : Nat) (d : Dev),
    let f := getFn d x
    let rejected := fnReject x d
    let after (c : FnCmd) := getFn (fnAct mem n x c d) x
    getFn rejected x = { f with rejected := true } ∧ (∀ y, y ≠ x → getFn rejected y = getFn d y) ∧ rejected.regs = d.regs ∧
    (f.state = .armed → enableBarred d = false → fnAct mem n x .enable d = fnRun mem n x d) ∧
    (f.state = .stopping → enableBarred d = false → fnAct mem n x .enable d = setFn x { f with restart := true } d) ∧
    (f.state ≠ .armed → f.state ≠ .stopping → fnAct mem n x .enable d = rejected) ∧
    (f.state = .running → fnAct mem n x .disable d = fnDisable x d) ∧
    (f.state = .stopping → fnAct mem n x .disable d = setFn x { f with restart := false } d) ∧
    (f.state ≠ .running → f.state ≠ .stopping → fnAct mem n x .disable d = rejected) ∧
    (f.state = .faulted → fnCause d x f.fault = false → fnAct mem n x .clearFault d = fnClear x d) ∧
    (f.state = .faulted → fnCause d x f.fault = true → fnAct mem n x .clearFault d = rejected) ∧
    (f.state ≠ .faulted → fnAct mem n x .clearFault d = rejected) ∧
    (enableBarred d = true → (f.state = .armed ∨ f.state = .stopping) → fnAct mem n x .enable d = rejected) ∧
    (f.state = .armed → enableBarred d = false → fnStartFault d x = none → (after .enable).state = .running ∧ (after .enable).restart = false) ∧
    (∀ c, f.state = .armed → enableBarred d = false → fnStartFault d x = some c → (after .enable).state = .faulted ∧ (after .enable).fault = c) ∧
    (f.state = .running → fnStopNone d x = false → (after .disable).state = .stopping) ∧
    (f.state = .faulted → fnCause d x f.fault = false → (after .clearFault).fault = 0 ∧ (after .clearFault).state =
      (if f.included = true ∧ (d.cfg.state = .armed ∨ d.cfg.state = .disarming) then .armed else .ready)))

/-- R62, R70, R71, R88, R89, R90, R92, R93, R510: COLD and WARM of SYS_RST_CTRL request their reset with the right KEY, and change nothing with another
one or while a reset has been requested. A reset from outside or a requested one takes place: a cold one leaves every register and unit at reset but for
what R89 keeps and sets its cause bit; a power-on reset, by PORST_N or a supply, clears the other causes, resets the island, counts the power cycle
and samples BOOTSEL, and holds the device in reset while PORST_N or a rail does; SRAM reads 0 after each of them. After a cold reset every register
outside the always-on domain, the recorder's counters and the island's mirror reads its reset value; one that R89 keeps whole, and the mirror, read as
before; after a warm one TB and NET do too. After a power-on reset the dedicated outputs show the states of R62, and those of R71 while the core supply
is off. -/
def Obligations.ResetsAreRequestedAndTakePlace : Prop :=
  (∀ (m : Master) (key : Fin 65536) (s : State),
    let w (f : Fld) := fset (fset 0 SYS_RST_CTRL_KEY key.val) f 1
    let asks (k : SoftReset) (d : Dev) : Dev :=
      if key.val = 0x5A17 ∧ d.sys.rstReq = none then { d with sys := { d.sys with rstReq := some k, rstAt := d.tb } } else d
    (Lets m SYS_RST_CTRL (w SYS_RST_CTRL_COLD) true s →
      Starts (.cold m key) m SYS_RST_CTRL (w SYS_RST_CTRL_COLD) true s (asks .cold)) ∧
    (Lets m SYS_RST_CTRL (w SYS_RST_CTRL_WARM) true s →
      Starts (.warm m key) m SYS_RST_CTRL (w SYS_RST_CTRL_WARM) true s (asks .warm))) ∧
  (∀ s : State, s.Inv →
    let d := hostHears true s.dev
    (∀ (b : Fin 4) (sup held : Bool), s.dev.pwr.state ≠ .held → ∃ t, exec (.powerOnReset ⟨b, held⟩ sup) s = .next t ∧ t.mem = memClearSram s.mem ∧
      (held = false → t.dev.pwr.state = .gale ∧ t.dev.sys.bootsel = b.val) ∧ (held = true → t.dev.pwr.state = .held ∧ awake t.dev = false) ∧
      t.dev.pwr.pcyc = (s.dev.pwr.pcyc + 1) % 4294967296 ∧ t.dev.fns = [] ∧ t.dev.cfg = {} ∧ t.dev.tb = 0 ∧ t.dev.sys.rstoutHigh = false ∧
      rb t.dev SYS_RST_CAUSE SYS_RST_CAUSE_POR = true ∧ rb t.dev SYS_RST_CAUSE SYS_RST_CAUSE_SUPPLY = sup ∧
      rd t.dev SYS_READY = 0 ∧ t.dev.saf.init = ({} : SafUnit).init ∧
      (held = false → (∀ k, dedLevel t.dev (.canTx k) = .high) ∧ (∀ p, dedLevel t.dev (.flkTx p) = .low) ∧
        (∀ k, dedLevel t.dev (.safHs k) = .switch false ∧ dedLevel t.dev (.safLs k) = .switch false) ∧ dedLevel t.dev .safFaultN = .low ∧
        dedLevel t.dev .rstoutN = .low ∧ dedLevel t.dev .wakeN = .released ∧ dedLevel t.dev .clkreqN = .low ∧ dedLevel t.dev .pcieTx = .idle ∧
        dedLevel t.dev .sgmiiTx = .idle ∧ dedLevel t.dev .twnTx = .idle ∧ (∀ p, dedLevel t.dev (.ethMdi p) = .highZ) ∧ dedLevel t.dev .mdc = .low ∧
        dedLevel t.dev .mdio = .pullUp ∧ dedLevel t.dev .qspiClk = .low ∧ dedLevel t.dev .qspiCsN = .high ∧ dedLevel t.dev .qspiIo = .pullUp)) ∧
    (∀ b : Fin 4, s.dev.pwr.state = .held →
      Gives (.powerOnReset ⟨b, false⟩ false) s { d with pwr := { d.pwr with state := .gale, railLow := false }, sys := { d.sys with bootsel := b.val } } ∧
      Gives (.powerOnReset ⟨b, true⟩ false) s d) ∧
    (∀ (b : Fin 4) (held : Bool), exec (.supplySupervisorTrip ⟨b, held⟩) s = exec (.powerOnReset ⟨b, held⟩ true) s) ∧
    (∀ t0 : Nat, awake s.dev = true → ∃ t, exec (.resetPin t0) s = .next t ∧ t.mem = memClearSram s.mem ∧ t.dev.fns = [] ∧ t.dev.cfg = {} ∧
      rb t.dev SYS_RST_CAUSE SYS_RST_CAUSE_PIN = true ∧ rd t.dev SYS_READY = 0) ∧
    (awake s.dev = true → s.dev.sys.rstReq = some .cold → ∃ t, exec .softwareResetStart s = .next t ∧ t.mem = memClearSram s.mem ∧
      t.dev.fns = [] ∧ t.dev.cfg = {} ∧ rb t.dev SYS_RST_CAUSE SYS_RST_CAUSE_SW_COLD = true ∧ rd t.dev SYS_READY = 0) ∧
    (awake s.dev = true → s.dev.sys.rstReq = some .warm → ∃ e, Gives .softwareResetStart s e ∧ e.fns = [] ∧ e.cfg.state = .empty ∧
      e.hif.rings = [] ∧ e.sys.rstReq = none ∧ rb e SYS_RST_CAUSE SYS_RST_CAUSE_SW_WARM = true ∧ (rd e SYS_READY).toNat = (rd s.dev SYS_READY).toNat % 8 ∧
      e = warmReset (clockTo (s.dev.sys.rstAt + 1000 * nsUnits) d)) ∧
    (s.dev.sys.rstReq = none → Gives .softwareResetStart s d)) ∧
  (∀ (d : Dev) (off : Nat),
    ((∀ w, keptWord off w = none) → keptSaf off 0 = none → rd (coldDev d) off = resetVal off) ∧
    ((∀ w, keptWord off w = some w) → rd (coldDev d) off = rd d off) ∧
    ((∀ w, keptWord off w = none) → keptSaf off 0 = some 0 → rd (coldDev d) off = rd d off) ∧
    (0x8000 ≤ off → off < 0xC000 → rwdMask off = 0 → rd (warmReset d) off = rd d off) ∧
    ((∀ w, keptWord off w = none) → (∀ w, warmWord off w = none) → off ≠ SYS_READY → rd (warmReset d) off = resetVal off)) ∧
  (∀ (d : Dev) (p : DedPin), coreOff d = true → dedLevel d p = (match p with
    | .canTx _ => .pullUp
    | .safHs _ | .safLs _ => .switch false
    | .safFaultN | .rstoutN => .low
    | .wakeN => .released
    | _ => .highZ))

/-- R91, R94, R96, R98, R512, R514: the oscillators lock and RSTOUT_N rises, and a coarse time keeper that runs takes the LFXO periods that it has
counted; in LULL and CALM a wake event that a rail held back goes on first. A unit that passed reports ready, and one that failed leaves its bit 0
and triggers a record; the readiness of TB starts TB time at 0, or at the coarse time keeper's. A bit that is set stays, and the report changes
nothing. -/
def Obligations.UnitsBecomeReady : Prop :=
  (∀ (n : Nat) (s : State),
    let d := hostHears true s.dev
    (s.dev.pwr.state = .gale → s.dev.pwr.keeperOn = false → Gives (.oscillatorLock n) s { d with sys := { s.dev.sys with rstoutHigh := true } }) ∧
    (s.dev.pwr.state = .gale → s.dev.pwr.keeperOn = true → Gives (.oscillatorLock n) s { d with
      sys := { s.dev.sys with rstoutHigh := true }, pwr := { s.dev.pwr with keeper := s.dev.pwr.keeper + n * 131072000000000 } }) ∧
    (∀ c : Fin 8, (s.dev.pwr.state = .lull ∨ s.dev.pwr.state = .calm) → s.dev.pwr.heldWake = some c.val → ∃ e, Gives (.oscillatorLock n) s e ∧
      e.pwr.state = .gale ∧ e.sys.rstoutHigh = true ∧ rf e PWR_STAT PWR_STAT_WAKE_CAUSE = c.val ∧ rb e SYS_RST_CAUSE SYS_RST_CAUSE_POR = true) ∧
    (s.dev.pwr.state ≠ .gale → ((s.dev.pwr.state ≠ .lull ∧ s.dev.pwr.state ≠ .calm) ∨ s.dev.pwr.heldWake = none) → Gives (.oscillatorLock n) s d)) ∧
  (∀ (b : Fin 23) (p : Bool) (t : Nat) (s : State), awake s.dev = true →
    let d := clockToNs t (hostHears true s.dev)
    (bitOf (rd d SYS_READY) b.val = true → Gives (.unitReady b p t) s d) ∧
    (bitOf (rd d SYS_READY) b.val = false → p = false → Gives (.unitReady b p t) s (Machine.trigger 0x02 0x00 [b.val] d)) ∧
    (bitOf (rd d SYS_READY) b.val = false → p = true → ∃ e, Gives (.unitReady b p t) s e ∧ bitOf (rd e SYS_READY) b.val = true ∧ b.val ∈ e.sys.newReady ∧
      (∀ i, i < 32 → i ≠ b.val → bitOf (rd e SYS_READY) i = bitOf (rd d SYS_READY) i) ∧
      (b.val ≠ 8 → b.val ≠ 13 → b.val ≠ 20 → ∀ j, j ≠ SYS_READY → rd e j = rd d j) ∧
      (b.val = 8 → rb e WPU_STAT WPU_STAT_DL_CAL = true) ∧ (b.val = 13 → rb e ADC_STAT ADC_STAT_CAL_DONE = true) ∧
      (b.val = 19 → e.saf.init = false) ∧
      (b.val = 20 → d.evr.wait.length < e.evr.wait.length ∨ 0 < e.evr.lost) ∧
      (b.val = 1 → s.dev.pwr.keeperOn = false → tbRuns e = true ∧ e.tb = 0 ∧ e.phase = .none ∧ e.tick = 0) ∧
      (b.val = 1 → s.dev.pwr.keeperOn = true → tbRuns e = true ∧ e.tb = s.dev.pwr.keeper % 2 ^ 96 ∧ e.pwr.keeperOn = false)))

/-- R65, R124..R127, R129, R130, R134, R509, R513: PERST_N low, or the loss of the link, takes the endpoint down; PERST_N high alone changes only its own
level; the link that comes up shows its speed and width and refuses an entry to LULL or CALM that waits; ASPM shows in PM. (Bus Master Enable 0 while
the link is down: log entry 91.) The host finds the device's identity in the configuration space, finds the sizes of its base address registers by
writing ones, and sets Memory Space and Bus Master Enable there; a word of BAR2 written rings a doorbell, a part of one is refused with SUBWORD_WR, and
BAR2 reads 0. While the endpoint is held in reset it takes none of these, and in D3hot it answers in the configuration space alone (PRESUMED, log
entry 235). -/
def Obligations.TheEndpointFollowsItsLink : Prop :=
  (∀ (t : Nat) (s : State), ∃ d, Gives (.perstNAssert t) s d ∧ d.sys.perstLow = true ∧ rb d HIF_LINK HIF_LINK_UP = false ∧
    rf d HIF_LINK HIF_LINK_WIDTH = 0 ∧ rf d HIF_LINK HIF_LINK_SPEED = 0 ∧ rb d HIF_LINK HIF_LINK_BME = false ∧ d.hif.msixEnable = false ∧
    d.hif.space.bar0 = 0 ∧ d.hif.space.mse = false ∧ (∀ r, r < 64 → ringState d r ≠ ringRunning)) ∧
  (∀ (t : Nat) (s : State), Gives (.perstNDeassert t) s
    { clockToNs t (hostHears true s.dev) with sys := { (clockToNs t (hostHears true s.dev)).sys with perstLow := false } }) ∧
  (∀ (t : Nat) (s : State), awake s.dev = true → ∃ d, Gives (.linkLost t) s d ∧ rb d HIF_LINK HIF_LINK_UP = false ∧
    rb d HIF_ERR HIF_ERR_LINK_LOST = true ∧ d.hif.msixEnable = false ∧ (∀ r, r < 64 → ringState d r ≠ ringRunning)) ∧
  (∀ (sp : Fin 8) (w : Fin 16) (s : State), s.dev.sys.perstLow = false → ∃ d, Gives (.linkUp ⟨sp, w⟩ 0) s d ∧
    rb d HIF_LINK HIF_LINK_UP = true ∧ rf d HIF_LINK HIF_LINK_SPEED = sp.val ∧ rf d HIF_LINK HIF_LINK_WIDTH = w.val ∧
    rf d HIF_LINK HIF_LINK_PM = 0 ∧ d.pwr.wakeNLow = false ∧ (∀ j, j ≠ HIF_LINK → j ≠ PWR_STAT → rd d j = rd s.dev j) ∧
    (s.dev.pwr.entry ≠ some .lull → s.dev.pwr.entry ≠ some .calm → rd d PWR_STAT = rd s.dev PWR_STAT ∧ d.pwr.entry = s.dev.pwr.entry) ∧
    ((s.dev.pwr.entry = some .lull ∨ s.dev.pwr.entry = some .calm) → d.pwr.entry = none ∧ rb d PWR_STAT PWR_STAT_REJ = true ∧
      rf d PWR_STAT PWR_STAT_REJ_CODE = 8 ∧ rb d PWR_STAT PWR_STAT_BUSY = false)) ∧
  (∀ (sp : Fin 8) (w : Fin 16) (pm : Fin 4) (s : State), s.dev.sys.perstLow = true → Gives (.linkUp ⟨sp, w⟩ pm) s (hostHears true s.dev)) ∧
  (∀ (sp : Fin 8) (w : Fin 16) (pm : Fin 4) (s : State), s.dev.sys.perstLow = false → pm.val ≠ 0 →
    Gives (.linkUp ⟨sp, w⟩ pm) s (if rb s.dev HIF_LINK HIF_LINK_UP then wf HIF_LINK HIF_LINK_PM pm.val (hostHears true s.dev) else hostHears true s.dev)) ∧
  (∀ (e : Ecc) (pads : List (Nat × Option Bool × Nat)) (s : State), awake s.dev = true → s.dev.sys.perstLow = false →
      let d := hostHears true s.dev
      let cfg (a : Nat) (q : MemReq) (f : Dev) : Prop := Gives (.memoryAccess .host a q ⟨e, .config, pads⟩) s f
      let bar (a : Nat) (q : MemReq) (f : Dev) : Prop := Gives (.memoryAccess .host a q ⟨e, .bar2, pads⟩) s f
      let space (x : CfgSpace) : Dev := { d with hif := { d.hif with space := x } }
      cfg 0 (.read 4) (emit (.window .config 0 (leBytes 4 0x96001D7A)) d) ∧
      cfg 8 (.read 4) (emit (.window .config 8 (leBytes 4 0x118000B1)) d) ∧
      cfg 0x2C (.read 4) (emit (.window .config 0x2C (leBytes 4 0x96001D7A)) d) ∧
      cfg 4 (.read 2) (emit (.window .config 4 (leBytes 2 (b2n s.dev.hif.space.mse * 2 + b2n (rb s.dev HIF_LINK HIF_LINK_BME) * 4))) d) ∧
      (∀ w : Fin 65536, cfg 4 (.write (leBytes 2 w.val)) (busMaster (w.val / 4 % 2 == 1) d.hif.msixEnable d.hif.msixFnMask
        { d.hif.space with mse := w.val / 2 % 2 == 1 } d)) ∧
      (∀ w : Word, ∃ x, cfg 0x10 (.write (leBytes 4 w.toNat)) (space x) ∧ x.bar0 % 4294967296 = w.toNat / 1048576 * 1048576 ∧
        x.bar0 / 4294967296 = s.dev.hif.space.bar0 / 4294967296 ∧ Machine.cfgWord (space x) 0x10 = some (w.toNat / 1048576 * 1048576 + 4)) ∧
      (∀ w : Word, ∃ x, cfg 0x18 (.write (leBytes 4 w.toNat)) (space x) ∧ x.bar2 % 4294967296 = w.toNat / 65536 * 65536 ∧
        x.bar2 / 4294967296 = s.dev.hif.space.bar2 / 4294967296 ∧ Machine.cfgWord (space x) 0x18 = some (w.toNat / 65536 * 65536 + 4)) ∧
      (∀ i, i = 0x20 ∨ i = 0x24 ∨ i = 0x30 → Machine.cfgWord d i = some 0) ∧
      (s.dev.hif.space.d3hot = false →
        (∀ a n, bar a (.read n) (emit (.window .bar2 a (List.replicate n 0)) d)) ∧
        (∀ (r : Fin 64) (v : Word), bar (r.val * 1024) (.write (leBytes 4 v.toNat)) (bell r.val false v d) ∧
          bar (r.val * 1024 + 4) (.write (leBytes 4 v.toNat)) (bell r.val true v d)) ∧
        (∀ (a : Nat) (b : Byte), bar a (.write [b]) (accessErr .subword .host a d))) ∧
      (s.dev.hif.space.d3hot = true → ∀ a q, bar a q d))

/-- R77, R79, R80, R85, R86, R98, R527: a write to MFP_PINn that no armed owning function locks takes effect at its acceptance; where it changes FSEL the pad
is high impedance up to the next TBCLK edge, and a signal that two pins then select sets CONFLICT; a locked one keeps its value, and reports a
change with LOCKED_WR. A bank supply takes the level of the nominal range that its voltage lies in, with 30 mV of hysteresis, and shows it in LEVELb;
one that departs from a non-zero EXPb sets LOSSb and MISMATCH, holds the bank's pins, gives every active function with a pin there the fault PIN_SUPPLY,
and triggers a record; otherwise a hold whose level is back ends where its function lets it. -/
def Obligations.PinsAndBankSuppliesShowTheirChange : Prop :=
  (∀ (m : Master) (n : Fin 288) (v : Word) (s : State), Lets m (MFP_PIN n.val) v true s →
    let off := MFP_PIN n.val
    let d := reached m off true s
    (pinLocked d n.val v = true → Starts (.mfpPinWrite m n v) m off v true s (fun d => if v &&& 0xFFF7#32 = rd d off then d else accessErr .lockedWr m off d)) ∧
    (pinLocked d n.val v = false → ∃ e, Starts (.mfpPinWrite m n v) m off v true s (fun _ => e) ∧ rd e off = v &&& 0xFFF7#32 ∧
      (∀ k, k ≠ n.val → rd e (MFP_PIN k) = rd d (MFP_PIN k)) ∧
      (pinFsel d n.val = fget v MFP_PIN_FSEL → e.mfp = d.mfp ∧ rd e MFP_STAT = rd d MFP_STAT) ∧
      (pinFsel d n.val ≠ fget v MFP_PIN_FSEL → smGet e.mfp.hiz n.val = some (edgeAt d (d.tb + 1)) ∧
        (d.tb < edgeAt d (d.tb + 1) → padDrive e n.val = none) ∧
        ((∀ k, k < 288 → k ≠ n.val → pinSig n.val (fget v MFP_PIN_FSEL) ≠ none → pinSel d k ≠ pinSig n.val (fget v MFP_PIN_FSEL)) → rd e MFP_STAT = rd d MFP_STAT) ∧
        (∀ k, k < 288 → k ≠ n.val → pinSig n.val (fget v MFP_PIN_FSEL) ≠ none → pinSel d k = pinSig n.val (fget v MFP_PIN_FSEL) →
          rb e MFP_STAT MFP_STAT_CONFLICT = true ∧ max k n.val ≤ rf e MFP_STAT MFP_STAT_CONFLICT_PIN)))) ∧
  (∀ (b : Fin 9) (mv t : Nat) (s : State), awake s.dev = true →
    let d := clockToNs t (hostHears true s.dev)
    let now := levelAfter (bankLevel d b.val) mv
    let lost := (bankExp d b.val = 1 ∨ bankExp d b.val = 2) ∧ bankLevel d b.val = bankExp d b.val ∧ now ≠ bankExp d b.val
    let shown := wf MFP_BANK_STAT ⟨2 * b.val + 1, 2 * b.val⟩ now d
    bankLevel shown b.val = now ∧ (∀ c, c < 9 → c ≠ b.val → bankLevel shown c = bankLevel d c) ∧
    (¬ lost → Gives (.vddioLevelChange b mv t) s (pinsBack shown)) ∧
    (lost → ∃ d1, Gives (.vddioLevelChange b mv t) s (Machine.trigger 0x04 0x3E [b.val, (rd d1 MFP_BANK_STAT).toNat] d1) ∧
      bankLevel d1 b.val = now ∧ rb d1 MFP_BANK_STAT ⟨18 + b.val, 18 + b.val⟩ = true ∧ rb d1 MFP_STAT MFP_STAT_MISMATCH = true ∧
      (∀ i, i < 32 → 32 * b.val + i ∈ d1.mfp.held ∧ padDrive d1 (32 * b.val + i) = none) ∧
      (∀ x ∈ bankFns d b.val, armedFn d x = true → ((getFn d x).state = .armed ∨ (getFn d x).state = .running ∨ (getFn d x).state = .stopping) →
        faultWaits d1 x = true))) ∧
  (∀ (d : Dev) (n : Nat), n ∈ (pinsBack d).mfp.held ↔ n ∈ d.mfp.held ∧ ¬ (bankLevel d (n / 32) = bankExp d (n / 32) ∧
    (∀ x, (pinSel d n).bind sigFn = some x → (getFn d x).state ≠ .faulted ∧ faultWaits d x = false) ∧
    ((pinSel d n).bind sigFn = none → cfgActive d = false))) ∧
  (∀ (x : Fin 4) (mv : Nat), let was := x.val
    (mv < 470 → levelAfter was mv = 0) ∧ (1650 < mv → mv < 1950 → levelAfter was mv = 1) ∧ (3000 < mv → mv < 3600 → levelAfter was mv = 2) ∧
    (530 ≤ mv → mv < 1590 → levelAfter was mv = 3) ∧ (2010 < mv → mv < 2940 → levelAfter was mv = 3) ∧ (3660 < mv → levelAfter was mv = 3) ∧
    (levelHolds was mv = true → levelAfter was mv = was) ∧ (1590 ≤ mv → mv ≤ 2010 → levelAfter 1 mv = 1) ∧ (2940 ≤ mv → mv ≤ 3660 → levelAfter 2 mv = 2))


/-! ### Configuration: load, arm, disarm, store, swap (spec/03) -/

/-- The word that writes command c to CFG_CTRL. -/
def Sys2Proof.cfgCmdWord (c : Nat) : Word := fset 0 CFG_CTRL_CMD c

/-- Command c of CFG_CTRL may run: the block is ready, no command runs unless c overrides it, and the configuration's state allows c
(R111). -/
def Sys2Proof.CfgRuns (c : Nat) (d : Dev) : Prop :=
  rb d SYS_READY SYS_READY_CFG = true ∧ (d.cfg.job = none ∨ cfgOverrides c d.cfg.state = true) ∧ cfgAllowed c d.cfg.state = true

/-- R111, R112, R114, R115: a CFG_CTRL command while another runs, which it does not override, sets REJ_BUSY alone; one that the configuration's state
does not accept ends with code 0x11. A disarm command while the configuration is ARMING abandons the arming and ends with OK. A command that ends
clears BUSY and sets DONE; with a failure it sets ERR, and CFG_FAULT holds code and section. -/
def Obligations.ConfigurationCommandsAreRefusedAbandonedAndReported : Prop :=
  (∀ (mem : Memory) (c : Nat) (d : Dev), 1 ≤ c → c ≤ 9 → rb d SYS_READY SYS_READY_CFG = true →
    (d.cfg.job ≠ none → cfgOverrides c d.cfg.state = false → cfgCmd mem c d = wf CFG_STAT CFG_STAT_REJ_BUSY 1 d) ∧
    ((d.cfg.job = none ∨ cfgOverrides c d.cfg.state = true) → cfgAllowed c d.cfg.state = false →
      cfgCmd mem c d = cfgEnd 0x11 noSection 0 d)) ∧
  (∀ (m : Master) (s : State),
    (Lets m CFG_CTRL (cfgCmdWord 3) true s → rb (reached m CFG_CTRL true s) SYS_READY SYS_READY_CFG = true →
      (reached m CFG_CTRL true s).cfg.state = .arming →
      Starts (.disarm m) m CFG_CTRL (cfgCmdWord 3) true s (fun d => cfgEnd 0 0 0 (setCfgState .loaded (forcesClear d)))) ∧
    (Lets m CFG_CTRL (cfgCmdWord 4) true s → rb (reached m CFG_CTRL true s) SYS_READY SYS_READY_CFG = true →
      (reached m CFG_CTRL true s).cfg.state = .arming →
      Starts (.disarmNow m) m CFG_CTRL (cfgCmdWord 4) true s (fun d => cfgEnd 0 0 0 (setCfgState .loaded (forcesClear d))))) ∧
  (∀ (code sec info : Nat) (d : Dev), (cfgEnd code sec info d).cfg.job = none ∧ rb (cfgEnd code sec info d) CFG_STAT CFG_STAT_DONE = true ∧
    (code ≠ 0 → rb (cfgEnd code sec info d) CFG_STAT CFG_STAT_ERR = true) ∧
    (code = 0 → rd (cfgEnd code sec info d) CFG_STAT = rd (wf CFG_STAT CFG_STAT_DONE 1 d) CFG_STAT) ∧
    rf (cfgEnd code sec info d) CFG_FAULT CFG_FAULT_CODE = code % 256)

/-- R107, R108, R110, R113, R114, R115, R121, R122: the CFG_CTRL commands that may run start their job: LOAD, LOAD_MRAM and LOAD_QSPI read and
check their image from the sources in order, with STATE LOADING but for a TO_DRAFT image and in ARMED; ARM makes the state ARMING, DISARM makes an ARMED
one DISARMING and ends a PENDING swap, DISARM_NOW waits for the COMMIT instant, STORE and ERASE_STORE invalidate the stored MAGIC first, DRAFT_SYNC copies
the live banks of the classes that no PENDING swap holds. LOAD and STORE end at once with the code of an address out of range, and STORE with that of an
image that fails stage one. -/
def Obligations.ConfigurationCommandsStartTheirJob : Prop :=
  ∀ (m : Master) (s : State),
    let e := reached m CFG_CTRL true s
    let runs (c : Nat) : Prop := Lets m CFG_CTRL (cfgCmdWord c) true s ∧ CfgRuns c e
    let starts (i : Instr) (c : Nat) (f : Dev → Dev) : Prop := Starts i m CFG_CTRL (cfgCmdWord c) true s f
    (∀ src, runs 1 → imgAt e = some src → starts (.load m) 1 (fun d => loadStart s.mem false [src] d)) ∧
    (runs 1 → imgAt e = none → starts (.load m) 1 (cfgEnd 4 noSection 0)) ∧
    (runs 6 → starts (.loadMram m) 6 (fun d => loadStart s.mem false [.mram] d)) ∧
    (runs 7 → starts (.loadQspi m) 7 (fun d => loadStart s.mem false [.qspi false, .qspi true] d)) ∧
    (runs 2 → starts (.arm m) 2 (fun d => { d with cfg := { d.cfg with state := .arming, job := some .armChecks } })) ∧
    (runs 3 → e.cfg.state ≠ .arming →
      starts (.disarm m) 3 (fun d => setJob (.disarm false) (setCfgState .disarming (swapFails 5 (forcesClear d))))) ∧
    (runs 4 → e.cfg.state ≠ .arming → starts (.disarmNow m) 4 (fun d => setJob .disarmNow (swapFails 5 (forcesClear d)))) ∧
    (∀ src, runs 5 → imgAt e = some src → (stageOne s.mem e false src).code = 0 →
      starts (.store m) 5 (fun d => setJob (.store (stageOne s.mem d false src).image) (memPut 0x60000000 [0, 0, 0, 0] d))) ∧
    (∀ src, runs 5 → imgAt e = some src → (stageOne s.mem e false src).code ≠ 0 →
      starts (.store m) 5 (cfgEnd (stageOne s.mem e false src).code (stageOne s.mem e false src).section_ 0)) ∧
    (runs 5 → imgAt e = none → starts (.store m) 5 (cfgEnd 4 noSection 0)) ∧
    (runs 8 → starts (.eraseStore m) 8 (fun d => setJob .eraseStore (memPut 0x60000000 [0, 0, 0, 0] d))) ∧
    (runs 9 → starts (.draftSync m) 9 (fun d =>
      let cs := [0, 1, 2, 3].filter (fun c => match d.cfg.swap with | some q => q.mask / 2 ^ c % 2 == 0 | none => true)
      setJob (.draftSync cs) (liveToDrafts cs d))) ∧
    (∀ (d : Dev) (a : Nat), rd d CFG_IMG_ADDR = BitVec.ofNat 32 a → a < 4294967296 →
      imgAt d = if a % 4 = 0 ∧ 0x20000000 ≤ a ∧ a < 0x20800000 then some (.sram a) else none) ∧
    (∀ (boot : Bool) (srcs : List ImgSrc) (d : Dev),
      let f := loadStart s.mem boot srcs d
      let r := stageSources s.mem d (d.cfg.state == .armed) srcs {}
      f.cfg.job = some (.load d.cfg.state boot r) ∧ f.regs = d.regs ∧ f.fns = d.fns ∧
      (d.cfg.state = .armed → f.cfg.state = .armed) ∧
      (d.cfg.state ≠ .armed → imgHeader r.image = true → imgToDraft r.image = true → f.cfg.state = d.cfg.state) ∧
      (d.cfg.state ≠ .armed → (imgHeader r.image = false ∨ imgToDraft r.image = false) → f.cfg.state = .loading)) ∧
    (∀ (cs : List Nat) (d : Dev) (off : Nat), (∀ c ∈ cs, c < 3) → rd (liveToDrafts cs d) off =
      if cs.contains (classOf off) then (rd d off &&& ~~~(rwdMask off)) ||| (liveRaw d off &&& rwdMask off) else rd d off)

/-- R107, R108, R110, R113, R122: stage one of a load tries its sources in order and reports the first check that fails; the jobs end. A load whose stage
one failed leaves the configuration as it was before; one that passed applies its sections, and leaves LOADED, or INCOMPLETE where a section was refused,
but for a TO_DRAFT image; STORE writes body and header and its MAGIC last; ERASE_STORE and DRAFT_SYNC report OK; ARM_CHECKS_END with every check
passed lets the arming swap come at the next COMMIT instant, and with a failed one leaves LOADED. An end without its job changes nothing. The boot
action of a cold reset reads the sources that the sampled BOOTSEL names, in their order, and runs once. -/
def Obligations.ConfigurationJobsEndAndTheBootActionRuns : Prop :=
  (∀ s : State, clocked s.dev = true →
    let d := hostHears true s.dev
    (∀ p b r, s.dev.cfg.job = some (.load p b r) → r.code ≠ 0 →
      Gives .imageLoadEnd s (cfgEnd r.code r.section_ 0 (setCfgState p d))) ∧
    (∀ p b r secs, s.dev.cfg.job = some (.load p b r) → r.code = 0 → imgSections r.image = .good secs →
      Gives .imageLoadEnd s (stageTwo s.mem p b r secs d)) ∧
    (∀ p b r c i, s.dev.cfg.job = some (.load p b r) → r.code = 0 → imgSections r.image = .bad c i →
      Gives .imageLoadEnd s (cfgEnd c i 0 (setCfgState p d))) ∧
    (∀ img, s.dev.cfg.job = some (.store img) → Gives .storeComplete s
      (cfgEnd 0 0 0 (memPut 0x60000000 (img.take 4) (memPut 0x60000004 (img.drop 4) d)))) ∧
    (s.dev.cfg.job = some .eraseStore → Gives .eraseStoreComplete s (cfgEnd 0 0 0 d)) ∧
    (∀ cs, s.dev.cfg.job = some (.draftSync cs) → Gives .draftSyncComplete s (cfgEnd 0 0 0 (setStale cs false d))) ∧
    (∀ e, s.dev.cfg.job = some .armChecks → runChecks d true d = (e, none) → Gives .armChecksEnd s (setJob (.armSwap (tickNum e)) e)) ∧
    (∀ e code info, s.dev.cfg.job = some .armChecks → runChecks d true d = (e, some (code, info)) →
      Gives .armChecksEnd s (cfgEnd code noSection info (setCfgState .loaded e))) ∧
    (s.dev.cfg.job = none → Gives .imageLoadEnd s d ∧ Gives .storeComplete s d ∧ Gives .eraseStoreComplete s d ∧ Gives .draftSyncComplete s d ∧
      Gives .armChecksEnd s d)) ∧
  (∀ (mem : Memory) (p : CfgState) (b : Bool) (r : LoadResult) (secs : List ImgSec) (d : Dev),
    let e := stageTwo mem p b r secs d
    let draft := imgToDraft r.image
    let ran := loadSections mem draft 0 secs (if draft then (if b then wf CFG_STAT CFG_STAT_BOOT_RESULT r.source d else d)
      else loadClears (if b then wf CFG_STAT CFG_STAT_BOOT_RESULT r.source d else d))
    (∀ i info, ran.2 = some (i, info) → e.cfg.job = none ∧ e.cfg.state = (if draft then p else .incomplete) ∧
      rd e CFG_FAULT = BitVec.ofNat 32 (i * 256 + 9) ∧ rd e CFG_FAULT_INFO = BitVec.ofNat 32 info) ∧
    (ran.2 = none → (b = false ∨ imgAutoarm r.image = false ∨ draft = true) →
      e.cfg.job = none ∧ e.cfg.state = (if draft then p else .loaded) ∧ rd e CFG_FAULT = 0 ∧ rd e CFG_IMAGE_ID = BitVec.ofNat 32 (imgNum r.image 0x14 4)) ∧
    (ran.2 = none → b = true → imgAutoarm r.image = true → draft = false → e.cfg.job = some .armChecks ∧ e.cfg.state = .arming)) ∧
  (∀ (mem : Memory) (d : Dev) (armed : Bool) (src : ImgSrc),
    let limit := srcLimit src
    let h := srcBytes mem d src (min 64 limit)
    let total := imgNum h 8 4
    let x := (stageOne mem d armed src).code
    (imgNum h 0 4 ≠ 0x4943464B → x = (match src with | .sram _ => 2 | _ => 1)) ∧
    (imgNum h 0 4 = 0x4943464B → 64 ≤ h.length →
      (crc32 (h.take 60) ≠ imgNum h 60 4 → x = 6) ∧
      (crc32 (h.take 60) = imgNum h 60 4 →
        let form := imgNum h 4 2 = 1 ∧ imgNum h 6 2 = 64 ∧ imgNum h 0x18 4 < 4 ∧ imgNum h 0x1E 30 = 0 ∧ imgNum h 0x1C 2 ≠ 0 ∧ imgNum h 0x1C 2 ≤ 4096
        let size := total % 4 = 0 ∧ 68 ≤ total ∧ total ≤ 1048576 ∧ total ≤ limit
        let mine := Nat.land (rd d SYS_ID).toNat (imgNum h 0x10 4) = Nat.land (imgNum h 0xC 4) (imgNum h 0x10 4)
        let body := srcBytes mem d src total
        (¬ form → x = 3) ∧ (form → ¬ size → x = 4) ∧ (form → size → ¬ mine → x = 5) ∧
        (form → size → mine → armed = true → imgToDraft h = false → x = 0x11) ∧
        (form → size → mine → (armed = false ∨ imgToDraft h = true) → crc32 (body.take (body.length - 4)) ≠ imgNum body (body.length - 4) 4 → x = 7) ∧
        (form → size → mine → (armed = false ∨ imgToDraft h = true) → crc32 (body.take (body.length - 4)) = imgNum body (body.length - 4) 4 →
          x = (match imgSections body with | .bad c _ => c | .good _ => 0))))) ∧
  (∀ (mem : Memory) (d : Dev) (armed : Bool) (a : ImgSrc) (t : List ImgSrc) (r : LoadResult),
    let x := stageOne mem d armed a
    stageSources mem d armed (a :: t) r = if x.code = 0 ∨ x.code = 0x11 ∨ t = [] then x else stageSources mem d armed t x) ∧
  (∀ s : State, clocked s.dev = true →
    let d := { hostHears true s.dev with cfg := { s.dev.cfg with bootPending := false } }
    let due := s.dev.cfg.bootPending = true ∧ s.dev.cfg.job = none ∧ rb s.dev SYS_READY SYS_READY_CFG = true
    (¬ due → Gives .bootAction s (hostHears true s.dev)) ∧
    (due → s.dev.sys.bootsel % 4 = 0 → Gives .bootAction s d) ∧
    (due → s.dev.sys.bootsel % 4 = 1 → Gives .bootAction s (loadStart s.mem true [.mram] d)) ∧
    (due → s.dev.sys.bootsel % 4 = 2 → Gives .bootAction s (loadStart s.mem true [.qspi false, .qspi true] d)) ∧
    (due → s.dev.sys.bootsel % 4 = 3 → Gives .bootAction s (loadStart s.mem true [.mram, .qspi false, .qspi true] d)))

/-- R117, R119..R121, R225: REQUEST in ARMED with no swap PENDING and no DRAFT_SYNC captures MASK, MODE, AT, MASTER and TIMEOUT, notes the present tick and
makes the swap PENDING; outside ARMED it fails with code 7 (the test for ARMED first: log entry 101); otherwise it sets REQ_REJ alone. CANCEL ends a
PENDING swap with code 4. The checks that pass mark the swap checked, or end it with code 2 once the COMMIT instant before its tick has passed; ones that
fail end it with code 1. At offset 0 of a tick a checked tick-mode swap of that tick takes place, and one whose tick has passed ends with code 2; a checked
position-mode swap takes place where the latched position of its RUNNING master has reached AT, and ends with code 3 once it has waited TIMEOUT
ticks. A swap that takes place exchanges the banks of its classes, and ends DONE with its tick in CFG_SWAP_TICK. -/
def Obligations.SwapsAreRequestedCheckedAndEnded : Prop :=
  (∀ (m : Master) (v : Word) (s : State),
    let cfgv (c : Nat) := fset v CFG_SWAP_CTRL_CMD c
    let taken (c : Nat) (d : Dev) := fieldsTaken CFG_SWAP_CTRL (cfgv c) d
    (Lets m CFG_SWAP_CTRL (cfgv 1) true s → ∃ e, Starts (.request m v) m CFG_SWAP_CTRL (cfgv 1) true s (fun _ => e) ∧
      let d := taken 1 (reached m CFG_SWAP_CTRL true s)
      (d.cfg.state ≠ .armed → e = swapEnd false 7 d) ∧
      (d.cfg.state = .armed → (d.cfg.swap ≠ none ∨ syncRuns d = true) → e = wf CFG_SWAP_STAT CFG_SWAP_STAT_REQ_REJ 1 d) ∧
      (d.cfg.state = .armed → d.cfg.swap = none → syncRuns d = false →
        let q : SwapReq := { mask := fget v CFG_SWAP_CTRL_MASK, web := fget v CFG_SWAP_CTRL_MODE == 1, master := fget v CFG_SWAP_CTRL_MASTER,
                             timeout := fget v CFG_SWAP_CTRL_TIMEOUT, tickA := tickNum d, checked := false,
                             pt := if fget v CFG_SWAP_CTRL_MODE = 1 then rdI64 d CFG_SWAP_AT_LO CFG_SWAP_AT_HI else (rd64 d CFG_SWAP_AT_LO CFG_SWAP_AT_HI : Nat) }
        e.cfg.swap = some q ∧
        rf e CFG_SWAP_STAT CFG_SWAP_STAT_STATE = 1 ∧ rf e CFG_SWAP_STAT CFG_SWAP_STAT_CODE = 0 ∧
        (∀ j, j ≠ CFG_SWAP_STAT → rd e j = rd d j))) ∧
    (Lets m CFG_SWAP_CTRL (cfgv 2) true s → Starts (.swapCancel m v) m CFG_SWAP_CTRL (cfgv 2) true s
      (fun d => if d.cfg.swap = none then taken 2 d else swapEnd false 4 (taken 2 d)))) ∧
  (∀ (done : Bool) (code : Fin 16) (d : Dev), let e := swapEnd done code.val d
    e.cfg.swap = none ∧ rf e CFG_SWAP_STAT CFG_SWAP_STAT_STATE = (if done then 2 else 3) ∧ rf e CFG_SWAP_STAT CFG_SWAP_STAT_CODE = code.val ∧
    (∀ j, j ≠ CFG_SWAP_STAT → rd e j = rd d j)) ∧
  (∀ s : State, clocked s.dev = true →
    let d := hostHears true s.dev
    (∀ q d1, s.dev.cfg.swap = some q → q.checked = false → runChecks (swapView q.mask d) false d = (d1, none) →
      Gives .swapChecksEnd s (if q.web = false ∧ q.pt ≤ (transferTick d1 : Int) then swapEnd false 2 d1
        else modCfg (fun c => { c with swap := some { q with checked := true } }) d1)) ∧
    (∀ q d1 code info, s.dev.cfg.swap = some q → q.checked = false → runChecks (swapView q.mask d) false d = (d1, some (code, info)) →
      Gives .swapChecksEnd s (swapEnd false 1 (cfgFault code noSection info d1))) ∧
    ((s.dev.cfg.swap = none ∨ ∃ q, s.dev.cfg.swap = some q ∧ q.checked = true) → Gives .swapChecksEnd s d) ∧
    (∀ q, s.dev.cfg.swap = some q → Gives .swapTimeout s
      (if q.web = true ∧ q.timeout ≠ 0 ∧ q.tickA + q.timeout ≤ tickNum d then swapEnd false 3 d else d)) ∧
    (s.dev.cfg.swap = none → Gives .swapTimeout s d)) ∧
  (∀ (n : Nat) (q : SwapReq) (d : Dev), d.cfg.swap = some q →
    let e := swapTick n d
    let here := chanRuns d q.master = true ∧ q.pt ≤ (getChan d q.master).pos / 4294967296
    let happens := e.cfg.swap = none ∧ rf e CFG_SWAP_STAT CFG_SWAP_STAT_STATE = 2 ∧ rf e CFG_SWAP_STAT CFG_SWAP_STAT_CODE = 0 ∧
      (rd e CFG_SWAP_TICK_LO).toNat = n % 4294967296 ∧ (rd e CFG_SWAP_TICK_HI).toNat = n / 4294967296 % 4294967296
    (q.web = false → q.checked = true → q.pt = n → happens) ∧ (q.web = false → q.pt < n → e = swapEnd false 2 d) ∧
    (q.web = false → (n : Int) < q.pt → e = d) ∧
    (q.web = true → (q.timeout = 0 ∨ n ≤ q.tickA + q.timeout) → q.checked = true → here → happens) ∧
    (q.web = true → (q.timeout = 0 ∨ n ≤ q.tickA + q.timeout) → (q.checked = false ∨ ¬ here) → e = d) ∧
    (q.web = true → q.timeout ≠ 0 → q.tickA + q.timeout < n → e = swapEnd false 3 d)) ∧
  (∀ (cs : List Nat) (d : Dev) (off : Nat), (∀ c ∈ cs, c < 3) →
    let e := banksSwap cs d
    let m := rwdMask off
    (cs.contains (classOf off) = true → rd e off = (rd d off &&& ~~~m) ||| (liveRaw d off &&& m) ∧
      liveRaw e off = (liveRaw d off &&& ~~~m) ||| (rd d off &&& m)) ∧
    (cs.contains (classOf off) = false → rd e off = rd d off ∧ liveRaw e off = liveRaw d off))


/-! ### Host rings (spec/04) -/

/-- R162, R164, R155: RING_ENABLE takes a DISABLED ring with a valid configuration to RUNNING (PAUSED while Bus Master Enable is 0), with an
invalid one sets ERR to BAD_CFG; RING_DISABLE drains a RUNNING ring; RING_RESUME takes a HALTED ring to RUNNING; RING_RESET clears the indices
of a HALTED or DISABLED one; a command that the ring's state does not list sets CMD_REJECTED alone. A configuration is valid with a size of 16 to 4,096
entries, bases at multiples of 64, and a producer that exists and that no other ring which is not DISABLED names (R132, R155). -/
def Obligations.RingCommandsFollowTheRingsState : Prop :=
  (∀ (d : Dev) (r : Nat),
    let src := ringSource d r
    let sz := rf d (HIF_RING_CFG r) HIF_RING_CFG_SIZE_LOG2
    ringConfigOk d r = true ↔
      4 ≤ sz ∧ sz ≤ 12 ∧ (rd d (HIF_RING_SQ_BASE_LO r)).toNat % 64 = 0 ∧ (rd d (HIF_RING_CQ_BASE_LO r)).toNat % 64 = 0 ∧ src ≤ 5 ∧
      (src ≤ 1 → ringSrcIdx d r < 8) ∧ (src = 2 → ringSrcIdx d r < 4) ∧ (3 ≤ src → ringSrcIdx d r = 0) ∧
      (src ≠ 0 → ∀ q, q < 64 → q ≠ r → ringState d q ≠ ringDisabled → ¬ (ringSource d q = src ∧ ringSrcIdx d q = ringSrcIdx d r))) ∧
  ∀ (m : Master) (r : Fin 64) (acc : Bool) (s : State),
    let w (n : Nat) := fset 0 HIF_RING_CTRL_CMD n
    let starts (c : Instr) (n : Nat) (f : Dev → Dev) : Prop := Lets m (HIF_RING_CTRL r.val) (w n) acc s → Starts c m (HIF_RING_CTRL r.val) (w n) acc s f
    let st (d : Dev) := ringState d r.val
    let rejected (d : Dev) := wf (HIF_RING_STAT r.val) HIF_RING_STAT_CMD_REJECTED 1 d
    let go (d : Dev) := setRingState r.val (if rb d HIF_LINK HIF_LINK_BME then ringRunning else ringPaused) (wf (HIF_RING_STAT r.val) HIF_RING_STAT_ERR 0 d)
    starts (.ringEnable m r acc) 1 (fun d =>
      if st d ≠ ringDisabled then rejected d else if ringConfigOk d r.val then go d else wf (HIF_RING_STAT r.val) HIF_RING_STAT_ERR 5 d) ∧
    starts (.ringDisable m r acc) 2 (fun d =>
      if st d ≠ ringRunning then rejected d else ringDrain r.val (flushUnstarted r.val (setRingState r.val ringDraining d))) ∧
    starts (.ringResume m r acc) 3 (fun d => if st d ≠ ringHalted then rejected d else go d) ∧
    starts (.ringReset m r acc) 4 (fun d =>
      if st d ≠ ringHalted ∧ st d ≠ ringDisabled then rejected d
      else ringClear r.val (setRingState r.val ringDisabled (wf (HIF_RING_STAT r.val) HIF_RING_STAT_ERR 0 d)))

/-- R134, R136, R511: a doorbell in range stores the tail or head (and entries that it frees are written), one out of range sets DB_RANGE and halts a
RUNNING ring with BAD_DOORBELL, one to a DISABLED ring is discarded with DB_DISABLED, whatever its value (log entries 232, 233); in BREEZE it wakes the
device first or, without DOORBELL_EN, is kept for the next exit. R165, R166: SQ_HEAD of a ring that is not HALTED and the configuration of a ring that
is not DISABLED are kept, with CFG_WR_ACTIVE; otherwise they take the write. -/
def Obligations.DoorbellsAndRingRegistersObeyTheRingsState : Prop :=
  ∀ (r : Fin 64) (v : Word) (acc : Bool) (s : State),
    let d := hostHears acc s.dev
    let rung (f : Fld) (d : Dev) : Dev :=
      if ringState d r.val = ringDisabled then hifErr HIF_ERR_DB_DISABLED d
      else if 4096 ≤ v.toNat ∨ ringSize d r.val ≤ v.toNat then
        (if ringState d r.val = ringRunning then
          haltRing r.val 2 0 (rf d (HIF_RING_IDX r.val) HIF_RING_IDX_SQ_HEAD) (rf d (HIF_RING_IDX r.val) HIF_RING_IDX_SQ_HEAD) (hifErr HIF_ERR_DB_RANGE d)
        else hifErr HIF_ERR_DB_RANGE d)
      else ringDrain r.val (wf (HIF_RING_DBV r.val) f v.toNat d)
    let wakes := rb s.dev PWR_WAKE_CFG PWR_WAKE_CFG_DOORBELL_EN = true
    let keep (cq : Bool) : Dev := { d with pwr := { d.pwr with storedBells := d.pwr.storedBells ++ [(r.val, cq, v)] } }
    (masterActs .host s.dev = true → s.dev.pwr.state = .gale →
      Gives (.sqTail r v acc) s (rung HIF_RING_DBV_SQ_TAIL d) ∧ Gives (.cqHead r v acc) s (rung HIF_RING_DBV_CQ_HEAD d)) ∧
    (masterActs .host s.dev = true → s.dev.pwr.state = .breeze → wakes →
      Gives (.sqTail r v acc) s (rung HIF_RING_DBV_SQ_TAIL (breezeExit 4 d)) ∧ Gives (.cqHead r v acc) s (rung HIF_RING_DBV_CQ_HEAD (breezeExit 4 d))) ∧
    (masterActs .host s.dev = true → s.dev.pwr.state = .breeze → ¬ wakes →
      Gives (.sqTail r v acc) s (keep false) ∧ Gives (.cqHead r v acc) s (keep true)) ∧
    (masterActs .host s.dev = false → Gives (.sqTail r v acc) s d ∧ Gives (.cqHead r v acc) s d) ∧
    (∀ m, Lets m (HIF_RING_IDX r.val) v true s → ringState (reached m (HIF_RING_IDX r.val) true s) r.val ≠ ringHalted →
      Starts (.sqHeadWrite m r v) m (HIF_RING_IDX r.val) v true s (hifErr HIF_ERR_CFG_WR_ACTIVE)) ∧
    (∀ m, Lets m (HIF_RING_IDX r.val) v true s → ringState (reached m (HIF_RING_IDX r.val) true s) r.val = ringHalted →
      Starts (.sqHeadWrite m r v) m (HIF_RING_IDX r.val) v true s (fieldsTaken (HIF_RING_IDX r.val) v)) ∧
    (∀ m off, 0x5000 ≤ off → off < 0x6000 → off % 4 = 0 → off % 0x40 < 0x14 → Lets m off v true s →
      ringState (reached m off true s) ((off - 0x5000) / 0x40) ≠ ringDisabled →
      Starts (.ringConfigWrite m off v) m off v true s (hifErr HIF_ERR_CFG_WR_ACTIVE)) ∧
    (∀ m off, 0x5000 ≤ off → off < 0x6000 → off % 4 = 0 → off % 0x40 < 0x14 → Lets m off v true s →
      ringState (reached m off true s) ((off - 0x5000) / 0x40) = ringDisabled →
      Starts (.ringConfigWrite m off v) m off v true s (fieldsTaken off v)) ∧
    (∀ e : Dev, rf (fieldsTaken (HIF_RING_IDX r.val) v e) (HIF_RING_IDX r.val) HIF_RING_IDX_SQ_HEAD = fget v HIF_RING_IDX_SQ_HEAD)

/-- Ring r may start the descriptor e with this opcode now, and none before it is refused. -/
structure Sys2Proof.CanStart (d : Dev) (r op : Nat) (e : FDesc) : Prop where
  pumped : ringPump r d = d
  next : startable d r = some e
  opcode : e.desc.opcode = op

/-- No descriptor of ring r with this opcode may start now, and none before it is refused. -/
structure Sys2Proof.CannotStart (d : Dev) (r op : Nat) : Prop where
  pumped : ringPump r d = d
  other : ∀ e, startable d r = some e → e.desc.opcode ≠ op

/-- R138, R141..R146, R148, R153, R154, R156: a fetched descriptor is taken apart as the table says and joins the ring; what each descriptor does once it
starts, with the data that the host's memory gave, before the ring goes on to what stands behind it: NOP completes; the lists write and read their
registers in order; MEM_WRITE and MEM_READ move their bytes; FENCE waits for its scope and, with LIVE, for the next COMMIT instant; CFG_CMD waits for
the end of its command; WORK_SUBMIT submits its item; RX_BUFFER posts its buffer; ETH_TX sends its frame; a read that fails ends with HOST_READ_ERR, a
register offset out of range with BAD_ADDRESS, an uncorrectable error with ECC. A command for a descriptor that may not start changes nothing. -/
def Obligations.DescriptorsDoTheirWork : Prop :=
  (∀ op fl tag len ha da p0 p1 : Nat, op < 256 → fl < 256 → tag < 65536 → len < 2 ^ 32 → ha < 2 ^ 64 → da < 2 ^ 32 → p0 < 2 ^ 32 → p1 < 2 ^ 64 →
    descOf (leBytes 1 op ++ leBytes 1 fl ++ leBytes 2 tag ++ leBytes 4 len ++ leBytes 8 ha ++ leBytes 4 da ++ leBytes 4 p0 ++ leBytes 8 p1) =
      { opcode := op, flags := fl, tag := tag, length := len, hostAddr := ha, devAddr := da, param0 := p0, param1 := p1 }) ∧
  (∀ (r : Fin 64) (x : Desc) (d : Dev), let e := fetchDesc r.val x d
    let head := rf d (HIF_RING_IDX r.val) HIF_RING_IDX_SQ_HEAD
    (getRing e r.val).q = (getRing d r.val).q ++ [{ idx := head, desc := x, stamp := d.hif.fetches }] ∧
    rf e (HIF_RING_IDX r.val) HIF_RING_IDX_SQ_HEAD = (head + 1) % ringSize d r.val % 4096) ∧
  (∀ (r : Nat) (e : FDesc) (d : Dev),
    (e.wait = .scope → fenceMet d r e = true → e.desc.param0 / 2 % 2 = 0 → fenceStep r e d = ringPump r (completeDesc r e.stamp 0 0 0 d)) ∧
    (e.wait = .scope → fenceMet d r e = true → e.desc.param0 / 2 % 2 = 1 → fenceStep r e d = startWaiting r e.stamp (.commit d.tb) d) ∧
    ((e.wait ≠ .scope ∨ fenceMet d r e = false) → fenceStep r e d = d)) ∧
  ∀ (r : Fin 64) (acc : Bool) (s : State) (e : FDesc), awake s.dev = true →
    let d := hostHears acc s.dev
    let ends (st : Nat) (result : Word) (d : Dev) := ringPump r.val (completeDesc r.val e.stamp st result 0 d)
    let bytes (bs : List Byte) := bs.take e.desc.length ++ List.replicate (e.desc.length - bs.length) 0
    let far (ws : List Nat) : Bool := ws.any (fun o => decide (0x80000 ≤ o))
    let offs (bs : List Byte) := (words32 (bytes bs)).map (fun o => o / 4 * 4)
    let reads (bs : List Byte) (d : Dev) : Dev := let w := listReads (offs bs) d
      ends 0 (BitVec.ofNat 32 (words32 (bytes bs)).length) (hostPut e.desc.param1 w.1 w.2)
    let moves (d : Dev) : Dev := let w := readBytes s.mem e.desc.devAddr e.desc.length d
      ends 0 (BitVec.ofNat 32 w.1.length) (hostPut e.desc.hostAddr w.1 w.2)
    (∀ x, canFetch d r.val = true → Gives (.descriptorFetch r (.data x) acc) s (ringPump r.val (fetchDesc r.val (descOf x) d))) ∧
    (canFetch d r.val = true → Gives (.descriptorFetch r .error acc) s (fetchFailed r.val d)) ∧
    (∀ x, canFetch d r.val = false → Gives (.descriptorFetch r x acc) s d) ∧
    (CanStart d r.val 0 e → Gives (.nop r acc) s (ends 0 0 d)) ∧
    (∀ bs, CanStart d r.val 1 e → far ((pairUp (words32 (bytes bs))).map (·.1)) = false →
      Gives (.regWriteList r (.data bs) acc) s
        (let w := listWrites s.mem (pairUp (words32 (bytes bs))) 0 d
         ends (if w.2.2 then 4 else 0) (BitVec.ofNat 32 w.2.1) w.1)) ∧
    (∀ bs, CanStart d r.val 1 e → far ((pairUp (words32 (bytes bs))).map (·.1)) = true → Gives (.regWriteList r (.data bs) acc) s (ends 3 0 d)) ∧
    (∀ bs, CanStart d r.val 2 e → far (offs bs) = true → ∀ ecc, Gives (.regReadList r ⟨(.data bs), ecc⟩ acc) s (ends 3 0 d)) ∧
    (∀ bs, CanStart d r.val 2 e → far (offs bs) = false →
      Gives (.regReadList r ⟨(.data bs), .good⟩ acc) s (reads bs d) ∧
      ((offs bs).find? regEcc = none → ∀ ecc, Gives (.regReadList r ⟨(.data bs), ecc⟩ acc) s (reads bs d)) ∧
      (∀ o, (offs bs).find? regEcc = some o → Gives (.regReadList r ⟨(.data bs), .single⟩ acc) s (reads bs (countEcc 1 d)) ∧
        Gives (.regReadList r ⟨(.data bs), .double⟩ acc) s (ends 6 0 (Machine.trigger 0x03 0x28 [o, Master.host.num] d)))) ∧
    (∀ bs, CanStart d r.val 3 e →
      Gives (.memWrite r (.data bs) acc) s (ends 0 (BitVec.ofNat 32 (bytes bs).length) (writeBytes .host e.desc.devAddr (bytes bs) d))) ∧
    (CanStart d r.val 4 e → Gives (.memRead r .good acc) s (moves d) ∧
      (hasEcc e.desc.devAddr = true → Gives (.memRead r .single acc) s (moves (countEcc 1 d)) ∧
        Gives (.memRead r .double acc) s (ends 6 0 (Machine.trigger 0x03 0x00 [e.desc.devAddr, Master.host.num] d))) ∧
      (hasEcc e.desc.devAddr = false → ∀ ecc, Gives (.memRead r ecc acc) s (moves d))) ∧
    (CanStart d r.val 5 e → Gives (.fence r acc) s
      (ringPump r.val (fenceStep r.val { e with started := true, wait := .scope } (startWaiting r.val e.stamp .scope d)))) ∧
    (CanStart d r.val 6 e →
      let cmd := e.desc.param0 % 16
      let wrote := regPut s.mem .host CFG_CTRL (BitVec.ofNat 32 cmd) d
      let busy := 1 ≤ cmd ∧ cmd ≤ 9 ∧ rb d SYS_READY SYS_READY_CFG = true ∧ d.cfg.job ≠ none ∧ cfgOverrides cmd d.cfg.state = false
      (¬ busy → Gives (.cfgCmd r acc) s (ringPump r.val (startWaiting r.val e.stamp .cfg wrote))) ∧
      (busy → Gives (.cfgCmd r acc) s (ringPump r.val (completeDesc r.val e.stamp 8 0x00FFFF10#32 0 wrote)))) ∧
    (∀ bs d1 slot, CanStart d r.val 7 e → submitItem (bytes bs) d = (d1, .ok slot) →
      Gives (.workSubmit r (.data bs) acc) s (ends 0 (BitVec.ofNat 32 slot) d1)) ∧
    (∀ bs d1 c, CanStart d r.val 7 e → submitItem (bytes bs) d = (d1, .error c) →
      Gives (.workSubmit r (.data bs) acc) s (ends 9 0 d1)) ∧
    (CanStart d r.val 0x10 e → Gives (.rxBuffer r acc) s (ringPump r.val (setRing r.val { getRing d r.val with
      q := (getRing d r.val).q.map (fun x => if x.stamp = e.stamp then { x with posted := true } else x) } d))) ∧
    (∀ bs, CanStart d r.val 0x11 e →
      Gives (.ethTx r (.data bs) acc) s
        (if allPortsDown d then ends 0x0B 0 d else ends 0 (BitVec.ofNat 32 (bytes bs).length) (mgmtSend e.desc.param0 (bytes bs) d))) ∧
    (CanStart d r.val 1 e → Gives (.regWriteList r .error acc) s (ends 5 0 d)) ∧
    (CanStart d r.val 2 e → ∀ ecc, Gives (.regReadList r ⟨.error, ecc⟩ acc) s (ends 5 0 d)) ∧
    (CanStart d r.val 3 e → Gives (.memWrite r .error acc) s (ends 5 0 d)) ∧
    (CanStart d r.val 7 e → Gives (.workSubmit r .error acc) s (ends 5 0 d)) ∧
    (CanStart d r.val 0x11 e → Gives (.ethTx r .error acc) s (ends 5 0 d)) ∧
    (∀ x ecc, (CannotStart d r.val 0 → Gives (.nop r acc) s d) ∧ (CannotStart d r.val 1 → Gives (.regWriteList r x acc) s d) ∧
      (CannotStart d r.val 2 → Gives (.regReadList r ⟨x, ecc⟩ acc) s d) ∧ (CannotStart d r.val 3 → Gives (.memWrite r x acc) s d) ∧
      (CannotStart d r.val 4 → Gives (.memRead r ecc acc) s d) ∧ (CannotStart d r.val 5 → Gives (.fence r acc) s d) ∧
      (CannotStart d r.val 6 → Gives (.cfgCmd r acc) s d) ∧ (CannotStart d r.val 7 → Gives (.workSubmit r x acc) s d) ∧
      (CannotStart d r.val 0x10 → Gives (.rxBuffer r acc) s d) ∧ (CannotStart d r.val 0x11 → Gives (.ethTx r x acc) s d))

/-- R139, R140, R147, R149, R163: a completion entry that may be written goes to the CQ at its tail, with STATUS, RESULT, TAG and the present PHASE, the
tail moves on by one, and PHASE changes when the tail comes back to 0. Where the host refuses the write, the tail stays, HOST_WR_ERR is set and a
RUNNING ring flushes with CQ_WRITE_ERR; the entry is not written again (the model's choice, log entry 234). While the CQ is full, the ring is PAUSED,
or the endpoint may not write, nothing is written. -/
def Obligations.ACompletionEntryGoesToTheTailOfTheCQ : Prop :=
  (∀ (r : Fin 64) (d : Dev) (e : FDesc) (c : DescDone), mayIssue d = true → cqFull d r.val = false → ringState d r.val ≠ ringPaused →
    nextEntry d r.val (getRing d r.val).q = some e → e.done = some c →
    let idx := HIF_RING_IDX r.val
    let tail := rf d idx HIF_RING_IDX_CQ_TAIL
    let phase := rf d idx HIF_RING_IDX_PHASE
    let f := writeEntry r.val d
    (d.hif.wrRefused = false →
      Out.hostWrite (rd64 d (HIF_RING_CQ_BASE_LO r.val) (HIF_RING_CQ_BASE_HI r.val) + 16 * tail)
        (cqEntry e.desc.tag e.desc.opcode c.status phase c.result.toNat (rf d idx HIF_RING_IDX_SQ_HEAD) c.info c.ns) false ∈ f.out ∧
      rf f idx HIF_RING_IDX_CQ_TAIL = (tail + 1) % ringSize d r.val % 4096 ∧
      rf f idx HIF_RING_IDX_PHASE = (if (tail + 1) % ringSize d r.val = 0 then 1 - phase else phase)) ∧
    (d.hif.wrRefused = true → rb f HIF_ERR HIF_ERR_HOST_WR_ERR = true ∧ rf f idx HIF_RING_IDX_CQ_TAIL = tail ∧
      (ringState d r.val = ringRunning → ringState f r.val = ringFlushing ∧ rf f (HIF_RING_STAT r.val) HIF_RING_STAT_ERR = 4))) ∧
  (∀ (r : Nat) (d : Dev), (mayIssue d = false ∨ cqFull d r = true ∨ ringState d r = ringPaused ∨ nextEntry d r (getRing d r).q = none) →
    writeEntry r d = d) ∧
  (∀ (d : Dev) (r : Nat) (e : FDesc) (t : List FDesc), ringSource d r ≠ 3 → ringOrdered d r = true →
    nextEntry d r (e :: t) = if e.done.isSome then some e else none)

/-- R160, R161: a vector whose message may not be sent sets its pending bit, and sends it when it is unmasked while the bit is set; an event whose bit
changes from 0 to 1 signals its vector while it is enabled. R129..R131: FLR clears the rings, their registers, the MSI-X table and its enables; Bus
Master Enable 0 pauses every RUNNING ring. R155, R158: a frame for the management MAC waits in no ring but the NET ring's, where the next posted buffer
takes it, or it is lost and marks the next buffer. R156, R159, R166: a buffer that holds data is completed with PARTIAL after FLUSH_US; an entry signals its
vector by the COAL register in force when it was written: with its count, its age, IRQ_NOW or a status that is not OK. -/
def Obligations.EndpointEventsActOnRingsAndVectors : Prop :=
  (∀ s : State, awake s.dev = true → s.dev.sys.perstLow = false → ∃ d, Gives .flr s d ∧ d.hif.rings = [] ∧ d.hif.msixEnable = false ∧
    d.hif.msixFnMask = false ∧ rb d HIF_ERR HIF_ERR_FLR = true ∧ rb d HIF_LINK HIF_LINK_BME = false ∧ rd d HIF_HALTED_LO = 0 ∧ rd d HIF_HALTED_HI = 0 ∧
    (∀ off, 0x5000 ≤ off → off < 0x7020 → smGet d.half off = none ∧
      ((∀ k, off ≠ HIF_MSIX_PBA k) → rd d off = resetVal off))) ∧
  (∀ (en mask d3 acc : Bool) (mps : Fin 2) (mrrs : Fin 3) (s : State), awake s.dev = true → s.dev.sys.perstLow = false →
    let h := (hostHears acc s.dev).hif
    let d := { hostHears acc s.dev with hif :=
      { h with msixEnable := en, msixFnMask := mask, space := { h.space with d3hot := d3, mps := mps.val, mrrs := mrrs.val } } }
    Gives (.busMasterEnableChange ⟨false, d3, mps, mrrs⟩ en mask acc) s (msixPending (pauseRings d)) ∧
    Gives (.busMasterEnableChange ⟨true, d3, mps, mrrs⟩ en mask acc) s (msixPending (resumeRings d))) ∧
  (∀ (bme en mask d3 acc : Bool) (mps : Fin 2) (mrrs : Fin 3) (s : State), awake s.dev = true → s.dev.sys.perstLow = true →
    Gives .flr s (hostHears true s.dev) ∧ Gives (.busMasterEnableChange ⟨bme, d3, mps, mrrs⟩ en mask acc) s (hostHears acc s.dev)) ∧
  (∀ d : Dev, rb (pauseRings d) HIF_LINK HIF_LINK_BME = false ∧ rb (wf HIF_LINK HIF_LINK_BME 1 d) HIF_LINK HIF_LINK_BME = true ∧
    (∀ r, r < 64 → ringState (pauseRings d) r = (if ringState d r = ringRunning then ringPaused else ringState d r))) ∧
  (∀ (bs : List Byte) (acc : Bool) (t : Nat) (s : State), awake s.dev = true → streamRing (clockToNs t (hostHears acc s.dev)) 3 0 = none →
    Gives (.mgmtFrameReceive bs acc t) s (clockToNs t (hostHears acc s.dev))) ∧
  (∀ (bs : List Byte) (acc : Bool) (t r : Nat) (s : State), awake s.dev = true → streamRing (clockToNs t (hostHears acc s.dev)) 3 0 = some r →
    fillBuffer (clockToNs t (hostHears acc s.dev)) r = none →
    Gives (.mgmtFrameReceive bs acc t) s (setRing r { getRing (clockToNs t (hostHears acc s.dev)) r with gap := true } (clockToNs t (hostHears acc s.dev)))) ∧
  (∀ (bs : List Byte) (acc : Bool) (t r : Nat) (e e1 : FDesc) (s : State), awake s.dev = true →
    let d := clockToNs t (hostHears acc s.dev)
    let d1 := fillBytes r e (bs.take e.desc.length) d
    streamRing d 3 0 = some r → fillBuffer d r = some e → (getRing d1 r).q.find? (fun x => x.stamp == e.stamp) = some e1 →
    Gives (.mgmtFrameReceive bs acc t) s
      (completeDesc r e1.stamp (if e.desc.length < bs.length then 0x0A else 0) (BitVec.ofNat 32 e1.fill) (b2n false + 2 * b2n e1.gap) d1)) ∧
  (∀ (r : Fin 64) (e : FDesc) (acc : Bool) (s : State), awake s.dev = true → fillBuffer s.dev r.val = some e → e.fill ≠ 0 →
    rf s.dev (HIF_RING_COAL r.val) HIF_RING_COAL_FLUSH_US ≠ 0 →
    Gives (.partialBufferFlush r acc) s (completeBuffer r.val e 0 true
      (clockToNs (e.lastNs + rf s.dev (HIF_RING_COAL r.val) HIF_RING_COAL_FLUSH_US * 1000) (hostHears acc s.dev)))) ∧
  (∀ (r : Fin 64) (acc : Bool) (s : State), awake s.dev = true →
    (fillBuffer s.dev r.val = none ∨ (∃ e, fillBuffer s.dev r.val = some e ∧ e.fill = 0) ∨ rf s.dev (HIF_RING_COAL r.val) HIF_RING_COAL_FLUSH_US = 0) →
    Gives (.partialBufferFlush r acc) s (hostHears acc s.dev)) ∧
  (∀ (r : Fin 64) (s : State), awake s.dev = true → (getRing s.dev r.val).unsig ≠ 0 →
    Gives (.coalescingTimeout r) s (ringSignal r.val (clockToNs (getRing s.dev r.val).due (hostHears true s.dev)))) ∧
  (∀ (r : Fin 64) (s : State), awake s.dev = true → (getRing s.dev r.val).unsig = 0 → Gives (.coalescingTimeout r) s (hostHears true s.dev)) ∧
  (∀ (r : Nat) (irq : Bool) (st : Nat) (d : Dev),
    let g := getRing d r
    let e := ringCount r irq st d
    let count := rf d (HIF_RING_COAL r) HIF_RING_COAL_COUNT
    let us := rf d (HIF_RING_COAL r) HIF_RING_COAL_TIME_US
    let now := max 1 count ≤ g.unsig + 1 ∨ us = 0 ∨ irq = true ∨ st ≠ 0
    (now → (getRing e r).unsig = 0) ∧ (¬ now → e.out = d.out ∧ e.regs = d.regs ∧ (getRing e r).unsig = g.unsig + 1 ∧
      (getRing e r).due = (if g.unsig = 0 then tbNs d else g.oldest) + us * 1000)) ∧
  (∀ (m : Master) (n : Fin 256) (s : State), Lets m (HIF_MSIX_CTRL n.val) 0 true s →
    Starts (.msixVectorUnmask m n) m (HIF_MSIX_CTRL n.val) 0 true s (fun d =>
      let p : Fld := ⟨n.val % 32, n.val % 32⟩
      let d1 := fieldsTaken (HIF_MSIX_CTRL n.val) 0 d
      if rb d1 (HIF_MSIX_PBA (n.val / 32)) p then sendMsix n.val (wf (HIF_MSIX_PBA (n.val / 32)) p 0 d1) else d1)) ∧
  (∀ (n : Fin 256) (d : Dev),
    let sends : Prop := d.hif.msixEnable = true ∧ d.hif.msixFnMask = false ∧ rb d (HIF_MSIX_CTRL n.val) HIF_MSIX_CTRL_MASK = false ∧
      rb d HIF_LINK HIF_LINK_BME = true ∧ rb d HIF_LINK HIF_LINK_UP = true ∧ d.hif.space.d3hot = false
    (sends → sendMsix n.val d = emit (.msix n.val (rd64 d (HIF_MSIX_ADDR_LO n.val) (HIF_MSIX_ADDR_HI n.val)) (rd d (HIF_MSIX_DATA n.val)).toNat) d) ∧
    (¬ sends → sendMsix n.val d = wf (HIF_MSIX_PBA (n.val / 32)) ⟨n.val % 32, n.val % 32⟩ 1 d)) ∧
  (∀ (b : Fin 32) (d : Dev),
    let f : Fld := ⟨b.val, b.val⟩
    let shown := wf HIF_EVT_STAT f 1 d
    (rb d HIF_EVT_STAT f = true → hifEvent b.val d = d) ∧
    (rb d HIF_EVT_STAT f = false → hifEvent b.val d = if rb d HIF_EVT_EN f then sendMsix (rf d HIF_EVT_VEC HIF_EVT_VEC_VEC) shown else shown))

/-! ### The tick, power states, temperature, the event recorder (spec/01, spec/17) -/

/-- R26, R28, R30, R32, R33, R58: the three instants of a tick come in their order, and one that was left out comes first; before TB time runs, and in
LULL and CALM, none comes. Each falls on the first TBCLK edge at which TB time has reached its offset: n × P, then 1,250 ns, then P − 1,500 ns. SAMPLE
latches the inputs of the planes that have clocks, COMPUTE takes the SAR latch, advances the profile generators and evaluates the due loop slots, COMMIT
transfers what is staged and then the blocks' results. A due loop slot whose state shows an uncorrectable error faults with ECC and takes no step (R48,
R342). R32, R34: at a COMMIT instant every staged register's accepted value becomes the value in force, with the low word of its quantity; no other
register's value in force changes, and what reads as written reads as before. -/
def Obligations.TheTickHasThreeInstantsAndStagedValuesTransfer : Prop :=
  (∀ (s : State) (ecc : List (Fin 1024)) (corr : Nat) (late : List (Fin 16)),
    (tbRuns s.dev = true → awake s.dev = true →
      let e := clockTo 0 (hostHears true s.dev)
      let b := phaseStep s.mem
      let xs := ecc.map (·.val)
      let ys := late.map (·.val)
      (e.phase ≠ .sample → e.phase ≠ .compute → Gives .tickStart s (sampleStart e) ∧
        Gives (.computeStart ⟨ecc, corr, late⟩) s (computeStart xs corr ys (sampleStart e)) ∧ Gives .commitInstant s (commitInstant s.mem (b (sampleStart e)))) ∧
      (e.phase = .sample → Gives (.computeStart ⟨ecc, corr, late⟩) s (computeStart xs corr ys e) ∧ Gives .commitInstant s (commitInstant s.mem (computeStart [] 0 [] e)) ∧
        Gives .tickStart s (b (b (computeStart [] 0 [] e)))) ∧
      (e.phase = .compute → Gives .commitInstant s (commitInstant s.mem e) ∧ Gives .tickStart s (b (commitInstant s.mem e)) ∧
        Gives (.computeStart ⟨ecc, corr, late⟩) s (computeStart xs corr ys (b (commitInstant s.mem e))))) ∧
    ((tbRuns s.dev = false ∨ awake s.dev = false) →
      let d := hostHears true s.dev
      Gives .tickStart s d ∧ Gives (.computeStart ⟨ecc, corr, late⟩) s d ∧ Gives .commitInstant s d)) ∧
  (∀ (mem : Memory) (d : Dev),
    (d.phase = .sample → phaseStep mem d = computeStart [] 0 [] d) ∧ (d.phase = .compute → phaseStep mem d = commitInstant mem d) ∧
    (d.phase ≠ .sample → d.phase ≠ .compute → phaseStep mem d = sampleStart d)) ∧
  (∀ (mem : Memory) (xs ys : List Nat) (corr : Nat) (d : Dev), tbRuns d = true → awake d = true → d.tbu.stepTo = none → d.tbu.oldPeriod = none →
    let edge (t b : Nat) : Prop := if t ≤ d.tb ∨ effAddend d = 0 then b = d.tb % 2 ^ 96
      else ∃ k, b = (d.tb + k * effAddend d) % 2 ^ 96 ∧ t ≤ d.tb + k * effAddend d ∧ d.tb + k * effAddend d < t + effAddend d
    let n := if d.phase = .none then d.tick else d.tick + 1
    (∃ x, x.phase = .sample ∧ x.tick = n ∧ edge (n * tickP d) x.tb ∧ x.regs = d.regs ∧
      sampleStart d = celTick (if clocked (celSample n x) then samplePlanes n (celSample n x) else celSample n x)) ∧
    (∃ x, x.phase = .compute ∧ x.lpe.late = ys ∧ x.tick = d.tick ∧ edge (d.tick * tickP d + 1250 * nsUnits) x.tb ∧
      computeStart xs corr ys d = if clocked x then lpeCompute x.tick (slotsEcc xs x.tick (countEcc corr (mpgCompute (sarLatch x)))) else x) ∧
    (∃ x, x.phase = .commit ∧ x.tick = d.tick ∧ edge (d.tick * tickP d + tickP d - 1500 * nsUnits) x.tb ∧
      commitInstant mem d = if clocked x then
          twnWrites mem d.tick (evrCommit readValue d.tick (twnHello d.tick (celCommit d.tick (commitPlanes mem d.tick x))))
        else evrCommit readValue d.tick (celCommit d.tick (celStops x))) ∧
    transferPlanes d.tick d = flkStops (scnCommit (stpStops d.tick (pwmCommit d.tick
      { lpeResets (lpeCommit d.tick (slotsDrop (wpuCommit (mpgCommit (transferAll d))))) with staged := [] }))) ∧
    commitPlanes mem d.tick d = schDeadlines (fencesCommit d.tick (d.tick * tickP d + tickP d - 1500 * nsUnits) (twnCommit d.tick
      (afterFns d (fnCommit mem d.tick (transferPlanes d.tick (celStops (swapLate d.tick d)))))))) ∧
  (∀ (n x : Nat) (d : Dev), x ∈ liveSlots d → slotDue d n x = true →
    slotsEcc [x] n d = detectFault (fnSlot x) 4 (eccRecord 0x28 d) ∧
    (slotEcc d x = true → slotStep x d = { d with sch := { d.sch with loopSteps := d.sch.loopSteps + 1 } })) ∧
  (∀ (d : Dev) (off : Nat),
    (off ∈ d.staged → liveRaw (transferAll d) off = rd d off) ∧
    (∀ h, h ∈ d.staged → lowOf h = some off → liveRaw (transferAll d) off = rd d off) ∧
    (off ∉ d.staged → (∀ h, h ∈ d.staged → lowOf h ≠ some off) → liveRaw (transferAll d) off = liveRaw d off) ∧
    rd (transferAll d) off = rd d off)

/-- R508, R509, R510, R511: REQUEST is refused with the first code that applies (KEY, a configuration, outputs, rings, wake sources, a target that
is none below the present state), or accepted with BUSY and its record; TARGET 0 takes the deepest state whose exit latency is tolerated. EXIT ends
BREEZE alone, with every block's kept state and the doorbells kept meanwhile. -/
def Obligations.PowerRequestsAreRefusedOrAccepted : Prop :=
  (∀ (d : Dev) (t : Nat),
    let armed := d.cfg.state = .arming ∨ d.cfg.state = .armed ∨ d.cfg.state = .disarming
    let outOn := 2 ≤ t ∧ rf d SAF_STAT ⟨15, 8⟩ ≠ 0
    let ringsBusy := ∃ r, r < 64 ∧ (ringState d r = ringDraining ∨ ringState d r = ringFlushing ∨
      ringState d r ≠ ringDisabled ∧ ringSource d r = 0 ∧
        ((∃ e ∈ (getRing d r).q, e.done = none) ∨ rf d (HIF_RING_IDX r) HIF_RING_IDX_SQ_HEAD ≠ rf d (HIF_RING_DBV r) HIF_RING_DBV_SQ_TAIL))
    let wakes := rb d PWR_WAKE_CFG PWR_WAKE_CFG_WAKE_IN_EN = true ∨ (rb d PWR_WAKE_CFG PWR_WAKE_CFG_ALARM_EN = true ∧ t ≤ 2) ∨
      (rb d PWR_WAKE_CFG PWR_WAKE_CFG_DOORBELL_EN = true ∧ t = 1)
    let deeper := d.pwr.state = .gale ∧ 1 ≤ t ∧ d.pwr.entry = none ∨ d.pwr.state = .breeze ∧ 2 ≤ t ∧ d.pwr.entry = none
    (armed → entryRefused d t = 2) ∧ (¬ armed → outOn → entryRefused d t = 3) ∧ (¬ armed → ¬ outOn → ringsBusy → entryRefused d t = 4) ∧
    (¬ armed → ¬ outOn → ¬ ringsBusy → ¬ wakes → entryRefused d t = 5) ∧
    ((d.pwr.state = .gale ∨ d.pwr.state = .breeze) → ¬ armed → ¬ outOn → ¬ ringsBusy → wakes → entryRefused d t = if deeper then 0 else 7)) ∧
  ∀ (m : Master) (v : Word) (s : State),
    let off := PWR_CTRL
    let fits (d : Dev) (t us : Nat) : Bool := decide (us ≤ (rd d PWR_WAKE_TOL).toNat) && entryRefused d t == 0
    let refused (code : Nat) (d : Dev) := wf PWR_STAT PWR_STAT_REJ_CODE code (wf PWR_STAT PWR_STAT_REJ 1 d)
    Takes (.pwrRequest m v) m off (fset v PWR_CTRL_CMD 1) true s (fun d =>
      if fget v PWR_CTRL_KEY ≠ 0x3C96 then refused 1 d
      else if fget v PWR_CTRL_TARGET = 0 then
        (if fits d 3 30000 then pwrAccept 3 d else if fits d 2 4000 then pwrAccept 2 d else if fits d 1 8 then pwrAccept 1 d else refused 6 d)
      else if entryRefused d (fget v PWR_CTRL_TARGET) = 0 then pwrAccept (fget v PWR_CTRL_TARGET) d
      else refused (entryRefused d (fget v PWR_CTRL_TARGET)) d) ∧
    Takes (.exit m v) m off (fset v PWR_CTRL_CMD 2) true s (fun d => if d.pwr.state = .breeze then breezeExit 6 d else d) ∧
    (∀ (d : Dev) (t : Nat), rb (pwrAccept t d) PWR_STAT PWR_STAT_BUSY = true ∧ (pwrAccept t d).pwr.entry = some (stateOf t) ∧
      (pwrAccept t d).pwr.state = d.pwr.state ∧ (d.evr.wait.length < (pwrAccept t d).evr.wait.length ∨ 0 < (pwrAccept t d).evr.lost) ∧
      (2 ≤ t → (pwrAccept t d).pwr.opSecStored = d.pwr.opTime / (1000000000 * nsUnits) % 4294967296)) ∧
    (∀ (d : Dev) (c : Fin 8), ∃ e, breezeExit c.val d = forEach d.pwr.storedBells (fun b d => doorbell b.1 b.2.1 b.2.2 d) e ∧
      e.pwr = { d.pwr with state := .gale, storedBells := [] } ∧ rf e PWR_STAT PWR_STAT_STATE = 0 ∧ rf e PWR_STAT PWR_STAT_LAST_LOW = 1 ∧
      rf e PWR_STAT PWR_STAT_WAKE_CAUSE = c.val ∧ (∀ j, j ≠ PWR_STAT → rd e j = rd d j) ∧ e.fns = d.fns ∧ e.wpu = d.wpu ∧ e.mpg = d.mpg ∧
      e.sch.items = d.sch.items)

/-- R506, R509..R515: an accepted entry takes place once the recorder's queue is empty and, for LULL and CALM, the link is off; until then only a link that
reaches L2/L3 Ready shows in PM. WAKE_IN and the alarm wake the device from the states in which they may, from LULL and CALM by a power-on reset that
waits for the rails; the coarse time keeper counts periods of 30,517.578125 ns, and an alarm in LULL comes at its first step that reaches PWR_ALARM.
The operating time is stored in whole seconds. -/
def Obligations.LowPowerStatesAreEnteredAndLeft : Prop :=
  (∀ s : State,
    let d := hostHears true s.dev
    let idle := s.dev.evr.wait = [] ∧ s.dev.evr.queue = [] ∧ s.dev.evr.clr = none ∧ s.dev.evr.clrRec = none
    let deep := s.dev.pwr.entry = some .lull ∨ s.dev.pwr.entry = some .calm
    let off (l23 : Bool) := l23 = true ∨ s.dev.sys.perstLow = true ∨ rb s.dev HIF_LINK HIF_LINK_UP = false ∨ rf s.dev HIF_LINK HIF_LINK_PM = 4
    let period := 131072000000000
    let kept (x : Nat) : Dev := { d with pwr := { s.dev.pwr with keeper := x } }
    let held (c : Nat) : Nat := s.dev.pwr.heldWake.getD c
    (∀ l23, awake s.dev = true →
      (s.dev.pwr.entry = none → Gives (.lowPowerEntry l23) s d) ∧
      (s.dev.pwr.entry = some .breeze → ¬ idle → Gives (.lowPowerEntry l23) s d) ∧
      (s.dev.pwr.entry = some .breeze → idle → ∃ e, Gives (.lowPowerEntry l23) s e ∧
        e.pwr.state = .breeze ∧ e.pwr.entry = none ∧ rf e PWR_STAT PWR_STAT_STATE = 1 ∧ rb e PWR_STAT PWR_STAT_BUSY = false ∧
        (∀ j, j ≠ PWR_STAT → rd e j = rd s.dev j) ∧ e.fns = s.dev.fns ∧ e.sch.items = s.dev.sch.items) ∧
      (deep → ¬ (idle ∧ off l23) → Gives (.lowPowerEntry l23) s (if l23 then wf HIF_LINK HIF_LINK_PM 4 d else d)) ∧
      (deep → idle → off l23 → ∃ e, Gives (.lowPowerEntry l23) s e ∧
        some e.pwr.state = s.dev.pwr.entry ∧ e.pwr.entry = none ∧ e.sys.rstoutHigh = false ∧ (e.pwr.keeperOn = true ↔ e.pwr.state = .lull) ∧
        (e.pwr.state = .lull → e.pwr.keeper = tbNs s.dev * nsUnits))) ∧
    (∀ l23, awake s.dev = false → Gives (.lowPowerEntry l23) s d) ∧
    (∀ ok n, rb s.dev PWR_WAKE_CFG PWR_WAKE_CFG_WAKE_IN_EN = false → Gives (.wakeIn ok n) s d) ∧
    (∀ n, rb s.dev PWR_WAKE_CFG PWR_WAKE_CFG_WAKE_IN_EN = true →
      let e := if s.dev.pwr.keeperOn then kept (s.dev.pwr.keeper + n * period) else d
      (∀ ok, s.dev.pwr.state = .breeze → Gives (.wakeIn ok n) s (breezeExit 2 e)) ∧
      ((s.dev.pwr.state = .lull ∨ s.dev.pwr.state = .calm) → Gives (.wakeIn true n) s (deepExit (held 2) e) ∧
        Gives (.wakeIn false n) s { e with pwr := { e.pwr with heldWake := some (held 2) } }) ∧
      (∀ ok, s.dev.pwr.state ≠ .breeze → s.dev.pwr.state ≠ .lull → s.dev.pwr.state ≠ .calm → Gives (.wakeIn ok n) s e)) ∧
    (∀ ok, (rb s.dev PWR_WAKE_CFG PWR_WAKE_CFG_ALARM_EN = false ∨ (s.dev.pwr.state ≠ .breeze ∧ s.dev.pwr.state ≠ .lull)) → Gives (.alarm ok) s d) ∧
    (∀ ok, rb s.dev PWR_WAKE_CFG PWR_WAKE_CFG_ALARM_EN = true → s.dev.pwr.state = .breeze →
      Gives (.alarm ok) s (breezeExit 3 (clockTo (rd64 d PWR_ALARM_LO PWR_ALARM_HI * nsUnits) d))) ∧
    (rb s.dev PWR_WAKE_CFG PWR_WAKE_CFG_ALARM_EN = true → s.dev.pwr.state = .lull → ∃ k, 1 ≤ k ∧
      let t := rd64 d PWR_ALARM_LO PWR_ALARM_HI * nsUnits
      let e := kept (s.dev.pwr.keeper + k * period)
      t ≤ e.pwr.keeper ∧ (k = 1 ∨ s.dev.pwr.keeper + (k - 1) * period < t) ∧ Gives (.alarm true) s (deepExit (held 3) e) ∧
      Gives (.alarm false) s { e with pwr := { e.pwr with heldWake := some (held 3) } }) ∧
    (awake s.dev = true → Gives .operatingTimeSave s
      { d with pwr := { s.dev.pwr with opSecStored := s.dev.pwr.opTime / (1000000000 * nsUnits) % 4294967296 } }) ∧
    (awake s.dev = false → Gives .operatingTimeSave s d)) ∧
  (∀ (c : Fin 8) (d : Dev), let e := deepExit c.val d
    e.pwr.state = .gale ∧ e.pwr.heldWake = none ∧ rf e PWR_STAT PWR_STAT_WAKE_CAUSE = c.val ∧
    ((d.pwr.state = .lull ∨ d.pwr.state = .calm) → rf e PWR_STAT PWR_STAT_LAST_LOW = stateNum d.pwr.state) ∧
    rb e SYS_RST_CAUSE SYS_RST_CAUSE_POR = true ∧ rd e SYS_READY = 0 ∧ e.fns = [] ∧ e.sys.bootsel = d.sys.bootsel ∧
    e.pwr.pcyc = (d.pwr.pcyc + 1) % 4294967296 ∧ e.pwr.keeperOn = d.pwr.keeperOn ∧ e.pwr.keeper = d.pwr.keeper ∧
    e.pwr.wakeNLow = rb d PWR_WAKE_CFG PWR_WAKE_CFG_WAKE_N_EN)

/-- R71, R516, R517: a reading of the sensors shows each of them and the hottest; a limit that is reached sets its flag and event flag and triggers a record,
and the flag clears 5 °C below; CRIT with CRIT_STOP issues a stop; the third consecutive reading of 150 °C or more shuts the device down, once the
recorder has written what it holds, until every sensor reads below 130 °C. A device that shut down for heat stays so while a sensor reads 130 °C or
more, and then takes a power-on reset that sets SHDN_EVT. -/
def Obligations.TemperatureReadingsActAndTheShutdownEnds : Prop :=
  (∀ (ts : List Int) (s : State), awake s.dev = true →
    let d := hostHears true s.dev
    let k := (hottestOf ts).1
    let t := (hottestOf ts).2
    let shown := wf PWR_THERM_STAT PWR_THERM_STAT_HOT_SENSOR k (wf PWR_THERM_STAT PWR_THERM_STAT_HOT (ofInt 16 t)
      (forUpTo 8 (fun i d => wr (PWR_TEMP i) (BitVec.ofNat 32 (2147483648 + ofInt 16 (ts.getD i 0))) d) d))
    let runs := (List.range 8).map (fun i => if 1200 ≤ ts.getD i 0 then s.dev.pwr.hotRuns.getD i 0 + 1 else 0)
    let warn : Int := (rf s.dev PWR_THERM_CFG PWR_THERM_CFG_WARN * 8 : Nat)
    let crit : Int := (rf s.dev PWR_THERM_CFG PWR_THERM_CFG_CRIT * 8 : Nat)
    let isWarn := rb s.dev PWR_THERM_STAT PWR_THERM_STAT_WARN
    let isCrit := rb s.dev PWR_THERM_STAT PWR_THERM_STAT_CRIT
    let hot := ∃ i, i < 8 ∧ 3 ≤ runs.getD i 0
    (∀ i, i < 8 → rd shown (PWR_TEMP i) = BitVec.ofNat 32 (2147483648 + ofInt 16 (ts.getD i 0))) ∧
    (∀ i, i < 8 → ts.getD i 0 ≤ t) ∧ k < 8 ∧ ts.getD k 0 = t ∧
    (¬ hot → Gives (.temperatureReading ts) s
      (let d1 := if isWarn = false ∧ warn ≤ t then
          Machine.trigger 0x07 0x01 [0, k, ofInt 16 t] (wf PWR_THERM_STAT PWR_THERM_STAT_WARN_EVT 1 (wf PWR_THERM_STAT PWR_THERM_STAT_WARN 1 shown))
        else if isWarn = true ∧ t < warn - 40 then wf PWR_THERM_STAT PWR_THERM_STAT_WARN 0 shown else shown
       let d2 := if isCrit = false ∧ crit ≤ t then
          Machine.trigger 0x07 0x01 [1, k, ofInt 16 t] (wf PWR_THERM_STAT PWR_THERM_STAT_CRIT_EVT 1 (wf PWR_THERM_STAT PWR_THERM_STAT_CRIT 1 d1))
        else if isCrit = true ∧ t < crit - 40 then wf PWR_THERM_STAT PWR_THERM_STAT_CRIT 0 d1 else d1
       let d3 := if isCrit = false ∧ crit ≤ t ∧ rb s.dev PWR_THERM_CFG PWR_THERM_CFG_CRIT_STOP = true then stopHostIssue 2 1 0xFE (ownHier d2) d2 else d2
       modPwr (fun p => { p with hotRuns := runs }) d3)) ∧
    (hot → ∃ e, Gives (.temperatureReading ts) s e ∧ e.pwr.state = .shutdown ∧ e.pwr.entry = none ∧ e.sys.rstoutHigh = false ∧
      (∀ n, padDrive e n = none) ∧ (rb s.dev SYS_READY SYS_READY_EVR = true → e.evr.queue = [] ∧ e.evr.wait = []))) ∧
  (∀ (ts : List Int) (s : State),
    (awake s.dev = false → Gives (.temperatureReading ts) s (hostHears true s.dev)) ∧
    (s.dev.pwr.state = .shutdown → (∀ t ∈ ts, t < 1040) → ∃ e, Gives (.thermalShutdownRelease ts) s e ∧ e.pwr.state = .gale ∧
      rb e PWR_THERM_STAT PWR_THERM_STAT_SHDN_EVT = true ∧ rb e SYS_RST_CAUSE SYS_RST_CAUSE_POR = true ∧ rd e SYS_READY = 0 ∧ e.fns = []) ∧
    (s.dev.pwr.state ≠ .shutdown ∨ (∃ t ∈ ts, 1040 ≤ t) → Gives (.thermalShutdownRelease ts) s (hostHears true s.dev)))

/-- R518, R520..R523: a trigger waits, or is lost in a full queue and counted, and the next that is kept brings a LOST record before it; the oldest
queued record gets the next SEQ and its CRC and goes into the store, of which the newest 16,384 stay; an accepted CLEAR's record comes first and stays
alone. CLEAR needs the stored authorisation value, the host as the master, a configuration at rest and, after a failed try, 10 s; SET_AUTH stores the
value once; EVR_RD_SEQ copies the record with that SEQ to the window; a write to EVR_TRIG triggers a MANUAL record. -/
def Obligations.TheRecorderKeepsItsRecords : Prop :=
  (∀ (code src : Nat) (detail : List Nat) (d : Dev), let e := Machine.trigger code src detail d
    let used := d.evr.wait.length + d.evr.queue.length
    e.evr.queue = d.evr.queue ∧ e.evr.store = d.evr.store ∧
    (31 ≤ used → e.evr.wait = d.evr.wait ∧ e.evr.lost = d.evr.lost + 1 ∧ e.evr.lostLast = tbNs d ∧ rd e EVR_LOST = (if (rd d EVR_LOST).toNat = 4294967295
      then rd d EVR_LOST else rd d EVR_LOST + 1)) ∧
    (used < 31 → e.regs = d.regs ∧ e.evr.lost = 0 ∧ (∃ x ∈ e.evr.wait, x.code = code ∧ x.src = src ∧ x.ns = tbNs d) ∧
      e.evr.wait.length = d.evr.wait.length + (if d.evr.lost = 0 then 1 else 2))) ∧
  (∀ (r : List Word) (d : Dev), let e := evrStore r d
    let body := BitVec.ofNat 32 d.evr.nextSeq :: r
    e.evr.store = (d.evr.store ++ [body ++ [BitVec.ofNat 32 (crc32 (body.flatMap (fun w => leBytes 4 w.toNat)))]]).drop (d.evr.store.length + 1 - 16384) ∧
    e.evr.nextSeq = (d.evr.nextSeq + 1) % 4294967296 ∧ e.evr.queue = d.evr.queue) ∧
  ∀ (m : Master) (v : Word) (s : State),
    (∀ acc, awake s.dev = true → rb s.dev SYS_READY SYS_READY_EVR = true → let d := hostHears acc s.dev
      (∀ r t, s.dev.evr.clrRec = none → s.dev.evr.clr = none → s.dev.evr.queue = r :: t →
        Gives (.recordWrite acc) s (evrStore r { d with evr := { d.evr with queue := t } })) ∧
      (s.dev.evr.clrRec = none → (s.dev.evr.clr ≠ none ∨ s.dev.evr.queue = []) → Gives (.recordWrite acc) s d) ∧
      (∀ r, s.dev.evr.clrRec = some r →
        let old := s.dev.evr.store
        let words := r.take 8 ++ [BitVec.ofNat 32 old.length, (old.getLast?.bind (·.head?)).getD 0, BitVec.ofNat 32 (s.dev.evr.clears + 1)] ++ r.drop 11
        let e := evrStore words d
        Gives (.recordWrite acc) s { e with evr := { e.evr with clrRec := none, clears := s.dev.evr.clears + 1, store := e.evr.store.drop (e.evr.store.length - 1) } })) ∧
    (∀ acc, awake s.dev = false ∨ rb s.dev SYS_READY SYS_READY_EVR = false → Gives (.recordWrite acc) s (hostHears acc s.dev)) ∧
    Takes (.manual m v) m EVR_TRIG v true s (Machine.trigger 0xF0 0x3C [v.toNat, m.num]) ∧
    Takes (.setAuth m) m EVR_CTRL (fset 0 EVR_CTRL_CMD 2) true s (fun d =>
      if d.evr.auth = none then wf EVR_STAT EVR_STAT_AUTH_SET 1 (modEvr (fun e => { e with auth := some e.arg }) d)
      else wf EVR_STAT EVR_STAT_CLR_REJ 1 d) ∧
    Takes (.evrClear m) m EVR_CTRL (fset 0 EVR_CTRL_CMD 1) true s (fun d =>
      let rej := wf EVR_STAT EVR_STAT_CLR_REJ 1 d
      if d.evr.auth = none then rej
      else if d.evr.auth ≠ some d.evr.arg then bump EVR_STAT EVR_STAT_CLR_FAIL (modEvr (fun e => { e with lastFail := some (tbNs d) }) rej)
      else if m = .host ∧ (d.cfg.state = .empty ∨ d.cfg.state = .loaded ∨ d.cfg.state = .incomplete) ∧
          (∀ t, d.evr.lastFail = some t → t + 10000000000 ≤ tbNs d) then
        (if d.evr.clr.isSome || d.evr.clrRec.isSome then d
         else modEvr (fun e => { e with erasing := true, clr := some ⟨0xFE, 0x3C, [], tbNs d⟩ }) d)
      else rej) ∧
    (awake s.dev = true → s.dev.evr.clr = none → s.dev.evr.clrRec = none →
      Gives .eraseComplete s (modEvr (fun e => { e with erasing := false }) (hostHears true s.dev))) ∧
    ((awake s.dev = false ∨ s.dev.evr.clr ≠ none ∨ s.dev.evr.clrRec ≠ none) → Gives .eraseComplete s (hostHears true s.dev)) ∧
    Takes (.rdSeqWrite m v) m EVR_RD_SEQ v true s (fun d => rdSeq v (fieldsTaken EVR_RD_SEQ v d)) ∧
    (∀ (d : Dev) (r : List Word), d.evr.store.find? (fun r => r.head? == some v) = some r →
      bitOf (rd (rdSeq v d) EVR_RD_STAT) 0 = true ∧ bitOf (rd (rdSeq v d) EVR_RD_STAT) 1 = true ∧
      (bitOf (rd (rdSeq v d) EVR_RD_STAT) 2 = true ↔
        BitVec.ofNat 32 (crc32 ((r.take 31).flatMap (fun w => leBytes 4 w.toNat))) ≠ r.getD 31 0) ∧
      rd (rdSeq v d) EVR_RD_SEQ = v ∧ ∀ w, w < 32 → rd (rdSeq v d) (EVR_WIN w) = r.getD w 0) ∧
    (∀ d : Dev, (∀ r ∈ d.evr.store, r.head? ≠ some v) → rd (rdSeq v d) EVR_RD_STAT = 1 ∧ rd (rdSeq v d) EVR_RD_SEQ = v)

/-! ### TB time, PTP, pulses and captures (spec/05) -/

/-- R20, R167, R168, R170, R175, R544: a STEP waits for the next TBCLK edge, at which TB_SET is loaded, STEPPED set and a record triggered, and a valid new
PERIOD waits for it too; the tick in which that edge lands is skipped; a locked STEP or PERIOD is refused with LOCKED_WR, a reserved PERIOD discarded.
TB_ADDEND is discarded with ADDEND_WR under the servo. R173: no measurement for 8 Sync intervals ends LOCKED and starts holdover. -/
def Obligations.TimeIsSteppedAndItsRateSet : Prop :=
  (∀ (m : Master) (v : Word) (s : State),
    Takes (.step m v) m TB_CTRL (fset v TB_CTRL_STEP 1) true s (fun d => let e := fieldsTaken TB_CTRL (fset v TB_CTRL_STEP 1) d
      if tbOwnerArmed e then accessErr .lockedWr m TB_CTRL e
      else if tbRuns e then { e with tbu := { e.tbu with stepTo := some (rd64 e TB_SET_LO TB_SET_HI * nsUnits) } } else e) ∧
    Takes (.tickPeriodWrite m v) m TB_TICK_CFG v true s (fun d =>
      let new := fget v TB_TICK_CFG_PERIOD
      let old := rf d TB_TICK_CFG TB_TICK_CFG_PERIOD
      if new = old then d
      else if tbOwnerArmed d then accessErr .lockedWr m TB_TICK_CFG d
      else if 5 ≤ new then d
      else let e := fieldsTaken TB_TICK_CFG v d
        if tbRuns d then { e with tbu := { e.tbu with oldPeriod := some (d.tbu.oldPeriod.getD old) } } else e) ∧
    (∀ high : Bool, let off := if high then TB_ADDEND_HI else TB_ADDEND_LO
      Takes (.addendWrite m high v) m off v true s (fun d =>
        if rb d TB_CTRL TB_CTRL_SERVO_EN then wf TB_STAT TB_STAT_ADDEND_WR 1 d else fieldsTaken off v d)) ∧
    (awake s.dev = false → Gives .syncTimeout s (hostHears true s.dev)) ∧
    WhileAwake .syncTimeout true s (fun d => servoLost (match slavePort d with
      | none => d
      | some p => clockToNs (d.net.lastMeas + (8000000000 / 2 ^ satNat 7 (rf d (NET_PORT_CFG p) NET_PORT_CFG_LOG_SYNC) : Nat)).toNat d))) ∧
  (∀ d : Dev, let e := passEdge d
    (∀ x, d.tbu.stepTo = some x → e.tb = x % 2 ^ 96 ∧ e.phase = .skipped ∧ e.tick = e.tb / tickP e ∧ e.tbu.stepTo = none ∧ e.tbu.oldPeriod = none ∧
      rb e TB_STAT TB_STAT_STEPPED = true ∧
      e.evr = (Machine.trigger 0x10 0x08 [(rd d TB_SET_LO).toNat, (rd d TB_SET_HI).toNat] { d with tb := x % 2 ^ 96 }).evr) ∧
    (∀ o, d.tbu.stepTo = none → d.tbu.oldPeriod = some o → e.tb = (d.tb + effAddend d) % 2 ^ 96 ∧ e.phase = .skipped ∧ e.tick = e.tb / tickP e ∧
      e.tbu.oldPeriod = none ∧ e.regs = d.regs ∧ tickP d = 15625 * 2 ^ (31 + o) ∧ tickP e = 15625 * 2 ^ (31 + rf d TB_TICK_CFG TB_TICK_CFG_PERIOD)) ∧
    (d.tbu.stepTo = none → d.tbu.oldPeriod = none → e = d) ∧
    (∀ t, tbRuns d = true → awake d = true → (clockRaw t d).tb = edgeAt e t % 2 ^ 96 ∧ (clockRaw t d).phase = e.phase ∧ (clockRaw t d).tick = e.tick) ∧
    (∀ t, tbRuns d = false ∨ awake d = false → clockRaw t d = d)) ∧
  (∀ d : Dev, let e := servoLost d
    rb e TB_STAT TB_STAT_HOLDOVER = true ∧ rb e TB_STAT TB_STAT_LOCKED = false ∧ e.tbu.good = 0 ∧ e.tbu.servoC = d.tbu.servoC ∧
    rb e TB_STAT TB_STAT_LOCK_LOST = (rb d TB_STAT TB_STAT_LOCK_LOST || rb d TB_STAT TB_STAT_LOCKED)) ∧
  (∀ (o : Int) (d : Dev), rb (servoMeasure o d) TB_STAT TB_STAT_HOLDOVER = false)

/-- R171, R172: a measurement moves the integral and the correction by the formulas, both within MAX_PPM, and shows in TB_SERVO_OFFSET; a large one
steps TB time, in whole ns, where AUTO_STEP allows it and no owning function is armed. R173: 8 good measurements in a row set LOCKED, one beyond four
times LOCK_NS clears it. -/
def Obligations.TheServoFollowsItsMeasurements : Prop :=
  ∀ (o : Int) (d : Dev),
    let big := rb d TB_CTRL TB_CTRL_AUTO_STEP = true ∧ 655360000 < o.natAbs ∧ tbOwnerArmed d = false
    let e := servoMeasure o d
    let lim : Int := (maxPpm d * 17179869184 / 1000000 : Nat)
    let i := clampInt (-lim) lim (d.tbu.servoI - o / (2 ^ rf d TB_SERVO_CFG TB_SERVO_CFG_KI_SHIFT : Nat))
    let c := clampInt (-lim) lim (i - o / (2 ^ rf d TB_SERVO_CFG TB_SERVO_CFG_KP_SHIFT : Nat))
    let lock : Nat := rf d TB_SERVO_CFG TB_SERVO_CFG_LOCK_NS * 65536
    rd e TB_SERVO_OFFSET = BitVec.ofInt 32 (satI32 (o / 65536)) ∧
    (¬ big → e.tbu.servoI = i ∧ e.tbu.servoC = c ∧ rd e TB_SERVO_CORR = BitVec.ofInt 32 c ∧ e.tb = d.tb) ∧
    (big → e.tbu.servoI = 0 ∧ e.tbu.servoC = 0 ∧ rd e TB_SERVO_CORR = 0 ∧ rb e TB_STAT TB_STAT_STEPPED = true ∧
      ∃ n : Int, (2 * (n * 65536 - o)).natAbs ≤ 65536 ∧ (0 ≤ (d.tb : Int) - n * nsUnits → (e.tb : Int) = ((d.tb : Int) - n * nsUnits) % 2 ^ 96)) ∧
    (lock < o.natAbs → e.tbu.good = 0) ∧ (o.natAbs ≤ lock → e.tbu.good = satNat 8 (d.tbu.good + 1)) ∧
    (4 * lock < o.natAbs → rb e TB_STAT TB_STAT_LOCKED = false) ∧
    (o.natAbs ≤ lock → 7 ≤ d.tbu.good → rb e TB_STAT TB_STAT_LOCKED = true)

/-- R185..R188: what the PTP engine does with the messages of a port and at its intervals: a SLAVE port measures a Sync, one-step or with its Follow_Up,
and the delay that a Delay_Resp completes; a MASTER port answers Delay_Req; a P2P port answers Pdelay_Req and measures its link; every other message
changes nothing, but for the copy of an event message that MIRROR asks for. Of the parents it takes only the configured one on the SLAVE port. The
formulas are IEEE 1588's (PRESUMED, log entry 50). -/
def Obligations.PtpMessagesAreMeasuredAndAnswered : Prop :=
  (∀ (d : Dev) (p : Nat) (g : PtpMsg), ptpTakes d p g = true ↔
    ptpRole d ≠ 0 ∧ portUp d p = true ∧ 1 ≤ ptpState d p ∧ g.domain = rf d NET_PTP_CFG NET_PTP_CFG_DOMAIN ∧
    g.sdo = rf d NET_PTP_CFG NET_PTP_CFG_MAJOR_SDO ∧ (g.udp = true → rb d NET_PTP_CFG NET_PTP_CFG_UDP4 = true) ∧
    (ptpState d p = 3 → (rd d NET_PTP_PARENT_HI = 0 ∧ rd d NET_PTP_PARENT_LO = 0) ∨
      g.clock = (rd d NET_PTP_PARENT_HI).toNat * 4294967296 + (rd d NET_PTP_PARENT_LO).toNat)) ∧
  (∀ (d : Dev) (p : Nat) (udp : Bool) (diff : Int), portUp d p = true →
    let x := getPort d p
    let delay : Int := if isP2p d p then (rd d (NET_PORT_LINK_DLY p)).toNat else x.meanPath
    let d1 := setPort p { x with diff := diff, wait := none } d
    let e := if slavePort d = some p then servoMeasure (diff - delay) d1 else d1
    (isP2p d p = true → syncDone p udp diff d = e) ∧
    (isP2p d p = false → syncDone p udp diff d = queueItem p 6 (.ptp 1 (ptpMake e p udp x.reqSeq 0 0 false 0 0) 0) e)) ∧
  (∀ (p : Fin 3) (g : PtpMsg) (t : Nat) (acc : Bool) (s : State), awake s.dev = true →
    let n := p.val
    let d := clockToNs t (hostHears acc s.dev)
    let h := if rb d NET_PTP_CFG NET_PTP_CFG_MIRROR && portUp d n then streamFrame g.raw d else d
    let slave (d : Dev) : Bool := ptpTakes d n g && ptpState d n == 3
    let mine (d : Dev) : Bool := g.reqClock == ownClock d && g.reqPort == n + 1
    let ns : Int := (g.ts * 65536 : Nat)
    let rx : Int := (stampNs d t * 65536 : Nat) - ((rd h (NET_PORT_DLY_RX n)).toNat : Int)
    let x := getPort d n
    let y := getPort h n
    Gives (.sync p g t acc) s
      (if slave h then
        (if g.twoStep then setPort n { y with wait := some (g, rx) } h else syncDone n g.udp (rx - ns - g.corr) h)
       else h) ∧
    (∀ c r, x.wait = some (c, r) → Gives (.followUp p g t acc) s
      (if slave d ∧ c.clock = g.clock ∧ c.port = g.port ∧ c.seq = g.seq ∧ c.udp = g.udp then syncDone n g.udp (r - ns - c.corr - g.corr) d else d)) ∧
    (x.wait = none → Gives (.followUp p g t acc) s d) ∧
    Gives (.delayReq p g t acc) s
      (if ptpTakes h n g && ptpState h n == 2 && ptpRole h != 3 && !isP2p h n then
        queueItem n 6 (.ptp 9 (ptpMake h n g.udp g.seq (tsNs rx) (g.corr - tsFrac rx) false g.clock g.port) 0) h
       else h) ∧
    (∀ t3, x.t3 = some t3 → Gives (.delayResp p g t acc) s
      (if slave d && mine d && g.seq == x.reqSeq then
        setPort n { x with t3 := none, reqSeq := (x.reqSeq + 1) % 65536, meanPath := (x.diff + (ns - t3 - g.corr)) / 2 } d
       else d)) ∧
    (x.t3 = none → Gives (.delayResp p g t acc) s d) ∧
    Gives (.pdelayReq p g t acc) s
      (if ptpTakes h n g && isP2p h n then
        (if isTwoStep h n then queueItem n 6 (.ptp 3 (ptpMake h n g.udp g.seq (tsNs rx) (-tsFrac rx) true g.clock g.port) g.corr) h
         else queueItem n 6 (.ptp 3 (ptpMake h n g.udp g.seq 0 0 false g.clock g.port) (g.corr - rx)) h)
       else h) ∧
    (∀ t1, pdelayT1 h n g.udp = some t1 → Gives (.pdelayResp p g t acc) s
      (if ptpTakes h n g && isP2p h n && mine h && g.seq == y.pSeq then
        (if g.twoStep then setPort n { y with pWait := some (g, rx) } h else linkDelay n g.udp ((rx - t1 - g.corr) / 2) h)
       else h)) ∧
    (pdelayT1 h n g.udp = none → Gives (.pdelayResp p g t acc) s h) ∧
    (∀ t1 c r, pdelayT1 d n g.udp = some t1 → x.pWait = some (c, r) → Gives (.pdelayRespFollowUp p g t acc) s
      (if ptpTakes d n g && isP2p d n && mine d && g.seq == c.seq && c.udp == g.udp then
        linkDelay n g.udp ((r - t1 - (ns - (c.ts * 65536 : Nat)) - c.corr - g.corr) / 2) d
       else d)) ∧
    ((pdelayT1 d n g.udp = none ∨ x.pWait = none) → Gives (.pdelayRespFollowUp p g t acc) s d)) ∧
  (∀ (p : Fin 3) (g : PtpMsg) (t : Nat) (acc : Bool) (s : State), awake s.dev = false → let d := hostHears acc s.dev
    Gives (.sync p g t acc) s d ∧ Gives (.followUp p g t acc) s d ∧ Gives (.delayReq p g t acc) s d ∧ Gives (.delayResp p g t acc) s d ∧
    Gives (.pdelayReq p g t acc) s d ∧ Gives (.pdelayResp p g t acc) s d ∧ Gives (.pdelayRespFollowUp p g t acc) s d) ∧
  (∀ (p : Fin 3) (udp : Bool) (v : Int) (d : Dev), let e := linkDelay p.val udp v d
    rd e (NET_PORT_LINK_DLY p.val) = BitVec.ofNat 32 (clampInt 0 4294967295 v).toNat ∧ pdelayT1 e p.val udp = none ∧ (getPort e p.val).pWait = none)

/-- R181, R185..R187: at each interval a MASTER port of a clock sends a Sync and a P2P port a Pdelay_Req, on every transport in use; a port in another state
sends nothing. A message of the engine waits in class 6 for its gate; as it leaves, at a transmit time that no rule states (a free value, log entry 240),
a one-step Sync takes its originTimestamp and a one-step Pdelay_Resp its turnaround time, a two-step one is followed by its follow-up, and a Delay_Req
or Pdelay_Req leaves its transmit time behind. -/
def Obligations.PtpPortsSendAtTheirIntervals : Prop :=
  (∀ (p : Fin 3) (t : Nat) (s : State), awake s.dev = true →
    let n := p.val
    let d := clockToNs t (hostHears true s.dev)
    let x := getPort d n
    let all := if rb d NET_PTP_CFG NET_PTP_CFG_UDP4 then [false, true] else [false]
    let master : Bool := (ptpRole d == 1 || ptpRole d == 2) && portUp d n && ptpState d n == 2
    let peer : Bool := ptpRole d != 0 && portUp d n && ptpState d n != 0 && isP2p d n
    (master = true → Gives (.syncIntervalExpiry p t) s
      (forEach all (fun u e => ptpOut n 0 (ptpMake d n u x.syncSeq 0 0 (isTwoStep d n) 0 0) 0 e) (setPort n { x with syncSeq := (x.syncSeq + 1) % 65536 } d))) ∧
    (master = false → Gives (.syncIntervalExpiry p t) s d) ∧
    (peer = true → Gives (.pdelayIntervalExpiry p t) s
      (forEach all (fun u e => ptpOut n 2 (ptpMake d n u ((x.pSeq + 1) % 65536) 0 0 false 0 0) 0 e)
        (setPort n { x with pSeq := (x.pSeq + 1) % 65536, pT1 := [], pWait := none } d))) ∧
    (peer = false → Gives (.pdelayIntervalExpiry p t) s d)) ∧
  (∀ (p : Fin 3) (t : Nat) (s : State), awake s.dev = false →
    Gives (.syncIntervalExpiry p t) s (hostHears true s.dev) ∧ Gives (.pdelayIntervalExpiry p t) s (hostHears true s.dev)) ∧
  (∀ (d : Dev) (n : Nat) (u : Bool) (q ts rc rp : Nat) (c : Int) (two : Bool), let g := ptpMake d n u q ts c two rc rp
    g.domain = rf d NET_PTP_CFG NET_PTP_CFG_DOMAIN ∧ g.sdo = rf d NET_PTP_CFG NET_PTP_CFG_MAJOR_SDO ∧ g.port = n + 1 ∧
    g.clock = (ownMac d / 16777216 * 65536 + 0xFFFE) * 16777216 + ownMac d % 16777216) ∧
  (∀ (n k : Nat) (g : PtpMsg) (b : Int) (d : Dev),
    (portUp d n = false → ptpOut n k g b d = d) ∧
    (portUp d n = true → gateOpen d n 6 (.ptp k g b) = false → (getPort d n).queue = [] →
      (getPort (ptpOut n k g b d) n).queue = [(6, .ptp k g b)] ∧ (ptpOut n k g b d).out = d.out) ∧
    let w := (draw d).1.toNat
    let d1 := (draw d).2
    let tx : Nat := (tbNs d + w) * 65536 + (rd d (NET_PORT_DLY_TX n)).toNat
    let then_ (k : Nat) : Dev := let e := emit (.ptp n (if k = 8 then 0 else 3) g) d1
      setPort n { getPort d1 n with queue := (getPort d1 n).queue ++ [(6, .ptp k { g with twoStep := false, ts := tx / 65536, corr := b + (tx % 65536 : Nat) } 0)] } e
    (g.twoStep = false →
      itemLeave n (.ptp 0 g b) d = emit (.ptp n 0 { g with ts := tx / 65536, corr := b + (tx % 65536 : Nat) }) d1 ∧
      itemLeave n (.ptp 3 g b) d = emit (.ptp n 3 { g with corr := b + tx }) d1) ∧
    (g.twoStep = true → itemLeave n (.ptp 0 g b) d = then_ 8 ∧ itemLeave n (.ptp 3 g b) d = then_ 10) ∧
    itemLeave n (.ptp 1 g b) d = emit (.ptp n 1 g) (setPort n { getPort d1 n with t3 := some (tx : Int) } d1) ∧
    pdelayT1 (itemLeave n (.ptp 2 g b) d) n g.udp = some (tx : Int) ∧
    (k ≠ 0 → k ≠ 1 → k ≠ 2 → k ≠ 3 → itemLeave n (.ptp k g b) d = emit (.ptp n k g) d1))

/-- R81, R177..R179: a pulse of a RUNNING output in the time domain rises at its edge and falls WIDTH later, an edge that finds it high is MISSED, a single
pulse is then DONE; a level at a capture pin that its filter passes is stored where its edge is selected and the capture runs, or counts in OVERFLOW
behind 8 entries; the read of TS_HI removes the oldest. -/
def Obligations.PulsesAndCapturesKeepTheirInstants : Prop :=
  (∀ (k : Fin 4) (s : State), awake s.dev = true →
    let d := hostHears true s.dev
    let x := getPulse d k.val
    (∀ q j, x.sched = some q → q.next = some j → q.web = false → fnIs d (fnPulse k.val) .running = true →
      Gives (.tbPulseEdge k) s (pulseEdge k.val (clockTo ((q.start + (j : Int) * q.period) * nsUnits).toNat d))) ∧
    ((x.sched = none ∨ (∃ q, x.sched = some q ∧ (q.next = none ∨ q.web = true)) ∨ fnIs d (fnPulse k.val) .running = false) →
      Gives (.tbPulseEdge k) s d) ∧
    (x.high = false → Gives (.tbPulseEnd k) s d) ∧
    (x.high = true → let e := setPulse k.val { x with high := false } (clockTo x.fallAt d)
      Gives (.tbPulseEnd k) s (if fnIs e (fnPulse k.val) .stopping then stopDone (fnPulse k.val) e else e))) ∧
  (∀ (k : Nat) (q : PulseSched) (j : Nat) (e : Dev), (getPulse e k).sched = some q → q.next = some j →
    let x := getPulse (pulseEdge k e) k
    x.high = true ∧ x.sched = some { q with next := if q.periodic then some (j + 1) else none } ∧
    (q.periodic = false → rb (pulseEdge k e) (TB_PULSE_STAT k) TB_PULSE_STAT_DONE = true) ∧
    ((getPulse e k).high = false → x.fallAt = edgeAt e (e.tb + q.width * nsUnits)) ∧
    ((getPulse e k).high = true → x.fallAt = (getPulse e k).fallAt ∧
      rf (pulseEdge k e) (TB_PULSE_STAT k) TB_PULSE_STAT_MISSED = min 65535 (rf e (TB_PULSE_STAT k) TB_PULSE_STAT_MISSED + 1))) ∧
  (∀ (k : Fin 4) (rise : Bool) (t hold : Nat) (s : State), awake s.dev = true →
    let n := 252 + k.val
    let e := clockToNs t (hostHears true s.dev)
    let filt := rf e (MFP_PIN n) MFP_PIN_FILT * effAddend e
    let f := padDriven n (some rise) e.tb e
    let l := rise != rb e (MFP_PIN n) MFP_PIN_INV
    let g := clockTo (f.tb + pinFilt f n + 2 * effAddend f) f
    let ts := (g.tb - (8 + 4 * rf g (MFP_PIN n) MFP_PIN_FILT) * nsUnits) / nsUnits
    let stored := setCap k.val (getCap g k.val ++ [⟨ts, l⟩]) g
    (hold * nsUnits < filt → Gives (.captureEdge k rise ⟨t, hold⟩) s e) ∧
    (filt ≤ hold * nsUnits → pinConn e n ≠ some (.cap k.val) → Gives (.captureEdge k rise ⟨t, hold⟩) s f) ∧
    (filt ≤ hold * nsUnits → pinConn e n = some (.cap k.val) → Gives (.captureEdge k rise ⟨t, hold⟩) s
      (if fnIs g (fnCap k.val) .running = false ∨ rb g (TB_CAP_CTRL k.val) (if l then TB_CAP_CTRL_RISE else TB_CAP_CTRL_FALL) = false then g
       else if 8 ≤ (getCap g k.val).length then
         wf (TB_CAP_STAT k.val) TB_CAP_STAT_OVERFLOW (min 65535 (rf g (TB_CAP_STAT k.val) TB_CAP_STAT_OVERFLOW + 1)) g
       else if rb g (TB_CAP_CTRL k.val) TB_CAP_CTRL_OPERAND then postOperand (0x830 + k.val) (BitVec.ofNat 32 ts) stored else stored))) ∧
  (∀ (k : Fin 4) (rise : Bool) (t hold : Nat) (s : State), awake s.dev = false → let d := hostHears true s.dev
    Gives (.tbPulseEdge k) s d ∧ Gives (.tbPulseEnd k) s d ∧ Gives (.captureEdge k rise ⟨t, hold⟩) s d) ∧
  (∀ (m : Master) (k : Fin 4) (s : State),
    (masterActs m s.dev = true → let e := reached m (TB_CAP_TS_HI k.val) true s
      Gives (.tsHiRead m k) s (emit (.read m (TB_CAP_TS_HI k.val) (readFor m e (TB_CAP_TS_HI k.val))) (setCap k.val ((getCap e k.val).drop 1) e))) ∧
    (masterActs m s.dev = false → Gives (.tsHiRead m k) s (hostHears true s.dev)))

/-! ### The switch and the Celivo line (spec/05) -/

/-- R180..R183, R187: a port that is down hears nothing; a good frame's unicast source is learnt; a frame goes to the ports that its address names, in its
class, but a blocked port and the PTP engine keep theirs; a bad frame leaves in cut-through alone, and a transparent clock adds each copy's residence
time, a free value (log entry 21), as it leaves; learnt addresses go after 300 s; at a gate change frames whose gate is open leave; a link that goes down
takes its queue and its addresses along (PRESUMED, log entry 51). -/
def Obligations.FramesAreSwitchedByAddressClassAndGate : Prop :=
  (∀ (p : Fin 3) (f : EthFrame) (t : Nat) (s : State), awake s.dev = true →
    let n := p.val
    let d0 := hostHears true s.dev
    let d := clockToNs t d0
    let l := if f.fcsOk then learn f.src n d else d
    let stamp := if rf l NET_PTP_CFG NET_PTP_CFG_ROLE = 3 then some n else none
    (portUp d n = false → Gives (.frameIngress p f t) s d) ∧
    (portUp d n = true → (portBlocked l n = true ∨ ptpEnds l n f = true) → Gives (.frameIngress p f t) s l) ∧
    (portUp d n = true → portBlocked l n = false → ptpEnds l n f = false → Gives (.frameIngress p f t) s
      (forEach (egressPorts l (some n) f.dst) (fun q e =>
        if (f.fcsOk = true ∨ portCut e q = true) ∧ portUp e q = true ∧ portBlocked e q = false then
          queueItem q (frameClass l f) (.frame f (portCut e q) stamp) e
        else e) l)) ∧
    (s.dev.net.fdb = [] → Gives .macAgeing s d0) ∧
    (∀ e ∈ s.dev.net.fdb, (∀ x ∈ s.dev.net.fdb, e.2.2 ≤ x.2.2) → let d1 := clockToNs (e.2.2 + 300000000000) d0
      Gives .macAgeing s { d1 with net := { d1.net with fdb := d1.net.fdb.filter (fun x => decide (tbNs d1 < x.2.2 + 300000000000)) } }) ∧
    ((gateNow d0 n).en = false → Gives (.gateEntryChange p) s d0) ∧
    ((gateNow d0 n).en = true → d0.tb < gateNext d0 n ∧ Gives (.gateEntryChange p) s (egressAll n (clockTo (gateNext d0 n) d0))) ∧
    Gives (.portLinkChange p true t) s (egressAll n (wf (NET_PORT_CFG n) NET_PORT_CFG_LINK 1 d)) ∧
    (∃ e, Gives (.portLinkChange p false t) s e ∧ rb e (NET_PORT_CFG n) NET_PORT_CFG_LINK = false ∧ (getPort e n).queue = [] ∧
      e.net.fdb = d.net.fdb.filter (fun x => x.2.1 != n) ∧ (∀ q, q ≠ n → getPort e q = getPort d q) ∧ (∀ j, j ≠ NET_PORT_CFG n → rd e j = rd d j))) ∧
  (∀ (p : Fin 3) (f : EthFrame) (t : Nat) (up : Bool) (s : State), awake s.dev = false → let d := hostHears true s.dev
    Gives (.frameIngress p f t) s d ∧ Gives .macAgeing s d ∧ Gives (.gateEntryChange p) s d ∧ Gives (.portLinkChange p up t) s d) ∧
  (∀ (n : Nat) (mac : Nat) (d : Dev),
    (mac / 1099511627776 % 2 = 1 → learn mac n d = d) ∧
    (mac / 1099511627776 % 2 = 0 → (d.net.fdb.filter (fun e => e.1 != mac)).length < 1024 → learntPort (learn mac n d) mac = some n) ∧
    (mac / 1099511627776 % 2 = 0 → 1024 ≤ (d.net.fdb.filter (fun e => e.1 != mac)).length → learn mac n d = d) ∧
    (∀ x, x ≠ mac → learntPort (learn mac n d) x = learntPort d x)) ∧
  (∀ (n dst : Nat) (d : Dev), let others := (List.range 3).filter (fun q => some q != some n)
    egressPorts d (some n) celivoGroup = others.filter (portLine d) ∧
    (∀ q, dst ≠ celivoGroup → dst ≠ ownMac d → learntPort d dst = some q → egressPorts d (some n) dst = if q = n then [] else [q]) ∧
    (dst ≠ celivoGroup → dst = ownMac d → egressPorts d (some n) dst = []) ∧
    (dst ≠ celivoGroup → dst ≠ ownMac d → learntPort d dst = none → egressPorts d (some n) dst = others)) ∧
  (∀ (f : EthFrame) (d : Dev), frameClass d f =
    if f.etype = rf d NET_CELIVO_CFG NET_CELIVO_CFG_ETYPE then rf d NET_CELIVO_CFG NET_CELIVO_CFG_TC
    else if (ptpStart d f).isSome then 6
    else match f.tag with
      | some tci => tci / 8192 % 8
      | none => 0) ∧
  (∀ (n c : Nat) (x : NetItem) (d : Dev), gateOpen d n c x = false → (getPort d n).queue = [] →
    (getPort (queueItem n c x d) n).queue = [(c, x)] ∧ (queueItem n c x d).out = d.out) ∧
  (∀ (n c : Nat) (f : EthFrame) (cut : Bool) (d : Dev), c < 8 → gateOpen d n c (.frame f cut none) = true → (getPort d n).queue = [] →
    (queueItem n c (.frame f cut none) d).out = .ethFrame n f :: d.out)

/-- R189, R190, R193: the steps that every Celivo frame passes, in their order: format, own DEV_ID, and, for the classes that carry state, the epoch. -/
def Obligations.CelivoFramesAreAcceptedStepByStep : Prop :=
  (∀ (f : CelFrame) (d : Dev), formatOk d f = true ↔
    f.fcsOk = true ∧ f.etype = rf d NET_CELIVO_CFG NET_CELIVO_CFG_ETYPE ∧ f.version = 1 ∧ 1 ≤ f.cls ∧ f.cls ≤ 8 ∧ f.len ≤ f.payload.length ∧
    (f.cls = 1 → 48 ≤ f.len) ∧ (f.cls = 2 → 16 + 6 * pay (celPayload f) 12 1 ≤ f.len) ∧ (f.cls = 3 → 28 + pay (celPayload f) 24 2 ≤ f.len) ∧
    (f.cls = 4 → 32 ≤ f.len) ∧ (f.cls = 5 → 32 ≤ f.len) ∧ (f.cls = 6 → 16 ≤ f.len) ∧ (f.cls = 7 → 12 + 16 * pay (celPayload f) 2 2 ≤ f.len) ∧
    (f.cls = 8 → 8 ≤ f.len)) ∧
  ∀ (f : CelFrame) (d : Dev),
    let id := f.srcId % 4096
    let mine := id = devId d ∧ f.flags % 2 = 0
    let free := f.cls = 3 ∨ f.cls = 6 ∨ f.cls = 7 ∨ f.cls = 8
    let offered := d.cel.offers.any (fun o => o.joiner == id && o.newEpoch == f.epoch && tickAfter f.tickLo o.joinAt)
    (celOn d = false → celPre f d = (d, false)) ∧
    (celOn d = true → formatOk d f = false → celPre f d = (bump NET_CELIVO_ERR NET_CELIVO_ERR_FORMAT d, false)) ∧
    (celOn d = true → formatOk d f = true → mine → celPre f d = (wf NET_CELIVO_CTRL NET_CELIVO_CTRL_DUP_ID 1 d, false)) ∧
    (celOn d = true → formatOk d f = true → ¬ mine → free → celPre f d = (d, true)) ∧
    (celOn d = true → formatOk d f = true → ¬ mine → ¬ free → smGet d.cel.epochs id = some f.epoch → celPre f d = (d, true)) ∧
    (celOn d = true → formatOk d f = true → ¬ mine → ¬ free → smGet d.cel.epochs id = none → celPre f d = (recordEpoch id f.epoch d, true)) ∧
    (∀ e, celOn d = true → formatOk d f = true → ¬ mine → ¬ free → smGet d.cel.epochs id = some e → e ≠ f.epoch → offered = true →
      celPre f d = (recordEpoch id f.epoch d, true)) ∧
    (∀ e, celOn d = true → formatOk d f = true → ¬ mine → ¬ free → smGet d.cel.epochs id = some e → e ≠ f.epoch → offered = false →
      celPre f d = (bump NET_CELIVO_ERR NET_CELIVO_ERR_UNJOINED d, false)) ∧
    smGet (recordEpoch id f.epoch d).cel.epochs id = some f.epoch

/-- R192..R194, R197..R200, R203, R204, R206, R207: what an accepted Celivo frame does, by its class; one that is not accepted does nothing more. A SETPOINT,
and a frame whose CLASS no row has, comes with any of these commands. -/
def Obligations.CelivoFramesTakeEffectByClass : Prop :=
  (∀ (f : CelFrame) (t : Nat) (s : State), awake s.dev = false → let d := hostHears true s.dev
    Gives (.masterPos f t) s d ∧ Gives (.lineState f t) s d ∧ Gives (.stopReq f t) s d ∧ Gives (.release f t) s d ∧ Gives (.driveStatus f t) s d ∧
    Gives (.joinReq f t) s d ∧ Gives (.joinOffer f t) s d ∧ Gives (.joinAck f t) s d) ∧
  (∀ (f : CelFrame) (d : Dev), let p := celPayload f
    let pre := (celPre f d).1
    let key := driveKey 4 f.srcId (pay p 0 1)
    let x : DrvStream := { epoch := f.epoch, seq := pay p 4 4, validAt := pay p 8 8, state := 0, echo := 0, pos := sext 64 (pay p 16 8),
                           vel := BitVec.ofNat 32 (pay p 24 4), trq := BitVec.ofNat 32 (pay p 28 4) }
    let took := modCel (fun c => { c with drives := smPut c.drives key x }) pre
    ((celPre f d).2 = false → celSetpoint f d = pre) ∧
    ((celPre f d).2 = true → smGet pre.cel.drives key = none → celSetpoint f d = took) ∧
    (∀ l, (celPre f d).2 = true → smGet pre.cel.drives key = some l → pay p 8 8 ≤ l.validAt →
      celSetpoint f d = bump NET_CELIVO_ERR NET_CELIVO_ERR_OLD pre) ∧
    (∀ l, (celPre f d).2 = true → smGet pre.cel.drives key = some l → l.validAt < pay p 8 8 → celSetpoint f d =
      bumpBy NET_CELIVO_ERR NET_CELIVO_ERR_LOSS (if l.epoch = f.epoch then (pay p 4 4 + 8589934591 - l.seq) % 4294967296 else 0) took)) ∧
  ∀ (f : CelFrame) (t : Nat) (s : State), awake s.dev = true →
    let d := clockToNs t (hostHears true s.dev)
    let pre : Dev := (celPre f d).1
    let ok : Prop := (celPre f d).2 = true
    let p := celPayload f
    let src := f.srcId % 4096
    let r := parseStop f
    let mp : MpStream := { src := src, epoch := f.epoch, seq := pay p 4 4, validAt := pay p 8 8, pos := sext 64 (pay p 16 8), vel := sext 64 (pay p 24 8),
                           acc := sext 64 (pay p 32 8), still := pay p 1 1 % 2 == 1, rev := pay p 1 1 / 2 % 2 == 1 }
    let took (gap : Nat) : Dev :=
      let e := bumpBy NET_CELIVO_ERR NET_CELIVO_ERR_LOSS gap (modCel (fun c => { c with streams := smPut c.streams (pay p 2 2) mp }) pre)
      forEach (subsOf e (pay p 2 2)) (fun k => subTake k src gap mp.seq mp) e
    let present := (watchesOf pre src).any (fun w => watchState pre w == 1)
    let sponsors := (watchesOf pre src).any (fun w => rb pre (NET_WATCH w) NET_WATCH_SPONSOR)
    let stat : DrvStream := { epoch := f.epoch, seq := f.seq, validAt := pay p 8 8, state := pay p 1 1, echo := pay p 4 4, pos := sext 64 (pay p 16 8),
                              vel := BitVec.ofNat 32 (pay p 24 4), trq := BitVec.ofNat 32 (pay p 28 4) }
    let shown (gap : Nat) : Dev :=
      bumpBy NET_CELIVO_ERR NET_CELIVO_ERR_LOSS gap (modCel (fun c => { c with drives := smPut c.drives (driveKey 5 src (pay p 0 1)) stat }) pre)
    let drove (gap : Nat) : Prop := (src ≠ devId pre → Gives (.driveStatus f t) s (shown gap)) ∧
      (src = devId pre → ∃ e, Gives (.driveStatus f t) s e ∧ e.cel.drives = (shown gap).cel.drives ∧ ∀ i, i < 64 →
        let named := sptEn pre i = true ∧ sptDrive pre i = pay p 0 1 % 64
        let ahead := ∀ x, (getSpt pre i).lastEcho = some x → pay p 4 4 ≠ x ∧ tickAfter (pay p 4 4) x = true
        (named → rf e (NET_SPT_STAT i) NET_SPT_STAT_STATE = pay p 1 1 % 8) ∧
        (named → ahead → getSpt e i = { getSpt pre i with lastEcho := some (pay p 4 4), lag := 0 }) ∧
        (¬ (named ∧ ahead) → getSpt e i = getSpt pre i))
    let other : Dev := if f.cls = 4 then celSetpoint f d else pre
    let give (c : Instr) (k : Nat) (q : Prop) (e : Dev) : Prop := f.cls = k → ok → q → Gives c s e
    (f.cls ≠ 1 → Gives (.masterPos f t) s other) ∧ (f.cls ≠ 2 → Gives (.lineState f t) s other) ∧ (f.cls ≠ 3 → Gives (.stopReq f t) s other) ∧
    (f.cls ≠ 3 → Gives (.release f t) s other) ∧ (f.cls ≠ 5 → Gives (.driveStatus f t) s other) ∧ (f.cls ≠ 6 → Gives (.joinReq f t) s other) ∧
    (f.cls ≠ 7 → Gives (.joinOffer f t) s other) ∧ (f.cls ≠ 8 → Gives (.joinAck f t) s other) ∧
    (¬ ok → (f.cls = 1 → Gives (.masterPos f t) s pre) ∧ (f.cls = 2 → Gives (.lineState f t) s pre) ∧ (f.cls = 3 → Gives (.stopReq f t) s pre) ∧
      (f.cls = 3 → Gives (.release f t) s pre) ∧ (f.cls = 5 → Gives (.driveStatus f t) s pre) ∧ (f.cls = 6 → Gives (.joinReq f t) s pre) ∧
      (f.cls = 7 → Gives (.joinOffer f t) s pre) ∧ (f.cls = 8 → Gives (.joinAck f t) s pre)) ∧
    give (.masterPos f t) 1 (smGet pre.cel.streams (pay p 2 2) = none) (took 0) ∧
    (∀ l, smGet pre.cel.streams (pay p 2 2) = some l →
      give (.masterPos f t) 1 (pay p 8 8 ≤ l.validAt) (bump NET_CELIVO_ERR NET_CELIVO_ERR_OLD pre) ∧
      give (.masterPos f t) 1 (l.validAt < pay p 8 8)
        (took (if l.src = src ∧ l.epoch = f.epoch then (pay p 4 4 + 8589934591 - l.seq) % 4294967296 else 0))) ∧
    give (.lineState f t) 2 True (forEach (watchesOf pre src) (fun w d =>
      setWatch (if pay p 0 1 = 255 then 0 else 1) w (putWatch w
        { lastTick := tickNum d, heard := true, ovf := pay p 2 1 / 8 % 2 == 1,
          list := (List.range (pay p 12 1)).map (fun i => (pay p (16 + 6 * i) 2, pay p (18 + 6 * i) 1, pay p (20 + 6 * i) 2)) } d)) pre) ∧
    give (.stopReq f t) 3 True (safRemote src f.epoch p (if r.kind = 1 ∨ r.kind = 2 then stopAccept r pre else pre)) ∧
    (
      let lifts := r.kind = 0x80 ∧ smGet pre.cel.epochs src = some f.epoch ∧ (r.origin ≠ 1 ∨ leNat ((r.safe.drop 3).take 1) = 0x80)
      give (.release f t) 3 lifts (safRemote src f.epoch p (modCel (fun c => { c with pend := c.pend ++ [(.lift src f.epoch r.req r.origin, pre.tb)] }) pre)) ∧
      give (.release f t) 3 (¬ lifts) (safRemote src f.epoch p pre)) ∧
    (f.cls = 5 → ok → smGet pre.cel.drives (driveKey 5 src (pay p 0 1)) = none → drove 0) ∧
    (∀ l, smGet pre.cel.drives (driveKey 5 src (pay p 0 1)) = some l →
      give (.driveStatus f t) 5 (pay p 8 8 ≤ l.validAt) (bump NET_CELIVO_ERR NET_CELIVO_ERR_OLD pre) ∧
      (f.cls = 5 → ok → l.validAt < pay p 8 8 → drove (if l.epoch = f.epoch then (f.seq + 131071 - l.seq % 65536) % 65536 else 0))) ∧
    give (.joinReq f t) 6 True (if jstate pre = 4 ∧ sponsors = true then
      modCel (fun c => { c with todo := c.todo ++ [.answer src (pay p 4 1) (if present then 1 else 0)] }) pre else pre) ∧
    (
      let o : Offer := { sponsor := src, joiner := pay p 8 2 % 4096, newEpoch := pay p 1 1, joinAt := pay p 4 4, mac := f.mac }
      let mine := o.joiner = devId pre ∧ jstate pre = 2
      let noted := forEach (watchesOf pre o.joiner) (fun w d => if watchState d w = 1 then d else setWatch 3 w d)
        (modCel (fun c => { c with offers := c.offers ++ [o] }) pre)
      let same (x : Offer) : Bool := x.sponsor == o.sponsor && x.joiner == o.joiner && x.newEpoch == o.newEpoch
      let gone := offerGone o.joiner (modCel (fun c => { c with offers := c.offers.filter (fun x => !same x) }) pre)
      give (.joinOffer f t) 7 (pay p 0 1 = 0) (if mine then
        forEach (offerStops p) stopWait (setJstate 3 (modCel (fun c => { c with taken := some o, todo := c.todo ++ [.ack] }) noted)) else noted) ∧
      give (.joinOffer f t) 7 (pay p 0 1 = 1) (if mine then setJstate 6 pre else pre) ∧
      give (.joinOffer f t) 7 (pay p 0 1 = 3) (match pre.cel.taken with
        | some x => if same x && jstate pre == 3 then setJstate 2 (modCel (fun c => { c with taken := none }) gone) else gone
        | none => gone) ∧
      give (.joinOffer f t) 7 (pay p 0 1 ≠ 0 ∧ pay p 0 1 ≠ 1 ∧ pay p 0 1 ≠ 3) pre) ∧
    give (.joinAck f t) 8 True (modCel (fun c => { c with made := c.made.map (fun x =>
      if x.joiner = src ∧ x.joinAt = pay p 0 4 ∧ x.newEpoch = pay p 4 1 then { x with acked := true } else x) }) pre)

/-- R197..R200: ISSUE forms a request with the device's own identity and the next REQ_ID, RELEASE_OWN and FORCE_RELEASE_ALL lift; a request acts once,
at the first COMMIT instant 500 ns after its acceptance, in one of 16 places or in the overflow stop; the issuer repeats it. R203, R204: a lost drive
and a lost station are declared. -/
def Obligations.StopRequestsAreIssuedPutInForceAndLifted : Prop :=
  (∀ (m : Master) (v : Word) (s : State),
    Takes (.issue m v) m NET_STOP_CTRL (fset v NET_STOP_CTRL_CMD 1) true s (fun d =>
      let k := fget v NET_STOP_CTRL_KIND
      let scope := fget v NET_STOP_CTRL_SCOPE
      let target := fget v NET_STOP_CTRL_TARGET
      let r : StopReq := { src := devId d, epoch := ownEpoch d, req := d.cel.nextReq, kind := k, scope := scope,
                           target := if scope = 0 then 0 else if scope = 1 then target / 1024 * 1024 else if scope = 2 then target / 16 * 16 else target,
                           origin := 0, reason := fget v NET_STOP_CTRL_REASON, issuedAt := tbNs d, decel := rd64 d NET_STOP_DECEL_LO NET_STOP_DECEL_HI }
      if k = 1 ∨ k = 2 then
        stopAccept r (modCel (fun c => { c with issued := c.issued ++ [{ r := r }], nextReq := if c.nextReq = 65535 then 1 else c.nextReq + 1 }) d)
      else d) ∧
    Takes (.releaseOwn m v) m NET_STOP_CTRL (fset v NET_STOP_CTRL_CMD 2) true s (fun d =>
      match d.cel.issued.reverse.find? (fun i => i.r.origin == 0) with
      | some i => stopRelease i.r.epoch i.r.req [] d
      | none => d) ∧
    Takes (.forceReleaseAll m v) m NET_STOP_CTRL (fset v NET_STOP_CTRL_CMD 3) true s
      (fun d => modCel (fun c => { c with pend := c.pend ++ [(.forceAll, d.tb)] }) d)) ∧
  (∀ (epoch req : Nat) (safe : List Byte) (d : Dev),
    let this (i : Issued) : Bool := i.r.epoch == epoch && i.r.req == req
    ((∀ i ∈ d.cel.issued, this i = true → i.stands = false) → stopRelease epoch req safe d = d) ∧
    (∀ i, d.cel.issued.find? (fun i => this i && i.stands) = some i → stopRelease epoch req safe d = modCel (fun c => { c with
      issued := c.issued.map (fun x => if this x then { x with r := { x.r with safe := safe, issuedAt := tbNs d }, release := true, stands := false, sends := 0 } else x)
      pend := c.pend ++ [(.lift i.r.src epoch req i.r.origin, d.tb)] }) d)) ∧
  (∀ (r : StopReq) (d : Dev), let e := stopAccept r d
    let waits := ∃ q t, (StopEvt.put q, t) ∈ d.cel.pend ∧ stopKey q = stopKey r
    let hits := r.scope = 0 ∨ (r.scope = 1 ∧ ownHier d / 1024 = r.target / 1024) ∨ (r.scope = 2 ∧ ownHier d / 16 = r.target / 16) ∨
      (r.scope = 3 ∧ ownHier d = r.target)
    (¬ hits → e = d) ∧ (stopKey r ∈ d.cel.seen → e = d) ∧ (waits → e = d) ∧
    (hits → stopKey r ∉ d.cel.seen → ¬ waits → e = modCel (fun c => { c with pend := c.pend ++ [(.put r, d.tb)] }) d)) ∧
  (∀ (r : StopReq) (d : Dev), let e := stopAct (.put r) d
    (stopKey r ∈ d.cel.seen → e = d) ∧
    (stopKey r ∉ d.cel.seen → d.cel.stops.length < 16 → e.cel.stops = d.cel.stops ++ [r] ∧ e.cel.ackSrc = r.src ∧ e.cel.ackReq = r.req ∧
      e.cel.ovf = d.cel.ovf) ∧
    (stopKey r ∉ d.cel.seen → 16 ≤ d.cel.stops.length → e.cel.stops = d.cel.stops ∧
      e.cel.ovf = some (max (d.cel.ovf.getD (0, false)).1 r.kind, (d.cel.ovf.getD (0, false)).2 || r.origin == 1)) ∧
    stopKey r ∈ e.cel.seen ∧ (∀ k ∈ d.cel.seen, k ∈ e.cel.seen)) ∧
  (∀ (a b q o : Nat) (r : StopReq) (d : Dev), r ∈ (stopAct (.lift a b q o) d).cel.stops ↔
    r ∈ d.cel.stops ∧ ¬ (stopKey r = (a, b, q) ∧ (r.origin = 0 ∨ o = 1))) ∧
  (∀ (a b q o : Nat) (d : Dev), (stopAct (.lift a b q o) d).cel.ovf = d.cel.ovf) ∧
  (∀ (r : StopReq) (d : Dev), let e := stopAct .forceAll d
    (r ∈ e.cel.stops ↔ r ∈ d.cel.stops ∧ r.origin = 1) ∧ (∀ k, d.cel.ovf = some (k, true) → e.cel.ovf = some (k, true)) ∧
    ((∀ k, d.cel.ovf ≠ some (k, true)) → e.cel.ovf = none)) ∧
  (∀ d : Dev, let due := d.cel.pend.filter (fun e => decide (e.2 + 500 * nsUnits ≤ d.tb))
    let e := forEach due (fun x d => stopAct x.1 d) (modCel (fun c => { c with pend := c.pend.filter (fun e => decide (d.tb < e.2 + 500 * nsUnits)) }) d)
    (due = [] → celStops d = d) ∧
    (due ≠ [] → celStops d = if stopInForce d && !stopInForce e then barsLifted e else e)) ∧
  (∀ s : State, let d := hostHears true s.dev
    (∀ q : Nat, awake s.dev = true → Gives (.stopReqRepeat q) s
      (forEach (s.dev.cel.issued.filter (fun i => i.r.req == q)) (fun i e => let n := tickNum e
        if i.sends ≠ 0 ∧ n ≠ i.last ∧ (i.sends < 8 ∨ stopAcked e i = false ∨ (i.release = false ∧ i.last + 64 ≤ n)) ∧ jstate e ≠ 6 then
          celForm n 3 none (stopPayload i.r i.release) (modCel (fun c => { c with
            issued := c.issued.map (fun x => if stopKey x.r = stopKey i.r then { x with sends := x.sends + 1, last := n } else x) }) e)
        else e) d)) ∧
    (∀ i : Fin 64, awake s.dev = true → Gives (.driveLost i) s
      (if sptEn d i.val ∧ rb d (NET_SPT_STAT i.val) NET_SPT_STAT_LOST = false ∧
          (sptLimit d i.val ≤ (getSpt d i.val).lag ∨ sptLimit d i.val ≤ (getSpt d i.val).staleTicks) then
        mpgDriveLost i.val (wf (NET_SPT_STAT i.val) NET_SPT_STAT_LOST_EVT 1 (wf (NET_SPT_STAT i.val) NET_SPT_STAT_LOST 1 d)) else d)) ∧
    (∀ w : Fin 64, awake s.dev = true → Gives (.stationLost w) s
      (if watchState d w.val = 1 ∧ (getWatch d w.val).lastTick + max 1 (rf d NET_CELIVO_CFG2 NET_CELIVO_CFG2_DROP_TICKS) ≤ tickNum d then
        Machine.trigger 0x11 0x0A [rf d (NET_WATCH w.val) NET_WATCH_DEV_ID] (setWatch 2 w.val d) else d)) ∧
    (∀ (q : Nat) (i : Fin 64), awake s.dev = false → Gives (.stopReqRepeat q) s d ∧ Gives (.driveLost i) s d ∧ Gives (.stationLost i) s d))

/-- R197, R204..R207: how a device joins the line and leaves it: JOIN and AUTOJOIN listen while LOCKED, a request is repeated up to four times, the offer's
JOIN_AT makes it JOINED with a new epoch, in which REQ_ID counts afresh; FORCE_JOIN, at the next tick, needs no offer; LEAVE ends it; a sponsor
withdraws an offer that was not acknowledged. -/
def Obligations.StationsJoinAndLeaveTheLine : Prop :=
  let may (d : Dev) : Bool := celOn d && rb d TB_STAT TB_STAT_LOCKED && (jstate d == 0 || jstate d == 5 || jstate d == 6)
  let listens (d : Dev) := setJstate 1 (modCel (fun c => { c with attempt := 0, taken := none }) d)
  (∀ (m : Master) (v : Word) (s : State),
    Takes (.join m v) m NET_CELIVO_CTRL (fset v NET_CELIVO_CTRL_CMD 1) true s
      (fun d => let e := fieldsTaken NET_CELIVO_CTRL (fset v NET_CELIVO_CTRL_CMD 1) d
        if may e then listens e else e) ∧
    Takes (.forceJoin m v) m NET_CELIVO_CTRL (fset v NET_CELIVO_CTRL_CMD 2) true s
      (fun d => let e := fieldsTaken NET_CELIVO_CTRL (fset v NET_CELIVO_CTRL_CMD 2) d
        if celOn e && jstate e != 4 then modCel (fun c => { c with forceJoin := true }) e else e) ∧
    Takes (.leave m v) m NET_CELIVO_CTRL (fset v NET_CELIVO_CTRL_CMD 3) true s
      (fun d => let e := fieldsTaken NET_CELIVO_CTRL (fset v NET_CELIVO_CTRL_CMD 3) d
        setJstate 0 (modCel (fun c => { c with leaving := c.leaving || jstate e == 4, forceJoin := false, taken := none, todo := [], made := [] }) e))) ∧
  (∀ d : Dev, let e := celJoined d
    jstate e = 4 ∧ e.cel.joins = d.cel.joins + 1 ∧ e.cel.nextReq = 1 ∧ e.cel.joinedNow = true ∧ e.cel.forceJoin = false ∧ e.cel.taken = none ∧
    ownEpoch e = (d.pwr.pcyc + d.cel.joins + 1) % 256 ∧ (∀ j, j ≠ NET_CELIVO_CTRL → rd e j = rd d j) ∧
    (d.cel.forceJoin = true → celTick d = celSend e) ∧ (d.cel.forceJoin = false → celTick d = celSend d)) ∧
  ∀ (s : State) (j : Nat),
    let d := hostHears true s.dev
    let late (x : Made) : Bool := x.joiner == j && !x.acked && tickAfter (tickNum d) (x.joinAt + 4294967292)
    (awake s.dev = true → Gives .autojoin s
      (if rb d NET_CELIVO_CFG2 NET_CELIVO_CFG2_AUTOJOIN = true ∧ jstate d = 0 ∧ may d = true then listens d else d)) ∧
    (awake s.dev = true → Gives .joinReqTimeout s
      (if jstate d = 2 ∧ d.cel.reqTick + 16 ≤ tickNum d then setJstate (if d.cel.attempt < 4 then 1 else 5) d else d)) ∧
    (awake s.dev = true → (∀ x ∈ d.cel.made, late x = false) → Gives (.joinAckTimeout j) s d) ∧
    (∀ x, awake s.dev = true → d.cel.made.find? late = some x → Gives (.joinAckTimeout j) s (offerGone j (modCel (fun c => { c with
      made := c.made.filter (fun y => y != x)
      offers := c.offers.filter (fun y => !(y.sponsor == devId d && y.joiner == j && y.newEpoch == x.newEpoch))
      todo := c.todo ++ [.withdraw j x.newEpoch x.joinAt] }) d))) ∧
    (awake s.dev = true → d.cel.taken = none → Gives .joinAtReached s d) ∧
    (∀ o, awake s.dev = true → d.cel.taken = some o → Gives .joinAtReached s
      (if jstate d = 3 ∧ tickAfter (tickNum d) o.joinAt = true then celJoined d else d)) ∧
    (awake s.dev = false → Gives .autojoin s d ∧ Gives .joinReqTimeout s d ∧ Gives (.joinAckTimeout j) s d ∧ Gives .joinAtReached s d) ∧
    ((d.cel.offers.any (fun o => o.joiner == j)) = true → offerGone j d = d) ∧
    ((d.cel.offers.any (fun o => o.joiner == j)) = false → offerGone j d =
      forEach (watchesOf d j) (fun w d => if watchState d w = 3 then Machine.trigger 0x11 0x0A [rf d (NET_WATCH w) NET_WATCH_DEV_ID] (setWatch 2 w d) else d) d)

/-! ### Web phase unit, feedback, motion, drive outputs (spec/06..spec/09) -/

/-- R214, R220, R225, R232..R237, R241, R244: what the web phase unit's commands and events do: USE commands wait for the COMMIT instant and are judged
then; a source stands still when its time has come; a bar fires at its 125 ps step, holds, skips or is behind; its oldest pulse ends; APPLY captures an
update for every masked bar, CANCEL drops it. -/
def Obligations.TheWebPhaseUnitFiresItsBars : Prop :=
  (∀ (m : Master) (v : Word) (s : State),
    (∀ c : Fin 4, Takes (.useA m c) m (WPU_CH_CMD c.val) (fset 0 WPU_CH_CMD_CMD 1) true s
      (fun d => setChan c.val { getChan d c.val with use := some false } d)) ∧
    (∀ c : Fin 4, Takes (.useB m c) m (WPU_CH_CMD c.val) (fset 0 WPU_CH_CMD_CMD 2) true s
      (fun d => setChan c.val { getChan d c.val with use := some true } d)) ∧
    Takes (.apply m v) m WPU_UPD_CTRL (fset v WPU_UPD_CTRL_CMD 1) true s (fun d =>
      let e := fieldsTaken WPU_UPD_CTRL (fset v WPU_UPD_CTRL_CMD 1) d
      forEach (maskedBars e) (fun b d => barApply b (fget v WPU_UPD_CTRL_MODE == 1) (rdI64 d WPU_UPD_AT_LO WPU_UPD_AT_HI) d) e) ∧
    Takes (.cancel m v) m WPU_UPD_CTRL (fset v WPU_UPD_CTRL_CMD 2) true s (fun d =>
      let e := fieldsTaken WPU_UPD_CTRL (fset v WPU_UPD_CTRL_CMD 2) d
      forEach (maskedBars e) (fun b d => barShow b (setBar b { getBar d b with upd := none } d)) e)) ∧
  (∀ (c tb : Nat) (d : Dev), c < 4 →
    ((getChan d c).judge = none → judgeUse c tb d = d) ∧
    (∀ b, (getChan d c).judge = some b → let e := setChan c { getChan d c with judge := none } d
      ((b = actB e c ∨ srcValid e c b = false) → judgeUse c tb d = wf (WPU_CH_STAT c) WPU_CH_STAT_SW_REJ 1 e) ∧
      (b ≠ actB e c → srcValid e c b = true → judgeUse c tb d = sourceChange c b tb e ∧
        actB (sourceChange c b tb e) c = b ∧ rd (sourceChange c b tb e) (WPU_CH_EPOCH c) = rd d (WPU_CH_EPOCH c) + 1))) ∧
  (∀ (d : Dev) (c ns : Nat) (x : EncTrk),
    (encV { x with still := true } = 0) ∧
    (x.still = false → x.te + stillNs d c ≤ ns → x.inbox = [] → (encAt d c ns x).still = true ∧ (encAt d c ns x).acc = 0) ∧
    (x.still = false → ns < x.te + stillNs d c → x.inbox = [] → encAt d c ns x = x)) ∧
  (∀ (k n : Nat) (d : Dev),
    (∀ q j, (getPulse d k).sched = some q → q.next = some j → q.web = true → fnIs d (fnPulse k) .running = true → chanRuns d q.master = true →
      (q.start + (j : Int) * q.period) * nsUnits ≤ chanPos d q.master → pulseReached (n + 1) k d = pulseReached n k (pulseEdge k d)) ∧
    (∀ q j, (getPulse d k).sched = some q → q.next = some j → (q.web = false ∨ fnIs d (fnPulse k) .running = false ∨ chanRuns d q.master = false ∨
      chanPos d q.master < (q.start + (j : Int) * q.period) * nsUnits) → pulseReached (n + 1) k d = d)) ∧
  (∀ (s : State) (t : Nat), clocked s.dev = true → let d := hostHears true s.dev
    let e := clockToNs t d
    (∀ (c : Fin 4) (b : Bool), let x := if b then (getChan d c.val).encB else (getChan d c.val).encA
      (x.still = true ∨ srcKind d c.val b ≠ 1 → Gives (.encoderStandstill c b) s d) ∧
      (x.still = false → srcKind d c.val b = 1 → let f := clockToNs (x.te + stillNs d c.val) d
        Gives (.encoderStandstill c b) s (chanSync (tbNs f) c.val f))) ∧
    (∀ c : Fin 4, let f := forUpTo 4 (fun k d => if pulseFollows d k c.val then pulseReached 256 k d else d) e
      Gives (.positionEventReached c t) s (forEach (itemsAt c.val f) (fun i d => relPoint i false d) f)) ∧
    (∀ b : Fin 32,
      let n := b.val
      let x := getBar e n
      let p := (chanOut e (barChan e n) e.tb).1
      let w := (chanOut e (barChan e n) e.tb).2.1
      let tf := barTf x p w
      let step := ((max tf 0).toNat + 62) / 125
      let near := 0 < w ∧ x.x - p ≤ w * 2004 ∧ (tf < -4000 ∨ step < 32)
      let runs := fnIs e (fnBar n) .running = true ∧ chanRuns e (barChan e n) = true
      let holds := x.stopFire = true ∧ stopInForce e = true
      let close := ∃ l, x.lead = some l ∧ nowPs e + step * 125 < l + minGap x
      let pending := x.lastLate = true ∧ ∃ l, x.lead = some l ∧ nowPs e < l
      (¬ runs → Gives (.printBarFire b t) s e) ∧ (runs → ¬ near → Gives (.printBarFire b t) s e) ∧
      (runs → near → holds → Gives (.printBarFire b t) s (barNext n e)) ∧
      (runs → near → ¬ holds → pending → Gives (.printBarFire b t) s (barSkip n e)) ∧
      (runs → near → ¬ holds → ¬ pending → tf < -4000 → Gives (.printBarFire b t) s (barBehind n p w false e)) ∧
      (runs → near → ¬ holds → ¬ pending → ¬ tf < -4000 → close → Gives (.printBarFire b t) s (barBehind n p w true e)) ∧
      (runs → near → ¬ holds → ¬ pending → ¬ tf < -4000 → ¬ close →
        Gives (.printBarFire b t) s (barCommit n (nowPs e + step * 125) false e))) ∧
    (∀ b : Fin 32, (getBar d b.val).pulses = [] → Gives (.firePulseEnd b) s d) ∧
    (∀ (b : Fin 32) (q : Nat × Nat) (r : List (Nat × Nat)), (getBar d b.val).pulses = q :: r →
      let f := clockTo ((q.2 * nsUnits + 999) / 1000) d
      let g := setBar b.val { getBar f b.val with pulses := r } f
      Gives (.firePulseEnd b) s (if q.2 ≤ f.tb * 1000 / nsUnits then
        (if r.isEmpty && fnIs g (fnBar b.val) .stopping then stopDone (fnBar b.val) g else g) else f)) ∧
    Gives (.delayLineCalibration true) s (wf WPU_STAT WPU_STAT_DL_CAL 1 d) ∧ Gives (.delayLineCalibration false) s (wf WPU_STAT WPU_STAT_DL_ERR 1 d)) ∧
  (∀ (s : State) (t : Nat) (c : Fin 4) (b : Bool) (n : Fin 32), clocked s.dev = false → let d := hostHears true s.dev
    Gives (.encoderStandstill c b) s d ∧ Gives (.positionEventReached c t) s d ∧ Gives (.printBarFire n t) s d ∧ Gives (.firePulseEnd n) s d ∧
    Gives (.delayLineCalibration b) s d) ∧
  (∀ (n : Nat) (e : Dev), n < 32 →
    (∀ lead late, let f := barCommit n lead late e
      (getBar f n).lead = some lead ∧ (getBar f n).pulses = (getBar e n).pulses ++ [(lead, lead + (getBar e n).width * 1000)] ∧
      (getBar f n).lastLate = late ∧ rd f (WPU_BAR_FIRES n) = rd e (WPU_BAR_FIRES n) + 1 ∧ (getBar f n).k = (getBar e n).k + 1) ∧
    (
      let f := barSkip n e
      (getBar f n).k = (getBar e n).k + 1 ∧ (getBar f n).pulses = (getBar e n).pulses ∧
      rf f (WPU_BAR_MISS n) WPU_BAR_MISS_SKIP = min 65535 (rf e (WPU_BAR_MISS n) WPU_BAR_MISS_SKIP + 1)) ∧
    (
      let f := barNext n e
      (getBar f n).k = (getBar e n).k + 1 ∧
      ((getBar e n).upd = none → (getBar f n).x = (getBar e n).x + effPitch (barPitch e n) (getBar e n).stretch) ∧
      (∀ u, (getBar e n).upd = some u → (u.next = true ∨ u.at_ * 4294967296 ≤ (getBar e n).x + effPitch (barPitch e n) (getBar e n).stretch) →
        (getBar f n).upd = none ∧ (getBar f n).offset = u.offset ∧ (getBar f n).stretch = clampInt (-50000000) 50000000 u.stretch ∧
        (getBar f n).x = (getBar e n).x + effPitch (barPitch e n) (getBar f n).stretch + (u.offset - (getBar e n).offset) * 4294967296)) ∧
    (∀ p w, (getBar e n).late = false → barBehind n p w true e = barSkip n (wf (WPU_BAR_STAT n) WPU_BAR_STAT_OVERSPEED 1 e)) ∧
    (∀ p w, (getBar e n).late = true → barBehind n p w true e = barLate n (wf (WPU_BAR_STAT n) WPU_BAR_STAT_OVERSPEED 1 e)) ∧
    (∀ mode u, let f := barApply n mode u e
      (getBar f n).upd = some ⟨!mode || decide (u * 4294967296 ≤ (getBar e n).x), u, rdI64 e (WPU_BAR_OFFSET_ST_LO n) (WPU_BAR_OFFSET_ST_HI n),
        (rd e (WPU_BAR_STRETCH_ST n)).toInt⟩ ∧ rb f (WPU_BAR_STAT n) WPU_BAR_STAT_UPD_PENDING = true ∧
      ((getBar e n).upd ≠ none → rb f (WPU_BAR_STAT n) WPU_BAR_STAT_UPD_LOST = true)))

/-- R81, R245..R261: the levels at an interface's pads reach its decoder behind the pad's filter and its own, one sample at a time; the next code counts
up, the one before it down, under DECODE and INVERT, two lines at once are an error; an index is qualified when its condition becomes true; ARM_HOME,
CANCEL_HOME and SET_COUNT act or are rejected; an SSI frame starts at its instant and ends with a decoded count or an error. -/
def Obligations.FeedbackCountsAndHomes : Prop :=
  (∀ (m : Master) (k : Fin 48) (s : State), let n := k.val
    let stat := FBK_STAT n
    let rejected := wf stat FBK_STAT_CMD_REJ 1
    Takes (.armHome m k) m (FBK_CMD n) (fset 0 FBK_CMD_CMD 1) true s (fun d =>
      if rf d (FBK_IDX_CFG n) FBK_IDX_CFG_IDX_MODE ≠ 1 ∨ fbkIsMaster d n = true then rejected d
      else wf stat FBK_STAT_HOMED 0 (wf stat FBK_STAT_HOME_ARMED 1 d)) ∧
    Takes (.cancelHome m k) m (FBK_CMD n) (fset 0 FBK_CMD_CMD 2) true s (wf stat FBK_STAT_HOME_ARMED 0) ∧
    Takes (.setCount m k) m (FBK_CMD n) (fset 0 FBK_CMD_CMD 3) true s (fun d =>
      if fbkIsMaster d n then rejected d else loadHome n (setFbk n { rawFbk d n with absorb := some (d.tb, (rawFbk d n).cnt) } d))) ∧
  (∀ (k t hold sig : Nat) (l : Bool) (d : Dev), let n := 3 * k + sig
    let filt := rf d (MFP_PIN n) MFP_PIN_FILT
    let x := fbkArrive k t hold [(sig, l)] d
    let sync := t + 4 * filt + 3
    let m := rf d (FBK_CFG k) FBK_CFG_FILT_N
    let tf := 4 ^ rf d (FBK_CFG k) FBK_CFG_FILT_PRE
    (fbkArrive k t hold [] d = (d, [])) ∧
    (hold * nsUnits < filt * effAddend d → x = (d, [])) ∧
    (filt * effAddend d ≤ hold * nsUnits → x.1 = padDriven n (some l) d.tb d ∧
      (pinConn d n ≠ some (.fb k sig) → x.2 = []) ∧
      (pinConn d n = some (.fb k sig) → n < 288 → m = 0 → x.2 = [(sync, sig, l != rb d (MFP_PIN n) MFP_PIN_INV)]) ∧
      (pinConn d n = some (.fb k sig) → n < 288 → m ≠ 0 → let u := (sync / tf + m) * tf
        x.2 = if u < sync + hold then [(u, sig, l != rb d (MFP_PIN n) MFP_PIN_INV)] else []))) ∧
  (∀ (f : Nat → List (Nat × Nat × Bool) → Dev → Dev) (u sig : Nat) (l : Bool) (d : Dev), let e := clockToNs u d
    fbkSamplesAt f [] d = d ∧ fbkSamplesAt f [(u, sig, l)] d = f (stampNs e u) [(u, sig, l)] e ∧
    (∀ sig2 l2, fbkSamplesAt f [(u, sig, l), (u, sig2, l2)] d = f (stampNs e u) [(u, sig, l), (u, sig2, l2)] e) ∧
    (∀ w sig2 l2, u < w → fbkSamplesAt f [(w, sig2, l2), (u, sig, l)] d =
      f (stampNs (clockToNs w (f (stampNs e u) [(u, sig, l)] e)) w) [(w, sig2, l2)] (clockToNs w (f (stampNs e u) [(u, sig, l)] e)))) ∧
  (∀ (a b : Bool) (u w old : Nat), old < 4 → fbkLinesWith 2 [(u, 0, a), (w, 1, b)] old = 2 * b2n a + b2n b ∧
    fbkLinesWith 2 [(u, 0, a)] old = 2 * b2n a + old % 2 ∧ fbkLinesWith 2 [(u, 1, b)] old = old / 2 * 2 + b2n b) ∧
  (∀ (k : Fin 48) (s : State) (t hold : Nat), clocked s.dev = true →
    let n := k.val
    let d := hostHears true s.dev
    let e := clockToNs t d
    (∀ a b, let x := fbkArrive n t hold [(0, a), (1, b)] e
      Gives (.quadratureEdge k a b ⟨t, hold⟩) s (fbkSamplesAt (fun ts ys d =>
        if fbkSamples d n && decide (fbkMode d n < 2) then indexLook n ts (quadEdge n ts (fbkLinesWith 2 ys (rawFbk d n).lines) d) else d) x.2 x.1)) ∧
    (∀ u : Fin 8, let x := fbkArrive n t hold [(0, u.val / 4 % 2 == 1), (1, u.val / 2 % 2 == 1), (2, u.val % 2 == 1)] e
      Gives (.hallTransition k u ⟨t, hold⟩) s (fbkSamplesAt (fun ts ys d =>
        if fbkSamples d n && decide (fbkMode d n = 2) then hallEdge n ts (fbkLinesWith 3 ys (rawFbk d n).lines) d else d) x.2 x.1)) ∧
    (∀ z, let x := fbkArrive n t hold [(2, z)] e
      Gives (.indexQualified k z ⟨t, hold⟩) s (fbkSamplesAt (fun ts ys d => forEach ys (fun y d =>
        if fbkSamples d n then indexLook n ts (setFbk n { rawFbk d n with z := y.2.2 } d) else d) d) x.2 x.1)) ∧
    (∀ high, let run := (getFn d n).state = .running ∨ (getFn d n).state = .faulted
      let start := ssiStartDue d n
      let f := clockTo start d
      (fbkMode d n = 3 → run → (rawFbk d n).busy = false →
        Gives (.ssiFrameStart k high) s (setFbk n { rawFbk f n with busy := true, t0 := start, startFail := !high } f)) ∧
      (¬ (fbkMode d n = 3 ∧ run ∧ (rawFbk d n).busy = false) → Gives (.ssiFrameStart k high) s d)) ∧
    (∀ g x high, ((rawFbk d n).busy = false → Gives (.ssiFrameEnd k g x high) s d) ∧
      ((rawFbk d n).busy = true → Gives (.ssiFrameEnd k g x high) s (ssiEnd n g x high (clockTo ((rawFbk d n).t0 + ssiLen d n * nsUnits) d))))) ∧
  (∀ (k : Fin 48) (s : State) (t hold g x : Nat) (a b : Bool) (u : Fin 8), clocked s.dev = false → let d := hostHears true s.dev
    Gives (.quadratureEdge k a b ⟨t, hold⟩) s d ∧ Gives (.hallTransition k u ⟨t, hold⟩) s d ∧ Gives (.indexQualified k a ⟨t, hold⟩) s d ∧
    Gives (.ssiFrameStart k a) s d ∧ Gives (.ssiFrameEnd k g x a) s d) ∧
  (∀ (n ts ab : Nat) (e : Dev), let l := (rawFbk e n).lines
    let dec := rf e (FBK_CFG n) FBK_CFG_DECODE
    let sgn (i : Int) : Int := if rb e (FBK_CFG n) FBK_CFG_INVERT then -i else i
    (quadIdx ab = quadIdx l → quadEdge n ts ab e = e) ∧
    (quadIdx ab = (quadIdx l + 1) % 4 → quadEdge n ts ab e = decoded n ts l ab (if quadCounts dec (quadIdx l) then sgn 1 else 0) e) ∧
    (quadIdx l = (quadIdx ab + 1) % 4 → quadEdge n ts ab e = decoded n ts l ab (if quadCounts dec (quadIdx ab) then sgn (-1) else 0) e) ∧
    (quadIdx ab = (quadIdx l + 2) % 4 → let f := quadEdge n ts ab e
      rb f (FBK_STAT n) FBK_STAT_QERR = true ∧ (rawFbk f n).lines = ab ∧
      (rb e (FBK_CFG n) FBK_CFG_QERR_MODE = false → (rawFbk f n).cnt = (rawFbk e n).cnt)) ∧
    (∀ (old : Nat) (dn : Int), (rawFbk e n).held = none → rb e (FBK_CFG n) FBK_CFG_HYST = false →
      let f := decoded n ts old ab dn e
      (rawFbk f n).lines = ab ∧ ((rawFbk e n).absorb = none → (rawFbk f n).cnt = if dn = 0 then (rawFbk e n).cnt else sext 64 (ofInt 64 ((rawFbk e n).cnt + dn)))) ∧
    (ab = l → hallEdge n ts ab e = e) ∧
    (ab ≠ l → hallSector ab ≠ 7 → hallSector l ≠ 7 → hallSector ab = (hallSector l + 1) % 6 → hallEdge n ts ab e = decoded n ts l ab (sgn 1) e) ∧
    (ab ≠ l → hallSector ab ≠ 7 → hallSector l ≠ 7 → hallSector l = (hallSector ab + 1) % 6 → hallEdge n ts ab e = decoded n ts l ab (sgn (-1)) e) ∧
    (ab ≠ l → hallSector ab = 7 → rb (hallEdge n ts ab e) (FBK_STAT n) FBK_STAT_HALL_ERR = true)) ∧
  (∀ (n ts : Nat) (e : Dev), let c := FBK_IDX_CFG n
    let x := rawFbk e n
    (indexCond e n = true ↔ fbkMode e n = 0 ∧ x.z ≠ rb e c FBK_IDX_CFG_IDX_POL ∧
      (rb e c FBK_IDX_CFG_GATE_EN = true → x.counted = rf e c FBK_IDX_CFG_GATE_A * 2 + rf e c FBK_IDX_CFG_GATE_B)) ∧
    (indexCond e n = x.qual → indexLook n ts e = e) ∧
    (indexCond e n = true → x.qual = false → indexLook n ts e = indexAct n ts (setFbk n { x with qual := true } e)) ∧
    (indexCond e n = false → x.qual = true → indexLook n ts e = setFbk n { x with qual := false } e) ∧
    let mode := rf e c FBK_IDX_CFG_IDX_MODE
    let f := indexAct n ts e
    ((mode = 0 ∨ mode = 3) → f = e) ∧
    ((mode = 1 ∨ mode = 2) → rb f (FBK_STAT n) FBK_STAT_IDX_NEW = true ∧
      (rb e (FBK_STAT n) FBK_STAT_IDX_NEW = true → rb f (FBK_STAT n) FBK_STAT_IDX_OVR = true) ∧
      (x.absorb = none → rdI64 f (FBK_IDX_POS_LO n) (FBK_IDX_POS_HI n) = sext 64 (ofInt 64 x.cnt)) ∧
      (tbRuns e = true → ts < 2 ^ 64 → rd64 f (FBK_IDX_TS_LO n) (FBK_IDX_TS_HI n) = ts)) ∧
    (mode = 2 → x.absorb = none → (rawFbk f n).cnt = rdI64 e (FBK_HOME_VAL_LO n) (FBK_HOME_VAL_HI n) ∧ rb f (FBK_STAT n) FBK_STAT_HOMED = true) ∧
    (mode = 1 → rb e (FBK_STAT n) FBK_STAT_HOME_ARMED = false → (rawFbk f n).cnt = x.cnt)) ∧
  (∀ (n g ext : Nat) (high : Bool) (e : Dev), (rawFbk e n).busy = true →
    let f := ssiEnd n g ext high e
    let bits := rf e (FBK_SSI_CFG n) FBK_SSI_CFG_BITS
    let good := (rawFbk e n).startFail = false ∧ parityOk e n (g % 2 ^ bits) (ext % 2 ^ rf e (FBK_SSI_CFG n) FBK_SSI_CFG_EXTRA) = true ∧ high = false
    (rawFbk f n).busy = false ∧ rd f (FBK_SSI_RAW_LO n) = BitVec.ofNat 32 (g % 2 ^ bits) ∧
    (¬ good → rb f (FBK_STAT n) FBK_STAT_SSI_ERR = true ∧ rb f (FBK_STAT n) FBK_STAT_SSI_VALID = false ∧ (rawFbk f n).cnt = (rawFbk e n).cnt) ∧
    (good → rb f (FBK_STAT n) FBK_STAT_SSI_VALID = true ∧ ((rawFbk e n).t0 < 2 ^ 96 → rd64 f (FBK_SSI_TS_LO n) (FBK_SSI_TS_HI n) = (rawFbk e n).t0 / nsUnits) ∧
      (rb e (FBK_SSI_CFG n) FBK_SSI_CFG_GRAY = false → rf e (FBK_SSI_CFG n) FBK_SSI_CFG_FORMAT = 0 → bits < 64 →
        (rawFbk f n).cnt = sext 64 (ofInt 64 (if rb e (FBK_CFG n) FBK_CFG_INVERT then -(g % 2 ^ bits : Nat) else (g % 2 ^ bits : Nat))))))

/-- R265, R266, R278, R283, R286: an emulation output steps toward its backlog; CONTINUE, HALT and SET_POS wait for the COMMIT instant and then act, or are
rejected by the generator's state; a stream that has not been written for STREAM_HOLD ticks starts its fault reaction. -/
def Obligations.GeneratorsAndEmulationFollowTheirCommands : Prop :=
  (∀ (m : Master) (g : Fin 64) (s : State), let n := g.val
    Takes (.continueMotion m g) m (MPG_CMD n) (fset 0 MPG_CMD_CMD 1) true s (fun d => setMpg n { getMpg d n with cmd := some 1 } d) ∧
    Takes (.halt m g) m (MPG_CMD n) (fset 0 MPG_CMD_CMD 2) true s (fun d => setMpg n { getMpg d n with cmd := some 2 } d) ∧
    Takes (.setPos m g) m (MPG_CMD n) (fset 0 MPG_CMD_CMD 3) true s (fun d => setMpg n { getMpg d n with cmd := some 3 } d)) ∧
  (∀ (n : Nat) (e : Dev), let y := getMpg e n
    let f := mpgApplyCmd n e
    let rejected := wf (MPG_STAT n) MPG_STAT_CMD_REJ 1 (setMpg n { y with cmd := none } e)
    (y.cmd = none → f = e) ∧
    (y.cmd = some 1 → (y.held = false ∨ stopInForce e = true) → f = rejected) ∧
    (y.cmd = some 1 → y.held = true → stopInForce e = false → (getMpg f n).held = false ∧ (getMpg f n).cmd = none ∧
      rb f (MPG_STAT n) MPG_STAT_HELD = false ∧ (getMpg f n).p = y.p ∧ (getMpg f n).v = y.v) ∧
    (y.cmd = some 2 → (y.held = true ∨ fnIs e (fnMpg n) .running = false) → f = rejected) ∧
    (y.cmd = some 2 → y.held = false → fnIs e (fnMpg n) .running = true → (getMpg f n).held = true ∧ (getMpg f n).cmd = none ∧
      rb f (MPG_STAT n) MPG_STAT_HELD = true ∧ (getMpg f n).p = y.p ∧ (getMpg f n).v = y.v) ∧
    (y.cmd = some 3 → (y.v ≠ 0 ∨ mpgMode e n = 2) → f = rejected) ∧
    (y.cmd = some 3 → y.v = 0 → mpgMode e n ≠ 2 → let p := curI64 e (MPG_SET_POS_LO n) (MPG_SET_POS_HI n)
      (getMpg f n).p = p ∧ (getMpg f n).cmd = none ∧ (mpgOut e n = 1 → (getMpg f n).outPos = p / 4294967296))) ∧
  (∀ (g : Fin 64) (s : State), clocked s.dev = true → let n := g.val
    let d := hostHears true s.dev
    let x := getMpg d n
    let hold := max 1 (rf d (MPG_STREAM_CFG n) MPG_STREAM_CFG_STREAM_HOLD)
    Gives (.streamStale g) s (if fnIs d (fnMpg n) .running = true ∧ mpgMode d n = 3 ∧ x.held = false ∧ x.fault = none ∧ hold ≤ x.sIdle then
      setMpg n { x with fault := some 3, sSince := false } d else d)) ∧
  (∀ (k : Fin 8) (s : State), clocked s.dev = true →
    let d := hostHears true s.dev
    let o := getEmu d k.val
    let busy := fnActive d (fnEmu k.val) = true ∧ (o.backlog ≠ 0 ∨ o.zWait = true)
    let min := rf d (EMU_CFG k.val) EMU_CFG_MIN
    let due := match o.last with
      | some t => max (tbNs d) (t + 4 * (if min < 5 then 5 else min))
      | none => tbNs d
    (busy → Gives (.emuStep k) s (Machine.emuStep k.val (clockTo (due * nsUnits) d))) ∧ (¬ busy → Gives (.emuStep k) s d)) ∧
  (∀ (g : Fin 64) (k : Fin 8) (s : State), clocked s.dev = false →
    Gives (.streamStale g) s (hostHears true s.dev) ∧ Gives (.emuStep k) s (hostHears true s.dev)) ∧
  (∀ (k : Nat) (e : Dev), fnActive e (fnEmu k) = true → let o := getEmu e k
    let f := Machine.emuStep k e
    let y := getEmu f k
    let early := ∃ t, o.last = some t ∧ tbNs e < t + emuGap e k
    (early → f = e) ∧
    (¬ early → o.backlog = 0 → y.backlog = 0 ∧ y.out = o.out ∧ y.zWait = false) ∧
    (¬ early → o.backlog ≠ 0 → y.backlog = o.backlog - o.backlog.sign ∧ y.out = o.out + o.backlog.sign ∧ y.last = some (tbNs e) ∧ y.zWait = false ∧
      (o.backlog.natAbs ≠ 1 ∨ fnIs e (fnEmu k) .stopping = false → f = setEmu k y e)))

/-- R81, R290, R291, R296, R303, R307, R310..R313: a step reaches its stepper channel and moves EPOS while the channel is RUNNING; SET_EPOS is rejected then;
an OFF phase, a REF edge and a dead time end at their instants; a write to CMP closes the set of PER and CMP, and a reload instant makes it active; the
REF of a period lies as its mode says; a fault input that becomes active sets its event and acts on every pair that it maps to. -/
def Obligations.DriveOutputsActAtTheirInstants : Prop :=
  (∀ (m : Master) (v : Word) (s : State),
    (∀ j : Fin 32, Takes (.setEpos m j v) m (STP_CMD j.val) (fset v STP_CMD_CMD 1) true s (fun d =>
      if fnIs d (fnStp j.val) .running then wf (STP_STAT j.val) STP_STAT_CMD_REJ 1 d
      else stpRetarget j.val (wf (STP_STAT j.val) STP_STAT_EPOS (fget v STP_CMD_EPOS_VAL) d))) ∧
    (∀ p : Fin 48, Takes (.cmpWrite m p v) m (PWM_CMP p.val) v true s (fun d =>
      let e := fieldsTaken (PWM_CMP p.val) v d
      let set := (rf e (PWM_PER p.val) PWM_PER_VALUE, fget v PWM_CMP_VALUE)
      let sync := rb e (PWM_CFG p.val) PWM_CFG_TSYNC || rb e (PWM_CFG p.val) PWM_CFG_CMP_SRC
      pwmPendFlag p.val (setPwm p.val (if sync then { getPwm e p.val with shadow := some set }
        else { getPwm e p.val with pend := some (set.1, set.2, e.tb + 1) }) e)))) ∧
  (∀ (s : State), clocked s.dev = true → let d := hostHears true s.dev
    (∀ (g : Fin 64) (t : Nat) (i : Int), stepDue d g.val = some (t, i) →
      let e := clockTo t d
      let ns := if rb d (MPG_STAT g.val) MPG_STAT_STEP_TIMER then t / nsUnits else tbNs e
      let f := setMpg g.val { getMpg e g.val with stepNs := ns } e
      Gives (.stepPulse g) s (stpStep (rf f (MPG_CFG g.val) MPG_CFG_OUT_IDX) i (mpgOutPos g.val ((getMpg f g.val).outPos + i) f))) ∧
    (∀ g : Fin 64, stepDue d g.val = none → Gives (.stepPulse g) s d) ∧
    (∀ (j : Fin 32) (b : Bool), let c := if b then (getStp d j.val).b else (getStp d j.val).a
      (offDue d j.val c = none → Gives (.offPhaseEnd j b) s d) ∧
      (∀ t, offDue d j.val c = some t → let e := clockTo t d
        let x := getStp e j.val
        Gives (.offPhaseEnd j b) s (setStp j.val (if b then { x with b := coilOffEnd e j.val x.b } else { x with a := coilOffEnd e j.val x.a }) e))) ∧
    (∀ p : Fin 48, (reloadDue d p.val = none → Gives (.pwmReload p) s d) ∧
      (∀ t, reloadDue d p.val = some t → Gives (.pwmReload p) s (Machine.pwmReload p.val (clockTo t d))) ∧
      (refDue d p.val = none → Gives (.refEdge p) s d) ∧
      (∀ t, refDue d p.val = some t → let e := clockTo t d
        Gives (.refEdge p) s (pwmEdges p.val (getPwm e p.val).edges e))) ∧
    (∀ (p : Fin 48) (b : Bool), let due := if b then (getPwm d p.val).bRise else (getPwm d p.val).aRise
      (due = none → Gives (.deadTimeEnd p b) s d) ∧ (∀ t, due = some t → Gives (.deadTimeEnd p b) s (pwmDeadEnd p.val (clockTo t d)))) ∧
    (∀ (g : Fin 8) (l : Bool) (t hold : Nat), let n := 240 + g.val
      let e := clockToNs t d
      let filt (d : Dev) := rf d (MFP_PIN n) MFP_PIN_FILT * effAddend d
      let f := if hold * nsUnits < filt e then e else padDriven n (some l) e.tb e
      let h := clockTo (f.tb + filt f) f
      let on := (List.range 8).filter (fltOn h)
      Gives (.pwmFaultInput g l ⟨t, hold⟩) s (if on = h.stp.fltOn then h else
        forEach (on.filter (fun i => !h.stp.fltOn.contains i)) (fun i d =>
          let evt := wf PWM_FLT_STAT ⟨8 + i, 8 + i⟩ 1 d
          if rb evt (PWM_FLT_CFG i) PWM_FLT_CFG_EN then
            forUpTo 48 (fun p d => if fnActive d (fnPwm p) && bitOf (rd d (PWM_FLT_CFG i)) (rf d (PWM_CFG p) PWM_CFG_FLT_GRP) then pwmFault p d else d) evt
          else evt) { h with stp := { h.stp with fltOn := on } }))) ∧
  (∀ (s : State) (g : Fin 64) (j : Fin 32) (p : Fin 48) (i : Fin 8) (b : Bool) (t hold : Nat), clocked s.dev = false → let d := hostHears true s.dev
    Gives (.stepPulse g) s d ∧ Gives (.offPhaseEnd j b) s d ∧ Gives (.pwmReload p) s d ∧ Gives (.refEdge p) s d ∧ Gives (.deadTimeEnd p b) s d ∧
    Gives (.pwmFaultInput i b ⟨t, hold⟩) s d) ∧
  (∀ (j : Fin 32) (i : Int) (e : Dev), (fnIs e (fnStp j.val) .running = false → stpStep j.val i e = e) ∧
    (fnIs e (fnStp j.val) .running = true → (rf (stpStep j.val i e) (STP_STAT j.val) STP_STAT_EPOS : Int) = ((rf e (STP_STAT j.val) STP_STAT_EPOS : Int) + i) % 1024 ∧
      (getStp (stpStep j.val i e) j.val).steps = (getStp e j.val).steps + 1)) ∧
  (∀ (j : Nat) (c : Coil) (t : Nat) (fast : Option Bool) (e : Dev), let len := rf e (STP_CHOP j) STP_CHOP_OFF_LEN * 32 * nsUnits
    c.phase = .off t fast → offDue e j c = some (t + len) ∧ (e.tb < t + len → coilOffEnd e j c = c) ∧
      (t + len ≤ e.tb → c.tgt ≠ 0 → (coilOffEnd e j c).phase = .on e.tb (decide (0 < c.tgt)) none)) ∧
  (∀ (d : Dev) (g : Nat), let n := 240 + g
    fltOn d g = true ↔ pinSel d n = some (.flt g) ∧ (padIn d n != rb d (MFP_PIN n) MFP_PIN_INV) = rb d (PWM_FLT_CFG g) PWM_FLT_CFG_ACT) ∧
  (∀ (p : Fin 48) (e : Dev),
    (∀ a b t, (getPwm e p.val).pend = some (a, b, t) → t ≤ e.tb → a < 1048576 → b < 1048576 → let f := pwmTakeSet p.val false e
      rf f (PWM_ACT_PER p.val) PWM_ACT_PER_VALUE = a ∧ rf f (PWM_ACT_CMP p.val) PWM_ACT_CMP_VALUE = b ∧ (getPwm f p.val).pend = none) ∧
    (∀ a b t, (getPwm e p.val).pend = some (a, b, t) → e.tb < t → pwmTakeSet p.val false e = e) ∧
    (∀ t, (getPwm e p.val).aRise = some t → t ≤ e.tb →
      (getPwm (pwmDeadEnd p.val e) p.val).a = true ∧ (getPwm (pwmDeadEnd p.val e) p.val).aRise = none) ∧
    (∀ t, (getPwm e p.val).bRise = some t → t ≤ e.tb →
      (getPwm (pwmDeadEnd p.val e) p.val).b = true ∧ (getPwm (pwmDeadEnd p.val e) p.val).bRise = none) ∧
    (∀ x : Pwm, x.flt = false → rb e (PWM_CFG p.val) PWM_CFG_A_ONLY = false → let dtr := rf e (PWM_DT p.val) PWM_DT_DTR
      let dtf := rf e (PWM_DT p.val) PWM_DT_DTF
      (x.ref = false → let y := Machine.refEdge e p.val true x
        y.ref = true ∧ y.b = false ∧ (dtr = 0 → y.a = true) ∧ (dtr ≠ 0 → y.a = x.a ∧ y.aRise = some (e.tb + dtr * effAddend e))) ∧
      (x.ref = true → let y := Machine.refEdge e p.val false x
        y.ref = false ∧ y.a = false ∧ (dtf = 0 → y.b = true) ∧ (dtf ≠ 0 → y.b = x.b ∧ y.bRise = some (e.tb + dtf * effAddend e)))) ∧
    (∀ t, reloadDue e p.val = some t → t ≤ e.tb → (getPwm e p.val).start = none → (getPwm e p.val).peak = false → fnIs e (fnPwm p.val) .stopping = true →
      let f := getPwm (Machine.pwmReload p.val e) p.val
      f.run = false ∧ f.a = false ∧ f.b = false ∧ f.ref = false)) ∧
  (∀ a : PwmPlan, 0 < a.cmp → a.cmp < a.per → a.carry = none → a.gap = false →
    let ok (dt n : Nat) : Prop := dt ≤ n ∧ (n - dt = 0 ∨ a.minp ≤ n - dt)
    (ok a.dtr a.cmp → ok a.dtf (a.per - a.cmp) → pwmSaw a = ([(0, true, false), (a.cmp, false, false)], none, false)) ∧
    (ok a.dtf a.cmp → ok a.dtr (a.per - a.cmp) → pwmConstOff a = ([(0, false, false), (a.cmp, true, false)], none, false)) ∧
    (a.ref = false → ok a.dtf (a.h + (a.per - a.cmp)) → ok a.dtr (2 * a.cmp) → ok a.dtf (2 * (a.per - a.cmp)) →
      pwmCenter a = ([(0, false, false), (a.per - a.cmp, true, false), (a.per + a.cmp, false, false)], none, false)))

/-! ### Loops, scan engine, converters, acquisition (spec/10, spec/11, spec/12, spec/14) -/

/-- R339, R345: RESET_SUP waits for the COMMIT instant and then for the slot's next due step, which starts its count at 0 and its prediction at y; TRIGGER,
REARM and a trace unit's configuration wait for the next tick start. R344: the record of a step goes to WPTR, or to BASE behind a word of ones, or is
dropped and counted in LOST where the data plane cannot write it in time. R325, R326, R342: a step of a slot whose source is stale under IN_ACT ends with fault
code 3, one with a source or a result that is no number with code 2. R422, R424, R434, R435, R436, R440: a start instant begins a scan cycle or, while one
runs, is skipped; an uncorrectable error in scan memory faults the engine (R48); a snapshot ends in the older copy with its header last; a force entry and
a window word take a write, or it is refused. -/
def Obligations.LoopsTracesAndScanTakeTheirCommands : Prop :=
  (∀ (m : Master) (v : Word) (s : State),
    let d := hostHears true s.dev
    (∀ i : Fin 1024, let off := LPE_SLOT_CTRL i.val
      Takes (.resetSup m i v) m off (fset v LPE_SLOT_CTRL_CMD 1) true s (fun d =>
        let e := fieldsTaken off (fset v LPE_SLOT_CTRL_CMD 1) d
        setSlot i.val { getSlot e i.val with resetStaged := true } e)) ∧
    (∀ u : Fin 16, let off := LPE_TRC_CTRL u.val
      Takes (.trigger m u v) m off (fset v LPE_TRC_CTRL_CMD 1) true s (fun d =>
        let e := fieldsTaken off (fset v LPE_TRC_CTRL_CMD 1) d
        setTrc u.val { getTrc e u.val with dirty := true, trigger := true } e) ∧
      Takes (.rearm m u v) m off (fset v LPE_TRC_CTRL_CMD 2) true s (fun d =>
        let e := fieldsTaken off (fset v LPE_TRC_CTRL_CMD 2) d
        setTrc u.val { getTrc e u.val with dirty := true, rearm := true } e) ∧
      (∀ off, off = LPE_TRC_CFG u.val ∨ off = LPE_TRC_BASE u.val → Takes (.traceConfigWrite m off v) m off v true s (fun d =>
        let e := fieldsTaken off v d
        setTrc u.val { getTrc e u.val with dirty := true } e))) ∧
    (∀ ecc corr, clocked s.dev = false ∨ d.scn.nextK = none → Gives (.scanCycleStart ⟨ecc, corr⟩) s d ∧
      (clocked s.dev = false ∨ d.scn.snap = none → Gives .snapshotWriteComplete s d)) ∧
    (∀ k ecc corr, clocked s.dev = true → d.scn.nextK = some k → let e := countEcc corr (clockToNs (scnStartNs d k) d)
      Gives (.scanCycleStart ⟨ecc, corr⟩) s (scanEcc ecc (scanStart (safScanBits e.saf) e))) ∧
    (∀ dm tc body, clocked s.dev = true → d.scn.snap = some (dm, tc, body) →
      let newest := snapNewest s.mem
      let copy := match newest with | some (c, _) => 1 - c | none => 0
      let seq := match newest with | some (_, q, _) => (q + 1) % 2 ^ 32 | none => 1
      let base := 0x60100000 + 0x8000 * copy
      Gives .snapshotWriteComplete s (memPut base
        (leBytes 4 0x5243534B ++ leBytes 4 seq ++ leBytes 2 (fget dm SCN_RET_DM_RET_D) ++ leBytes 2 (fget dm SCN_RET_DM_RET_M) ++
         leBytes 2 (fget tc SCN_RET_TC_RET_T) ++ leBytes 2 (fget tc SCN_RET_TC_RET_C) ++ leBytes 4 (crc32 body) ++ List.replicate 44 0)
        (memPut (base + 0x40) body (wf SCN_RET_STAT SCN_RET_STAT_WRITING 0 (wf SCN_RET_STAT SCN_RET_STAT_NEWEST copy
          (modScn (fun u => { u with snap := none }) d)))))) ∧
    (∀ (k : Fin 64) (sel : Bool), let off := if sel then SCN_FORCE_SEL k.val else SCN_FORCE_VAL k.val
      Takes (.forceWrite m k sel v) m off v true s (fun d =>
        let e := scnSync d
        let w := if sel then v &&& 0x83C0FFFF#32 else v
        let a := fget v SCN_FORCE_SEL_AREA
        if sel = true ∧ (¬ (a = 0 ∨ a = 1 ∨ a = 6 ∨ a = 7) ∨ 512 ≤ fget v SCN_FORCE_SEL_ADDR) then wf SCN_STAT SCN_STAT_FORCE_REJ 1 e
        else
          let f := wb SCN_STAT SCN_STAT_FORCED (!(forceEntries (wr off w e)).isEmpty) (wr off w e)
          if rd e off ≠ w ∧ (rb e (SCN_FORCE_SEL k.val) SCN_FORCE_SEL_EN = true ∨ rb f (SCN_FORCE_SEL k.val) SCN_FORCE_SEL_EN = true)
          then trigger 0x23 0x34 [k.val, (rd f (SCN_FORCE_SEL k.val)).toNat, (rd f (SCN_FORCE_VAL k.val)).toNat] f else f)) ∧
    (∀ off, 0x35000 ≤ off → off < 0x36000 → off % 4 = 0 →
      let e := reached m off true s
      (Lets m off v true s → winBeyond e off = true → Gives (.scanWindowWrite m off v) s (accessErr .unmapped m off e)) ∧
      (winBeyond e off = false → Takes (.scanWindowWrite m off v) m off v true s (fun d =>
        if winDraft d && draftHeld d 3 then (if winRead d off = v then d else accessErr .lockedWr m off d) else winWrite off v d)))) ∧
  (∀ (e : Dev) (i : Nat), (smKeys e.lpe.slots).Pairwise (· < ·) →
    (getSlot (lpeResets e) i).resetStaged = false ∧
    (getSlot (lpeResets e) i).resetSup = ((getSlot e i).resetSup || (getSlot e i).resetStaged)) ∧
  (∀ (e : Dev) (s : Nat) (x y : Slot),
    let src (o : Nat) : SrcVal := readSrc e s (rd e o)
    let stale : Bool := (src (LPE_SLOT_SRC_SP s)).stale || (src (LPE_SLOT_SRC_Y s)).stale || (src (LPE_SLOT_SRC_FF s)).stale
    let numbers : Bool := fFinite (src (LPE_SLOT_SRC_SP s)).f && fFinite (src (LPE_SLOT_SRC_Y s)).f && fFinite (src (LPE_SLOT_SRC_FF s)).f
    (slotLaw e s x = .error 3 ↔ stale = true ∧ cb e (LPE_SLOT_SUP s) LPE_SLOT_SUP_IN_ACT = true) ∧
    (numbers = false → stale = false → slotLaw e s x = .error 2) ∧
    (slotLaw e s x = .ok y → y.resetSup = false ∧ y.first = false ∧ y.lawChanged = false ∧ ∃ o, y.out = some o ∧
      o.u = fClamp o.u (cur e (LPE_SLOT_OMIN s)) (cur e (LPE_SLOT_OMAX s)) ∧ fIsNan o.u = false ∧ o.stale = stale ∧ o.i = y.i ∧ o.cnt = y.cnt ∧
      o.y = fFlush (src (LPE_SLOT_SRC_Y s)).f) ∧
    slotLaw e s { x with resetSup := true, first := false } =
      slotLaw e s { x with resetSup := true, first := false, cnt := 0, yhat := fFlush (src (LPE_SLOT_SRC_Y s)).f }) ∧
  (∀ (u : Nat) (e : Dev), u < 16 →
    let x := getTrc e u
    let f := trcTick1 u e
    let stat := LPE_TRC_STAT u
    let region (k : Nat) : Nat × Nat := ((getTrc e k).base, (getTrc e k).base + 2 ^ (getTrc e k).size)
    let base := (rd e (LPE_TRC_BASE u)).toNat
    let size := rf e (LPE_TRC_CTRL u) LPE_TRC_CTRL_SIZE_LOG2
    let rises := fget (rd e (LPE_TRC_CFG u)) LPE_TRC_CFG_EN = 1 ∧ fget x.cfg LPE_TRC_CFG_EN ≠ 1
    (trcRegionOk e u = true ↔ 10 ≤ size ∧ size ≤ 20 ∧ 0x30000000 ≤ base ∧ base + 2 ^ size ≤ 0x30400000 ∧
      ∀ k, k < 16 → k ≠ u → fget (getTrc e k).cfg LPE_TRC_CFG_EN = 1 → (region k).2 ≤ base ∨ base + 2 ^ size ≤ (region k).1) ∧
    (x.dirty = false → x.trigger = false → x.rearm = false → f = e) ∧
    ((getTrc f u).dirty = false ∧ (getTrc f u).trigger = false ∧ (getTrc f u).rearm = false) ∧
    (x.dirty = true → (rises → trcRegionOk e u = true) → (getTrc f u).cfg = rd e (LPE_TRC_CFG u) ∧ (getTrc f u).base = base ∧ (getTrc f u).size = size) ∧
    (x.dirty = true → rises → trcRegionOk e u = false → rb f stat LPE_TRC_STAT_BAD_REGION = true ∧ rf f (LPE_TRC_CFG u) LPE_TRC_CFG_EN = 0 ∧
      fget (getTrc f u).cfg LPE_TRC_CFG_EN = 0) ∧
    (x.trigger = false → (x.rearm = true ∨ x.dirty = true ∧ rises ∧ trcRegionOk e u = true) →
      rd f (LPE_TRC_WPTR u) = 0 ∧ rb f stat LPE_TRC_STAT_DONE = false ∧ rb f stat LPE_TRC_STAT_TRIGGERED = false ∧ rb f stat LPE_TRC_STAT_WRAPPED = false) ∧
    (x.trigger = true → x.rearm = false → x.dirty = false → fget x.cfg LPE_TRC_CFG_EN = 1 → fget x.cfg LPE_TRC_CFG_TRIG = 3 → rb e stat LPE_TRC_STAT_DONE = false →
      rb e stat LPE_TRC_STAT_TRIGGERED = false → rd f (LPE_TRC_TRIGPTR u) = rd e (LPE_TRC_WPTR u) ∧ rb f stat LPE_TRC_STAT_TRIGGERED = true ∧
      rb f stat LPE_TRC_STAT_DONE = (rf e (LPE_TRC_CTRL u) LPE_TRC_CTRL_POST == 0))) ∧
  (∀ (n s u : Nat) (o : SlotOut) (e : Dev), u < 16 → fget (getTrc e u).cfg LPE_TRC_CFG_SLOT = s →
    (∀ k, k < 16 → k ≠ u → trcOn e k = false ∨ fget (getTrc e k).cfg LPE_TRC_CFG_SLOT ≠ s) →
    let x := getTrc e u
    let stat := LPE_TRC_STAT u
    let f := trcStep n s o e
    let words := trcWords n s (fget x.cfg LPE_TRC_CFG_NODES) o (rd e (LPE_SLOT_STAT s)).toNat
    let bytes := words.flatMap (leBytes 4)
    let w := (rd e (LPE_TRC_WPTR u)).toNat
    let fits := w + bytes.length ≤ 2 ^ x.size
    (trcOn e u = false → f = e) ∧
    (trcOn e u = true → u ∈ e.lpe.late → f.memq = e.memq ∧ rd f (LPE_TRC_WPTR u) = rd e (LPE_TRC_WPTR u) ∧
      rf f stat LPE_TRC_STAT_LOST = min 65535 (rf e stat LPE_TRC_STAT_LOST + 1)) ∧
    (trcOn e u = true → u ∉ e.lpe.late → fits → f.memq = e.memq ++ [MemOp.write (x.base + w) bytes] ∧ rf f stat LPE_TRC_STAT_LOST = rf e stat LPE_TRC_STAT_LOST ∧
      (rd f (LPE_TRC_WPTR u)).toNat = (w + bytes.length) % 2 ^ 32) ∧
    (trcOn e u = true → u ∉ e.lpe.late → ¬ fits →
      f.memq = e.memq ++ (if w + 4 ≤ 2 ^ x.size then [MemOp.write (x.base + w) (leBytes 4 0xFFFFFFFF)] else []) ++ [MemOp.write x.base bytes] ∧
      (rd f (LPE_TRC_WPTR u)).toNat = bytes.length % 2 ^ 32 ∧ rb f stat LPE_TRC_STAT_WRAPPED = true) ∧
    words.head? = some (s * 2 ^ 22 + n % 2 ^ 22) ∧
    words.length = 1 + ((List.range 16).filter (fun b => (fget x.cfg LPE_TRC_CFG_NODES).testBit b && decide (b < o.nodes.length + 2))).length) ∧
  (∀ (e : Dev) (k w : Nat), e.scn.nextK = some k →
    let S := scnStartNs e k * nsUnits
    let g := modScn (fun u => { u with nextK := some (k + 1) }) (scnSyncTo (min S e.tb) e)
    let h := modScn (fun u => { u with skipped := true, overs := u.overs + (if u.skipped then 0 else 1) }) g
    let f := wf SCN_STAT SCN_STAT_SKIP_EVT 1 (bump SCN_CNT SCN_CNT_SKIP_CNT h)
    let lim := rf e SCN_CFG2 SCN_CFG2_SKIP_LIMIT
    (g.scn.cycle = none → scanStart w e = scnBegin S w g) ∧
    (g.scn.cycle ≠ none → scanStart w e = if lim ≠ 0 ∧ lim ≤ h.scn.overs then detectFault fnScn 1 f else f)) ∧
  (∀ (S w : Nat) (e : Dev), let f := scnBegin S w e
    f.scn.cycle = some { start := S, t := S + 1250 * nsUnits } ∧ f.scn.first = false ∧ f.scn.swapped = false ∧ f.scn.skipped = false ∧
    (f.scn.i, f.scn.iw) = scnInputs e ∧ f.scn.sys / 65536 = w % 65536 ∧ f.scn.overs = (if e.scn.skipped then e.scn.overs else 0) ∧
    f.scn.q = e.scn.q ∧ f.scn.qw = e.scn.qw ∧ (e.scn.swapped = false → f.scn.m = e.scn.m ∧ f.scn.dw = e.scn.dw ∧ f.scn.bank = e.scn.bank)) ∧
  (∀ e : Dev, scanEcc false e = e ∧ (e.scn.cycle = none → scanEcc true e = e) ∧
    (e.scn.cycle ≠ none → scanEcc true e = detectFault fnScn 2 (eccRecord 0x34 e))) ∧
  (∀ (off : Nat) (v : Word) (e : Dev),
    let f := winWrite off v e
    let u := (scnSync e).scn
    let n := winWord e off
    let a := rf e SCN_WIN SCN_WIN_AREA
    (a = 0 → f.scn = { u with prog := awPut u.prog n v }) ∧ (a = 2 → f.scn = { u with ini := awPut u.ini n v }) ∧
    (a = 3 → f.scn = { u with tpre := awPut u.tpre n v }) ∧ (a = 4 → f.scn = { u with cpre := awPut u.cpre n v }) ∧
    (a = 5 → f.scn = { u with m := awPut u.m n v }) ∧ (a = 6 → f.scn = { u with dw := awPut u.dw n v }) ∧
    ((a = 1 ∨ 7 ≤ a) → f.scn = u))

/-- R349..R366: a conversion starts for its kind of request when the converter is idle and its time is free, at its reserved frame or its trigger instant, and
completes 1 µs later with its code; START is rejected while BUSY; a sigma-delta result comes at its boundary; a reference that is lost marks its
conversions and triggers a record; a test DAC that would disturb an input in use is refused; CAL is refused while a configuration is active. -/
def Obligations.ConvertersDeliverTheirResults : Prop :=
  (∀ (acc : Bool) (s : State),
    let d := hostHears true s.dev
    let h := hostHears acc s.dev
    (∀ (c : Fin 16) (q : SarKind) (e : Fin 4) (k : Fin 8) (g : Fin 5) (t vref : Nat) (vin : Int), clocked s.dev = false →
      Gives (.sarConversionStart c q) s d ∧ Gives (.sarConversionComplete c vin vref acc) s h ∧ Gives (.pwmTriggerInstant c e) s d ∧
      Gives (.sdResult k vin vref acc) s h ∧ Gives (.referenceError g t) s d ∧ Gives (.referenceRecovery g t) s d ∧ Gives .calibrationComplete s d) ∧
    (∀ c : Fin 16, clocked s.dev = true →
      let x := getSar d c.val
      let idle := x.conv = none
      let busy := rb d (ADC_SAR_REQ c.val) ADC_SAR_REQ_BUSY = true
      Gives (.sarConversionStart c .tick) s
        (if x.conv.isNone && tickOn d c.val && decide (d.tb % tickP d < effAddend d) then sarBegin c.val .tick (rf d (ADC_SAR_TICK c.val) ADC_SAR_TICK_MUX) d
         else d) ∧
      (nextFrame d c.val (d.tb - effAddend d) = none → Gives (.sarConversionStart c .slot) s d) ∧
      (∀ t i, nextFrame d c.val (d.tb - effAddend d) = some (t, i) → let e := clockTo t d
        (∀ j b, idle → (coilsOn e c.val)[i]? = some (j, b) → Gives (.sarConversionStart c .slot) s
          (sarBegin c.val (.slot i) (rf e (STP_SENSE j) (if b then STP_SENSE_AIN_B else STP_SENSE_AIN_A) % 6) e)) ∧
        ((¬ idle ∨ (coilsOn e c.val)[i]? = none) → Gives (.sarConversionStart c .slot) s e)) ∧
      (x.deferred = [] → Gives (.sarConversionStart c .pwm) s d) ∧
      (∀ e, e ∈ x.deferred → (∀ f ∈ x.deferred, e ≤ f) → Gives (.sarConversionStart c .pwm) s
        (if x.conv.isNone && adcArmed d && clearOfTick d c.val then
           sarBegin c.val (.pwm e) (rf d (ADC_SAR_TRG c.val e) ADC_SAR_TRG_MUX) (setSar c.val { x with deferred := x.deferred.filter (· != e) } d)
         else d)) ∧
      (idle → rb d SYS_READY SYS_READY_ADC = true → busy → bgFits d c.val = true → Gives (.sarConversionStart c .req) s (sarBegin c.val .req x.reqSet.2.2 d)) ∧
      ((¬ idle ∨ rb d SYS_READY SYS_READY_ADC = false ∨ ¬ busy ∨ bgFits d c.val = false) → Gives (.sarConversionStart c .req) s d) ∧
      (∀ e, idle → adcArmed d = true → ¬ busy → bgFits d c.val = true → bgPick d c.val = some e →
        Gives (.sarConversionStart c .bg) s (sarBegin c.val (.bg e) (rf d (ADC_SAR_BG c.val e) ADC_SAR_BG_MUX) (setSar c.val { x with bgEntry := e } d))) ∧
      ((¬ idle ∨ adcArmed d = false ∨ busy ∨ bgFits d c.val = false ∨ bgPick d c.val = none) → Gives (.sarConversionStart c .bg) s d)) ∧
    (∀ (c : Fin 16) (vin : Int) (vref : Nat), clocked s.dev = true → (getSar h c.val).conv = none → Gives (.sarConversionComplete c vin vref acc) s h) ∧
    (∀ (c : Fin 16) (vin : Int) (vref : Nat) (x : SarConv), clocked s.dev = true → (getSar h c.val).conv = some x →
      let n := c.val
      let g := n / 4
      let p := if x.unsettled then draw (clockTo (x.ts + convNs) h) else (0, clockTo (x.ts + convNs) h)
      let code := if x.unsettled then p.1.toNat % 4096
        else match x.dac with | some v => v | none => sarCode vin vref
      let y := { getSar h n with conv := none }
      let e := setSar n y p.2
      let ts := x.ts / nsUnits
      let dead : Bool := x.dead || refErr e g
      let result (kind v ts : Nat) (inj op : Bool) (e : Dev) : Dev := sarResult (6 * n + x.mux) kind v ts x.ts inj op e
      let event := Instr.sarConversionComplete c vin vref acc
      (x.kind = .tick → Gives event s (if dead then e else result 0 code ts x.inj (rb e (ADC_SAR_TICK n) ADC_SAR_TICK_OPERAND) e)) ∧
      (∀ i, x.kind = .slot i → Gives event s (match (coilsOn e n)[i]? with
        | some (j, _) => if dead then stpNoSense j e else result 1 code ts x.inj false e
        | none => e)) ∧
      (∀ i, x.kind = .pwm i → Gives event s (if dead then e else result 2 code ts x.inj (rb e (ADC_SAR_TRG n i) ADC_SAR_TRG_OPERAND) e)) ∧
      (x.kind = .req →
        let fin (e : Dev) : Dev := wf (ADC_SAR_REQ n) ADC_SAR_REQ_DONE 1 (wf (ADC_SAR_REQ n) ADC_SAR_REQ_BUSY 0 (setSar n { getSar e n with req := {} } e))
        let q := sarAdd y.req code ts x.inj
        (dead = true → Gives event s (fin e)) ∧
        (dead = false → q.n < 2 ^ y.reqSet.1 → Gives event s (setSar n { y with req := q } e)) ∧
        (dead = false → 2 ^ y.reqSet.1 ≤ q.n → Gives event s (result 3 (q.sum / 2 ^ y.reqSet.2.1) q.ts q.inj false (fin e)))) ∧
      (∀ i, x.kind = .bg i →
        let w := ADC_SAR_BG n i
        let q := sarAdd y.bg code ts x.inj
        let avg := rf e w ADC_SAR_BG_AVG
        (dead = true → Gives event s (setSar n { y with bg := {} } e)) ∧
        (dead = false → q.n < 2 ^ avg → Gives event s (setSar n { y with bg := q } e)) ∧
        (dead = false → 2 ^ avg ≤ q.n → Gives event s (result 3 (q.sum / 2 ^ rf e w ADC_SAR_BG_SHIFT) q.ts q.inj (rb e w ADC_SAR_BG_OPERAND)
          (setSar n { y with bg := {}, bgEntry := (i + 1) % 6 } e))))) ∧
    (∀ (c : Fin 16) (e : Fin 4), clocked s.dev = true →
      (trgDue d c.val e.val = none → Gives (.pwmTriggerInstant c e) s d) ∧
      (∀ t, trgDue d c.val e.val = some t → let f := clockTo t d
        Gives (.pwmTriggerInstant c e) s
          (sarTrigger c.val e.val t (setSar c.val { getSar f c.val with trgLast := smPut (getSar f c.val).trgLast e.val t } f)))) ∧
    (∀ (k : Fin 8) (vd : Int) (vref : Nat), clocked s.dev = true →
      let stat := ADC_SD_STAT k.val
      let on : Prop := rb h (ADC_SD_CFG k.val) ADC_SD_CFG_EN = true ∧ adcArmed h = true
      let t := sdDue h k.val
      let b := clockTo t h
      let e := setSd k.val { getSd b k.val with seen := (getSd b k.val).seen + 1, last := some t } b
      let f := wf stat ADC_SD_STAT_SETTLING 0 e
      let inj : Bool := rb f (ADC_TDAC 4) ADC_TDAC_EN && rf f (ADC_TDAC 4) ADC_TDAC_TARGET == k.val
      let loose := tdacUnsettled f 4 k.val
      let p := if loose then draw f else (0, f)
      let within (z : Int) : Int := max (-8388607) (min 8388607 z)
      let made : Int × Bool := if loose then (within (sext 24 p.1.toNat), false)
        else if inj && !rb f (ADC_TDAC 4) ADC_TDAC_MODE then (within ((rf f (ADC_TDAC 4) ADC_TDAC_CODE : Int) * 8192 - 4194304), false) else sdCode vd vref
      (¬ on → Gives (.sdResult k vd vref acc) s h) ∧
      (on → (getSd b k.val).seen < 2 → Gives (.sdResult k vd vref acc) s e) ∧
      (on → 2 ≤ (getSd b k.val).seen → refErr f 4 = true → Gives (.sdResult k vd vref acc) s f) ∧
      (on → 2 ≤ (getSd b k.val).seen → refErr f 4 = false →
        let r := wr (ADC_SD_TS k.val) (BitVec.ofNat 32 (t / nsUnits)) (wr (ADC_SD_RES k.val) (BitVec.ofInt 32 made.1) (wf stat ADC_SD_STAT_NEW 1 p.2))
        let r := if made.2 then wf stat ADC_SD_STAT_OVR 1 r else r
        let r := sdLatch t (setSd k.val { getSd r k.val with res := { done := t, fresh := true, value := made.1, inj := inj } } r)
        let r := acqHand 2 k.val made.1 (t / nsUnits) inj (wpuSync (tbNs r) r)
        Gives (.sdResult k vd vref acc) s (if rb r (ADC_SD_CFG k.val) ADC_SD_CFG_OPERAND then postOperand (0x8A0 + k.val) (BitVec.ofInt 32 made.1) r else r))) ∧
    (∀ (g : Fin 5) (t : Nat), clocked s.dev = true → let e := clockToNs t d
      Gives (.referenceError g t) s (refLost g.val e) ∧ refErr (refLost g.val e) g.val = true ∧
      Gives (.referenceRecovery g t) s (wf ADC_STAT ⟨8 + g.val, 8 + g.val⟩ 0 e) ∧ refErr (wf ADC_STAT ⟨8 + g.val, 8 + g.val⟩ 0 e) g.val = false) ∧
    InGale .calibrationComplete true s (wf ADC_STAT ADC_STAT_CAL_DONE 1)) ∧
  (∀ (g : Nat) (e : Dev), g < 5 →
    (∀ (c : Nat) (x : SarConv), c < 16 → (getSar e c).conv = some x → (getSar (refLost g e) c).conv = some { x with dead := x.dead || (c / 4 == g) }) ∧
    (∀ c, c < 16 → (getSar e c).conv = none → (getSar (refLost g e) c).conv = none) ∧
    (refErr e g = true → (refLost g e).evr = e.evr ∧ (refLost g e).regs = e.regs) ∧
    (refErr e g = false → rb (refLost g e) ADC_STAT ⟨16 + g, 16 + g⟩ = true ∧
      ∃ f, refLost g e = trigger 0x21 0x2C [g] f)) ∧
  (∀ (c k : Nat) (q : SarReq) (e : Dev), let g := c / 4
    (getSar (sarBegin c q k e) c).conv = some ⟨q, k, e.tb, rb e (ADC_TDAC g) ADC_TDAC_EN && tdacInput g (rd e (ADC_TDAC g)) == 6 * c + k, refErr e g,
      (match smGet e.adc.tdacAt g with | some t => decide (e.tb < t + 5000 * nsUnits) | none => false) &&
        (tdacInput g (rd e (ADC_TDAC g)) == 6 * c + k || smGet e.adc.tdacWas g == some (6 * c + k)),
      if rb e (ADC_TDAC g) ADC_TDAC_EN && tdacInput g (rd e (ADC_TDAC g)) == 6 * c + k && !rb e (ADC_TDAC g) ADC_TDAC_MODE
        then some (4 * rf e (ADC_TDAC g) ADC_TDAC_CODE) else none⟩) ∧
  (∀ (e : Dev) (c t u i : Nat), nextFrame e c t = some (u, i) →
    let coils := coilsOn e c
    let per := sensePer e coils
    adcArmed e = true ∧ i < coils.length ∧ t < u ∧ ∃ n k, u = n * tickP e + (1 + i + k * per) * convNs ∧ (1 + i + k * per) * convNs < tickP e) ∧
  (∀ (e : Dev) (c : Nat), bgFits e c = true ↔
    (getSar e c).deferred = [] ∧ (tickOn e c = true → e.tb + convNs ≤ (e.tb / tickP e + 1) * tickP e) ∧
    (∀ t i, nextFrame e c e.tb = some (t, i) → e.tb + convNs ≤ t) ∧
    (∀ k t, k < 4 → trgNext e c k e.tb = some t → e.tb + convNs ≤ t)) ∧
  (∀ (e : Dev) (c : Nat),
    (0 < (getSar e c).bg.n → bgPick e c = some (getSar e c).bgEntry) ∧
    ((getSar e c).bg.n = 0 → (bgPick e c = none ↔ ∀ k, k < 6 → rb e (ADC_SAR_BG c k) ADC_SAR_BG_EN = false) ∧
      ∀ k, bgPick e c = some k → k < 6 ∧ rb e (ADC_SAR_BG c k) ADC_SAR_BG_EN = true)) ∧
  (∀ (c e t : Nat) (d : Dev),
    let w := ADC_SAR_TRG c e
    let on : Bool := rb d w ADC_SAR_TRG_EN && adcArmed d && fnActive d (fnPwm (rf d w ADC_SAR_TRG_PAIR))
    let x := getSar d c
    let dropped := bump (ADC_SAR_STAT c) ADC_SAR_STAT_DROP (setSar c { x with deferred := x.deferred.filter (· != e) } d)
    let f := if e ∈ x.deferred then dropped else d
    let free : Prop := x.conv = none ∧ clearOfTick f c = true ∧ (∀ k ∈ (getSar f c).deferred, e < k ∧ smGet x.trgLast k = some t) ∧
      (∀ k, k < e → smGet x.trgLast k ≠ some t → trgNext f c k t ≠ some t)
    (on = false → sarTrigger c e t d = d) ∧
    (on = true → free → sarTrigger c e t d = sarBegin c (.pwm e) (rf f w ADC_SAR_TRG_MUX) f) ∧
    (on = true → ¬ free →
      sarTrigger c e t d = bump (ADC_SAR_STAT c) ADC_SAR_STAT_SLIP (setSar c { getSar f c with deferred := (getSar f c).deferred ++ [e] } f))) ∧
  (∀ (n kind code ts at_ : Nat) (inj op : Bool) (e : Dev), n < 96 →
    let was := fset (BitVec.ofNat 32 (code % 2 ^ 20 + kind * 2 ^ 28 + b2n inj * 2 ^ 30)) ADC_AIN_RES_NEW (rf e (ADC_AIN_RES n) ADC_AIN_RES_NEW)
    let r := setAin n { done := e.tb, fresh := true, value := code, inj := inj }
      (wr (ADC_AIN_TS n) (BitVec.ofNat 32 ts) (wf (ADC_AIN_RES n) ADC_AIN_RES_NEW 1 (wr (ADC_AIN_RES n) was e)))
    let q := if inj then r else forEach (coilsSensing r n) (fun x d => stpSense x.2.1 x.2.2 code ts ((nextFrameOf 64 d (n / 6) x.1 at_).getD d.tb / nsUnits) d) r
    let z := acqHand 1 n code (ts + 125) inj (wpuSync (tbNs q) q)
    rd r (ADC_AIN_RES n) = fset was ADC_AIN_RES_NEW 1 ∧
    sarResult n kind code ts at_ inj op e = if op then postOperand (0x840 + n) (BitVec.ofNat 32 code) z else z) ∧
  (∀ (vin : Int) (vref : Nat), sarCode vin vref ≤ 4095 ∧ (vin < 0 → sarCode vin vref = 0) ∧
    (0 ≤ vin → 0 < vref → sarCode vin vref = min 4095 (4096 * vin.toNat / vref))) ∧
  (∀ (vd : Int) (vref : Nat), 0 < vref → let z := (sdCode vd vref).1
    z ≤ 8388607 ∧ -8388607 ≤ z ∧
    ((sdCode vd vref).2 = false → (2 * (z * vref - vd * 8388608)).natAbs ≤ vref) ∧
    ((sdCode vd vref).2 = true → (0 < vd → z = 8388607) ∧ (vd < 0 → z = -8388607))) ∧
  (∀ (m : Master) (v : Word) (s : State),
    (∀ c : Fin 16, let off := ADC_SAR_REQ c.val
      Takes (.start m c v) m off (fset v ADC_SAR_REQ_START 1) true s (fun d =>
        let e := fieldsTaken off (fset v ADC_SAR_REQ_START 1) d
        if rb e off ADC_SAR_REQ_BUSY || decide (6 ≤ rf e off ADC_SAR_REQ_MUX) then wf off ADC_SAR_REQ_REQ_REJ 1 e
        else wf off ADC_SAR_REQ_BUSY 1 (setSar c.val { getSar e c.val with
          req := {}, reqSet := (min 8 (rf e off ADC_SAR_REQ_AVG), min 8 (rf e off ADC_SAR_REQ_SHIFT), rf e off ADC_SAR_REQ_MUX) } e))) ∧
    (∀ g : Fin 5, Takes (.testDacWrite m g v) m (ADC_TDAC g.val) v true s (fun d =>
      let target := fget v ADC_TDAC_TARGET
      let n := if g.val = 4 then target else 24 * g.val + target
      let was := if g.val = 4 then rf d (ADC_TDAC g.val) ADC_TDAC_TARGET else 24 * g.val + rf d (ADC_TDAC g.val) ADC_TDAC_TARGET
      if (if g.val = 4 then 7 else 23) < target ∨ (fget v ADC_TDAC_EN = 1 ∧ inputInUse d (g.val == 4) n = true) then wf ADC_STAT ADC_STAT_INJ_REJ 1 d
      else
        let e := wr (ADC_TDAC g.val) (v &&& 0xC01F03FF#32) d
        { e with adc := { e.adc with tdacAt := smPut e.adc.tdacAt g.val d.tb, tdacWas := smPut e.adc.tdacWas g.val was } })) ∧
    Takes (.cal m v) m ADC_CTRL (fset v ADC_CTRL_CMD 1) true s (fun d =>
      let e := fieldsTaken ADC_CTRL (fset v ADC_CTRL_CMD 1) d
      if cfgActive e then wf ADC_STAT ADC_STAT_CAL_REJ 1 e else wf ADC_STAT ADC_STAT_CAL_DONE 0 e)) ∧
  (∀ (e : Dev) (sd : Bool) (n : Nat), inputInUse e sd n = true ↔
    (sd = false ∧ ∃ j, j < 32 ∧ fnIs e (fnStp j) .running = true ∧ (rf e (STP_SENSE j) STP_SENSE_AIN_A = n ∨ rf e (STP_SENSE j) STP_SENSE_AIN_B = n)) ∨
    (∃ x ∈ inclSlots e, fnIs e (fnSlot x) .running = true ∧ ∃ o ∈ [LPE_SLOT_SRC_SP x, LPE_SLOT_SRC_Y x, LPE_SLOT_SRC_FF x],
      fget (cur e o) LPE_SLOT_SRC_Y_KIND = (if sd then 7 else 6) ∧ fget (cur e o) LPE_SLOT_SRC_Y_INDEX = n) ∨
    (∃ u c, u < 8 ∧ c < 16 ∧ acqActive e u = true ∧ acqNames e u c (if sd then 2 else 1) n = true))

/-- R373..R385: the events and commands of an acquisition unit: a window bound, a timer and FORCE are events of the sequencer, as samples and mark edges are;
they take their turns by instant, then kind, and the sequencer takes the first transition that holds, A before B, with its actions; the event's own record
follows the recording state and WIN_GATE. A record goes to WPTR or to BASE behind a WRAP word, is lost into a gap, or ends a snapshot. REARM, RUN and STOP
act by the unit's state; RPTR frees the region up to a record's start. (An event waits while a result in progress can still come before it: log entry 60.) -/
def Obligations.AcquisitionUnitsFollowTheirSequencer : Prop :=
  (∀ (m : Master) (u : Fin 8) (acc : Bool) (s : State),
    let n := u.val
    let h := hostHears acc s.dev
    let x := getAcq h n
    let stat := ACQ_STAT n
    (∀ (w : Fin 2) (t : Nat), clocked s.dev = false → Gives (.windowBound u w t acc) s h ∧ Gives (.acqTimerExpiry u w acc) s h) ∧
    (∀ (w : Fin 2) (t : Nat), clocked s.dev = true → winPos h n w.val = true → Gives (.windowBound u w t acc) s (winBoundEvent n w.val (clockToNs t h))) ∧
    (∀ (w : Fin 2) (t j : Nat), clocked s.dev = true → winPos h n w.val = false → winOn h n w.val = true → acqActive h n = true → boundOf x w.val = some j →
      Gives (.windowBound u w t acc) s (winBoundEvent n w.val (clockToNs (winBound h n w.val j).toNat h))) ∧
    (∀ (w : Fin 2) (t : Nat), clocked s.dev = true → winPos h n w.val = false → (winOn h n w.val = false ∨ acqActive h n = false ∨ boundOf x w.val = none) →
      Gives (.windowBound u w t acc) s h) ∧
    (∀ w : Fin 2, clocked s.dev = true → (if w.val = 0 then x.tmr0 else x.tmr1) = none → Gives (.acqTimerExpiry u w acc) s h) ∧
    (∀ (w : Fin 2) (t : Nat), clocked s.dev = true → (if w.val = 0 then x.tmr0 else x.tmr1) = some t → let e := clockTo (t * nsUnits) h
      let y := getAcq e n
      (∀ t', (if w.val = 0 then y.tmr0 else y.tmr1) = some t' → Gives (.acqTimerExpiry u w acc) s (acqPut n 1 { t256 := t' * 256, ev := .timer w.val }
        (setAcq n (if w.val = 0 then { y with tmr0 := none } else { y with tmr1 := none }) e))) ∧
      ((if w.val = 0 then y.tmr0 else y.tmr1) = none → Gives (.acqTimerExpiry u w acc) s e)) ∧
    Takes (.force m u acc) m (ACQ_CTRL n) (fset 0 ACQ_CTRL_CMD 1) acc s (fun d => acqPut n 100 { t256 := tbNs d * 256, ev := .force } d) ∧
    Takes (.acqRearm m u acc) m (ACQ_CTRL n) (fset 0 ACQ_CTRL_CMD 2) acc s (Machine.acqRearm n) ∧
    Takes (.run m u acc) m (ACQ_CTRL n) (fset 0 ACQ_CTRL_CMD 3) acc s (fun d =>
      if fnIs d (fnAcq n) .ready then wf stat ACQ_STAT_RUN 1 (acqStart n d) else d) ∧
    Takes (.stop m u acc) m (ACQ_CTRL n) (fset 0 ACQ_CTRL_CMD 4) acc s (fun d => if rb d stat ACQ_STAT_RUN then acqLeave n d else d) ∧
    (∀ v : Word, Takes (.rptrWrite m u v) m (ACQ_RPTR n) v true s (fun d =>
      let size := 2 ^ rf d (ACQ_CFG n) ACQ_CFG_SIZE_LOG2
      let used (p : Nat) : Nat := (p + size - (rd d (ACQ_RPTR n)).toNat) % size
      if streamOn d 1 n then d
      else if v.toNat % 8 ≠ 0 ∨ size ≤ v.toNat ∨ used (rd d (ACQ_WPTR n)).toNat < used v.toNat then wf stat ACQ_STAT_RPTR_ERR 1 d
      else wr (ACQ_RPTR n) v (setAcq n { getAcq d n with fifo := (getAcq d n).fifo.filter (fun e => decide (used v.toNat ≤ used e.1)) } d)))) ∧
  (∀ (n : Nat) (f : Dev), n < 8 →
    let stat := ACQ_STAT n
    let x := getAcq f n
    (∀ w, winOn f n w = false ∨ acqActive f n = false ∨ boundOf x w = none → winBoundEvent n w f = f) ∧
    (∀ w j, winOn f n w = true → acqActive f n = true → boundOf x w = some j →
      let b := winBound f n w j
      let next := setBound n w (if winPeriod f n w = 0 ∧ 1 ≤ j then none else some (j + 1)) f
      let runs := chanRuns f (winMaster f n w) = true ∧ b ≤ chanNm f (winMaster f n w)
      (winPos f n w = false → b ≤ (tbNs f : Int) → winBoundEvent n w f = acqPut n 0 { t256 := b.toNat * 256, ev := .bound } next) ∧
      (winPos f n w = false → (tbNs f : Int) < b → winBoundEvent n w f = f) ∧
      (winPos f n w = true → runs → winBoundEvent n w f = acqPut n 0 { t256 := tbNs f * 256, ev := .bound } next) ∧
      (winPos f n w = true → ¬ runs → winBoundEvent n w f = f)) ∧
    (∀ ord e, acqActive f n = false → acqPut n ord e f = f) ∧
    (∀ ord e, acqActive f n = true →
      let full : Bool := acqStream f n && e.bytes.isSome && decide (64 ≤ (x.wait.filter (fun y => y.2.bytes.isSome)).length)
      let y := { e with win0 := winInside f n 0 e.t256, win1 := winInside f n 1 e.t256, tooMany := full }
      acqPut n ord e f = setAcq n { x with wait := putSorted (e.t256 * 256 + ord) y x.wait } f) ∧
    (∀ w t, let at_ : Int := if winPos f n w then chanPosAt f (winMaster f n w) t else (t / 256 : Nat)
      let o := at_ - winStart f n w
      winInside f n w t = true ↔ winOn f n w = true ∧ 0 ≤ o ∧ (if winPeriod f n w = 0 then o else o % (winPeriod f n w : Int)) < winLen f n w) ∧
    (∀ e : AcqEv,
      let a := rd f (ACQ_S_A n (rf f stat ACQ_STAT_STATE))
      let b := rd f (ACQ_S_B n (rf f stat ACQ_STAT_STATE))
      (seqHolds f n e a = true → seqEvent n e f = seqTake n e.t256 a f) ∧
      (seqHolds f n e a = false → seqHolds f n e b = true → seqEvent n e f = seqTake n e.t256 b f) ∧
      (seqHolds f n e a = false → seqHolds f n e b = false → seqEvent n e f = f)) ∧
    (∀ (e : AcqEv) (w : Word), let sel := fget w ACQ_S_A_SEL
      let thr := (rd f (ACQ_CH_THR n sel)).toInt
      let cond := fget w ACQ_S_A_COND
      let holds := seqHolds f n e w = true
      (cond = 0 → ¬ holds) ∧ (cond = 1 → holds) ∧
      (cond = 2 → (holds ↔ ∃ v, e.ev = .sample sel v ∧ thr ≤ v)) ∧ (cond = 3 → (holds ↔ ∃ v, e.ev = .sample sel v ∧ v < thr)) ∧
      (cond = 4 → (holds ↔ e.ev = .mark sel true)) ∧ (cond = 5 → (holds ↔ e.ev = .mark sel false)) ∧
      (cond = 6 → (holds ↔ e.ev = .timer (sel % 2))) ∧
      (cond = 7 → sel % 2 = 0 → (holds ↔ rf f (ACQ_CLIM n) ACQ_CLIM_CNT0_or_LIM0 ≤ rf f (ACQ_CNT n) ACQ_CNT_CNT0_or_LIM0)) ∧
      (cond = 7 → sel % 2 = 1 → (holds ↔ rf f (ACQ_CLIM n) ACQ_CLIM_CNT1_or_LIM1 ≤ rf f (ACQ_CNT n) ACQ_CNT_CNT1_or_LIM1)) ∧
      (cond = 8 → (holds ↔ (if sel % 2 = 0 then e.win0 else e.win1) = true)) ∧ (cond = 9 → (holds ↔ (if sel % 2 = 0 then e.win0 else e.win1) = false)) ∧
      (cond = 10 → (holds ↔ e.ev = .force))) ∧
    (∀ (w : Word) (t : Nat), let g := seqTake n t w f
      let y := getAcq g n
      let ns := t / 256
      let on := fget w ACQ_S_A_REC_ON = 1
      let off := fget w ACQ_S_A_REC_OFF = 1
      let trig := fget w ACQ_S_A_TRIG = 1 ∧ acqStream f n = false ∧ rb f stat ACQ_STAT_TRIGGERED = false
      let post := (rd f (ACQ_POST n)).toNat
      let tmr0 := (rd f (ACQ_TMR0 n)).toNat
      let tmr1 := (rd f (ACQ_TMR1 n)).toNat
      let c0 := rf f (ACQ_CNT n) ACQ_CNT_CNT0_or_LIM0
      let c1 := rf f (ACQ_CNT n) ACQ_CNT_CNT1_or_LIM1
      rf g stat ACQ_STAT_STATE = fget w ACQ_S_A_NEXT ∧
      (fget w ACQ_S_A_CNT = 1 → rf g (ACQ_CNT n) ACQ_CNT_CNT0_or_LIM0 = min 65535 (c0 + 1) ∧ rf g (ACQ_CNT n) ACQ_CNT_CNT1_or_LIM1 = c1) ∧
      (fget w ACQ_S_A_CNT = 2 → rf g (ACQ_CNT n) ACQ_CNT_CNT1_or_LIM1 = min 65535 (c1 + 1) ∧ rf g (ACQ_CNT n) ACQ_CNT_CNT0_or_LIM0 = c0) ∧
      (fget w ACQ_S_A_CNT = 3 → rd g (ACQ_CNT n) = 0) ∧ (fget w ACQ_S_A_CNT = 0 → rd g (ACQ_CNT n) = rd f (ACQ_CNT n)) ∧
      (y.tmr0, y.tmr1) = (match fget w ACQ_S_A_TMR with
        | 1 => (some (ns + tmr0), x.tmr1) | 2 => (x.tmr0, some (ns + tmr1)) | 3 => (none, none) | _ => (x.tmr0, x.tmr1)) ∧
      (on → off → rb g stat ACQ_STAT_REC = !rb f stat ACQ_STAT_REC) ∧ (on → ¬ off → rb g stat ACQ_STAT_REC = true) ∧
      (¬ on → off → rb g stat ACQ_STAT_REC = false) ∧ (¬ on → ¬ off → rb g stat ACQ_STAT_REC = rb f stat ACQ_STAT_REC) ∧
      (trig → rb g stat ACQ_STAT_TRIGGERED = true ∧ y.trigAt = some ns ∧ y.left = post ∧ (post = 0 → rb g stat ACQ_STAT_DONE = true)) ∧
      (¬ trig → rb g stat ACQ_STAT_TRIGGERED = rb f stat ACQ_STAT_TRIGGERED ∧ y.trigAt = x.trigAt ∧ y.left = x.left) ∧
      (rb f (ACQ_CFG n) ACQ_CFG_TRIG_REC = false → y.made = x.made) ∧
      (rb f (ACQ_CFG n) ACQ_CFG_TRIG_REC = true → let from_ := rf f stat ACQ_STAT_STATE
        y.made = putSorted (256 + from_) ⟨256 + from_, t, acqRecord 5 from_ 2
          (fget w ACQ_S_A_NEXT + 8 * fget w ACQ_S_A_TRIG + 16 * b2n (rb g stat ACQ_STAT_REC)) (rd g (ACQ_CNT n)).toNat ns none⟩ x.made)) ∧
    (∀ e : AcqEv, let g := if e.ev = .fire then f else seqEvent n e f
      let gate : Bool := match rf g (ACQ_CFG n) ACQ_CFG_WIN_GATE with | 0 => true | 1 => e.win0 | 2 => e.win1 | _ => e.win0 || e.win1
      let posted (g : Dev) : Dev := match e.post with | some (k, v) => postOperand k v g | none => g
      (e.bytes = none → acqTurn n e f = g) ∧
      (∀ b, e.bytes = some b → e.ev ≠ .fire → rb g stat ACQ_STAT_REC = false ∨ gate = false → acqTurn n e f = g) ∧
      (∀ b, e.bytes = some b → e.ev = .fire ∨ (rb g stat ACQ_STAT_REC = true ∧ gate = true) → acqTurn n e f = posted
        (if e.tooMany then acqLose n (e.t256 / 256) g else acqMade n ⟨if e.ev = .fire then e.src else 256 + e.src, e.t256, b⟩ g))) ∧
    (∀ instant bytes, let size := 2 ^ rf f (ACQ_CFG n) ACQ_CFG_SIZE_LOG2
      let r := (rd f (ACQ_RPTR n)).toNat
      let w := (rd f (ACQ_WPTR n)).toNat
      let held := acqTake size w (if x.gap = none then [bytes.length, 24] else [24, bytes.length])
      let lost := size ≤ (w + size - r) % size + held
      (acqStream f n = true → lost → acqWrite n instant bytes f = acqLose n instant f) ∧
      (acqStream f n = true → ¬ lost → x.gap = none → let g := acqStore n bytes false f
        acqWrite n instant bytes f = acqCopy (getAcq g n).fifo.length n g) ∧
      (∀ k a b, acqStream f n = true → ¬ lost → x.gap = some (k, a, b) →
        let g := acqStore n bytes false (wf stat ACQ_STAT_GAP_OPEN 0 (acqStore n (acqRecord 6 0 3 0 k a (some b)) true (setAcq n { x with gap := none } f)))
        acqWrite n instant bytes f = acqCopy (getAcq g n).fifo.length n g) ∧
      (acqStream f n = false → rb f stat ACQ_STAT_DONE = true → acqWrite n instant bytes f = f) ∧
      (acqStream f n = false → rb f stat ACQ_STAT_DONE = false → rb f stat ACQ_STAT_TRIGGERED = false → acqWrite n instant bytes f = acqStore n bytes false f) ∧
      (acqStream f n = false → rb f stat ACQ_STAT_DONE = false → rb f stat ACQ_STAT_TRIGGERED = true → let g := acqWrite n instant bytes f
        rb g stat ACQ_STAT_DONE = decide (x.left ≤ 1) ∧ (getAcq g n).left = x.left - 1 ∧
        (∀ t, x.trigAt = some t → t ≤ instant → (rd g (ACQ_TRIGPTR n)).toNat = (acqPlace size w bytes.length).1 % 2 ^ 32 ∧ (getAcq g n).trigAt = none) ∧
        ((∀ t, x.trigAt = some t → instant < t) → rd g (ACQ_TRIGPTR n) = rd f (ACQ_TRIGPTR n)))) ∧
    (∀ instant, let g := acqLose n instant f
      rb g stat ACQ_STAT_GAP_OPEN = true ∧ (rd g (ACQ_LOST n)).toNat = min (2 ^ 32 - 1) ((rd f (ACQ_LOST n)).toNat + 1) ∧
      (x.gap = none → (getAcq g n).gap = some (1, instant, instant)) ∧
      (∀ k a b, x.gap = some (k, a, b) → (getAcq g n).gap = some (min (2 ^ 32 - 1) (k + 1), a, instant))) ∧
    (∀ bytes gap, let size := 2 ^ rf f (ACQ_CFG n) ACQ_CFG_SIZE_LOG2
      let base := (rd f (ACQ_BASE n)).toNat
      let w := (rd f (ACQ_WPTR n)).toNat
      let at_ := if size < w + bytes.length then 0 else w
      let next := if at_ + bytes.length = size then 0 else at_ + bytes.length
      let g := acqStore n bytes gap f
      g.memq = f.memq ++ (if at_ = w then [] else [MemOp.write (base + w) (leBytes 4 0xF0000000)]) ++ [MemOp.write (base + at_) bytes] ∧
      (rd g (ACQ_WPTR n)).toNat = next % 2 ^ 32 ∧
      ((at_ ≠ w ∨ next = 0) → rb g stat ACQ_STAT_WRAPPED = true) ∧ (at_ = w → next ≠ 0 → rb g stat ACQ_STAT_WRAPPED = rb f stat ACQ_STAT_WRAPPED) ∧
      (getAcq g n).fifo = if acqStream f n then x.fifo ++ [(at_, bytes, gap)] else x.fifo) ∧
    (
      let e := Machine.acqRearm n f
      rb e stat ACQ_STAT_DONE = false ∧ rb e stat ACQ_STAT_TRIGGERED = false ∧ rb e stat ACQ_STAT_WRAPPED = false ∧ rf e stat ACQ_STAT_STATE = 0 ∧
      rd e (ACQ_WPTR n) = 0 ∧ rb e stat ACQ_STAT_REC = rb f stat ACQ_STAT_REC) ∧
    (
      let e := acqStart n f
      rf e stat ACQ_STAT_STATE = 0 ∧ rb e stat ACQ_STAT_REC = rb f (ACQ_CFG n) ACQ_CFG_REC_INIT ∧ rd e (ACQ_WPTR n) = 0 ∧ rd e (ACQ_CNT n) = 0 ∧
      (getAcq e n).tmr0 = none ∧ (getAcq e n).tmr1 = none) ∧
    (
      let e := acqLeave n f
      rb e stat ACQ_STAT_RUN = false ∧ (getAcq e n).tmr0 = none ∧ (getAcq e n).tmr1 = none ∧ (x.wait = [] → e.memq = f.memq))) ∧
  (∀ (α : Type) (k : Nat) (v : α) (l : List (Nat × α)), l.Pairwise (fun a b => a.1 ≤ b.1) →
    (putSorted k v l).Pairwise (fun a b => a.1 ≤ b.1) ∧ (putSorted k v l).Perm ((k, v) :: l) ∧
    (putSorted k v l).filter (fun e => e.1 == k) = l.filter (fun e => e.1 == k) ++ [(k, v)]) ∧
  (∀ (c u : Nat) (code : Int) (t : Nat) (f : Dev),
    let y := getAcqCh (getAcq f u) c
    let thr := (rd f (ACQ_CH_THR u c)).toInt
    let hyst : Int := rf f (ACQ_CH_MARK u c) ACQ_CH_MARK_HYST
    let skew := (rd f (ACQ_CH_SKEW u c)).toInt
    let put (rise coarse : Bool) (tq : Int) : Dev :=
      let at_ := (tq - skew).toNat
      let q := rf f (ACQ_CH_MARK u c) ACQ_CH_MARK_MASTER
      let pos := chanPosAt f q at_
      acqPut u (3 + c) { t256 := at_, ev := .mark c rise, src := c,
                         bytes := some (acqRecord 3 c 3 (b2n rise + 2 * b2n coarse + 4 * b2n (chanRuns f q)) (at_ % 256) (at_ / 256) (some (ofInt 64 pos))),
                         post := if rb f (ACQ_CH_CFG u c) ACQ_CH_CFG_OPERAND then some (0x900 + 16 * u + c, BitVec.ofInt 32 pos) else none }
        (setAcqCh u c { y with high := rise } f)
    let rise := y.high = false ∧ thr + hyst ≤ code
    let fall := y.high = true ∧ code < thr - hyst
    (¬ rise → ¬ fall → acqMark u c code t f = f) ∧
    (∀ up : Bool, (if up then rise else fall) →
      (y.prev = none → acqMark u c code t f = put up true (t * 256)) ∧
      (∀ c0 t0, y.prev = some (c0, t0) → rf f (ACQ_CH_MARK u c) ACQ_CH_MARK_MAXGAP * 1000 < t - t0 → acqMark u c code t f = put up true (t * 256)) ∧
      (∀ c0 t0, y.prev = some (c0, t0) → t - t0 ≤ rf f (ACQ_CH_MARK u c) ACQ_CH_MARK_MAXGAP * 1000 → acqMark u c code t f =
        put up false (t0 * 256 + divNearI (((if up then thr + hyst else thr - hyst) - c0) * ((t : Int) - t0) * 256) (code - c0)))))

/-! ### Work items and cores (spec/13) -/

/-- R393..R400: SUBMIT takes 32 bytes from shared SRAM or the core's TCM-D and is accepted into a slot of the item's pool or refused with the first code that
applies; CANCEL removes what has not been dispatched; an operand goes as one copy to every item that names its key, or counts as UNMATCHED or DROPPED; a
release point makes a matched item ready; a standing item spawns an instance, or waits for a slot with one record. (Which free slot is taken is a free
value: log entry 21.) -/
def Obligations.WorkItemsAreSubmittedAndFed : Prop :=
  (∀ (m : Master) (v : Word) (s : State),
    let d := hostHears true s.dev
    (∀ (k : Fin 16) (acc : Bool), Takes (.submit m k v acc) m (SCH_CORE_SUBMIT k.val) v acc s (fun d =>
      match submitBytes s.mem k.val v.toNat with
      | none => wr (SCH_CORE_SUBMIT_RES k.val) 65536 (wf SCH_ERR SCH_ERR_BAD_DESC 1 d)
      | some b => match submitItem b d with
        | (e, .ok n) => wr (SCH_CORE_SUBMIT_RES k.val) (BitVec.ofNat 32 (0x80000000 + n)) e
        | (e, .error c) => wr (SCH_CORE_SUBMIT_RES k.val) (BitVec.ofNat 32 (65536 * 2 ^ c)) e)) ∧
    (∀ acc : Bool, Takes (.schCancel m v acc) m SCH_CANCEL v acc s (cancelItem (v.toNat % 4096))) ∧
    (∀ key : Fin 65536, InGale (.operandPost key v) true s (fun d =>
      let named := (d.sch.items.filter (fun e => namesKey e.2 key.val)).map (·.1)
      if named = [] then bump SCH_CNT SCH_CNT_UNMATCHED d else forEach named (fun n => giveCopy n key.val v) d)) ∧
    Takes (.postKey m v) m SCH_POST_KEY v true s (fun d =>
      if 0x8000 ≤ v.toNat % 65536 then postOperand (v.toNat % 65536) (rd d SCH_POST_VAL) d else wf SCH_ERR SCH_ERR_BAD_KEY 1 d) ∧
    InGale .operandAgeExpiry true s (fun d =>
      let age := rf d SCH_OPCFG SCH_OPCFG_OP_AGE
      let old (c : OpCopy) : Bool := decide (age < tickNum d - c.tick)
      if age = 0 then d
      else bumpBy SCH_CNT SCH_CNT_DROPPED (d.sch.items.foldl (fun n e => n + (e.2.copies.filter old).length) 0)
        { d with sch := { d.sch with items := d.sch.items.map (fun e => (e.1, { e.2 with copies := e.2.copies.filter (fun c => !(old c)) })) } }) ∧
    (∀ n : Fin 4096, clocked s.dev = true → (∀ i, getItem d n.val = some i → i.relMode ≠ 1 ∨ i.relReached = true) → Gives (.releasePoint n) s d) ∧
    (∀ (n : Fin 4096) (i : Item), clocked s.dev = true → getItem d n.val = some i → i.relMode = 1 → i.relReached = false →
      Gives (.releasePoint n) s (relPoint n.val false (clockToNs i.release d))) ∧
    (∀ (key : Fin 65536) (n : Fin 4096), clocked s.dev = false →
      Gives (.operandPost key v) s d ∧ Gives .operandAgeExpiry s d ∧ Gives (.releasePoint n) s d)) ∧
  (∀ (mem : Memory) (k a : Nat), k < 16 →
    let tcm := 0x10010000 + 0x20000 * k
    let inside (lo hi : Nat) : Prop := lo ≤ a ∧ a + 32 ≤ hi
    (inside 0x20000000 0x20800000 → submitBytes mem k a = some (memReadN mem a 32)) ∧
    (inside 0x10000 0x20000 → submitBytes mem k a = some (memReadN mem (0x10000000 + k * 0x20000 + a) 32)) ∧
    (inside tcm (tcm + 0x10000) → submitBytes mem k a = some (memReadN mem a 32)) ∧
    (¬ inside 0x20000000 0x20800000 → ¬ inside 0x10000 0x20000 → ¬ inside tcm (tcm + 0x10000) → submitBytes mem k a = none)) ∧
  (∀ (b : List Byte) (e : Dev),
    let w (o n : Nat) : Nat := leNat ((b.drop o).take n)
    let ctrl := w 0 4
    let i := parseItem b
    let count := ctrl / 2 ^ 28 % 8
    let standing : Prop := ctrl / 2 ^ 21 % 2 = 1
    let bad : Prop := i.plane = 3 ∨ 4 < count ∨ 2 ^ 31 ≤ ctrl ∨ (∃ k, k < 4 ∧ count ≤ k ∧ w (16 + 2 * k) 2 ≠ 0) ∨ (i.relMode = 0 ∧ i.release ≠ 0)
    let key : Prop := ∃ k ∈ i.keys, keyDefined k = false
    let shape : Prop := (standing ∧ (count = 0 ∨ i.relMode ≠ 0)) ∨ (i.commit = true ∧ i.plane ≠ 0) ∨ i.relMode = 3 ∨
      (i.relMode = 2 ∧ (getFn e (0xD0 + i.master)).included = false)
    let early : Prop := i.plane = 0 ∧ e.cfg.state ≠ .armed
    let full : Prop := slotPool e i.plane = none
    (i.cls = ctrl % 64 ∧ i.maxInst = ctrl / 64 % 4 ∧ i.flow = ctrl / 256 % 256 ∧ i.prio = ctrl / 2 ^ 16 % 8 ∧ i.plane = ctrl / 2 ^ 19 % 4 ∧
      (i.st = .standing ↔ standing) ∧ i.commit = (ctrl / 2 ^ 22 % 2 == 1) ∧ i.latest = (ctrl / 2 ^ 23 % 2 == 1) ∧ i.relMode = ctrl / 2 ^ 24 % 4 ∧
      i.master = ctrl / 2 ^ 26 % 4 ∧ i.entry = BitVec.ofNat 32 (w 4 4) ∧ i.arg = BitVec.ofNat 32 (w 8 4) ∧ i.coreMask = w 12 2 ∧ i.outKey = w 14 2 ∧
      i.keys = [w 16 2, w 18 2, w 20 2, w 22 2].take count ∧ i.release = w 24 4 + 2 ^ 32 * w 28 4) ∧
    (bad → submitRefusal e b = some 0) ∧ (¬ bad → key → submitRefusal e b = some 1) ∧ (¬ bad → ¬ key → shape → submitRefusal e b = some 0) ∧
    (¬ bad → ¬ key → ¬ shape → early → submitRefusal e b = some 2) ∧ (¬ bad → ¬ key → ¬ shape → ¬ early → full → submitRefusal e b = some 3) ∧
    (¬ bad → ¬ key → ¬ shape → ¬ early → ¬ full → submitRefusal e b = none) ∧
    (∀ c, submitRefusal e b = some c → submitItem b e = (wf SCH_ERR ⟨c, c⟩ 1 e, .error c)) ∧
    (submitRefusal e b = none → ∃ n f, freeSlot e = (n, f) ∧
      let g := checkItem n (setItem n { i with
        reserved := (slotPool e i.plane).getD false, relReached := i.relMode == 1 && decide (i.release ≤ tbNs e) } f)
      submitItem b e = (match getItem g n with
        | some j => if j.relMode = 2 ∧ chanRuns g j.master = true ∧ sext 64 j.release * 2 ^ 32 ≤ chanPos g j.master then relPoint n true g else g
        | none => g, .ok n))) ∧
  (∀ (plane : Nat) (e : Dev),
    let reserve : Prop := plane = 0 ∧ slotsUsed e true < rf e SCH_RES SCH_RES_CTRL_SLOTS
    let shared : Prop := slotsUsed e false < 4096 - rf e SCH_RES SCH_RES_CTRL_SLOTS
    let ops := min 8192 (rf e SCH_RES SCH_RES_CTRL_OPS)
    let opReserve : Prop := plane = 0 ∧ opsUsed e true < ops
    let opShared : Prop := opsUsed e false < 8192 - ops
    (reserve → slotPool e plane = some true) ∧ (¬ reserve → shared → slotPool e plane = some false) ∧ (¬ reserve → ¬ shared → slotPool e plane = none) ∧
    (opReserve → opPool e plane = some true) ∧ (¬ opReserve → opShared → opPool e plane = some false) ∧
    (¬ opReserve → ¬ opShared → opPool e plane = none)) ∧
  (∀ (n : Nat) (e : Dev),
    (getItem e n = none → cancelItem n e = e ∧ (∀ b, relPoint n b e = e) ∧ ∀ k v, giveCopy n k v e = e) ∧
    (∀ i, getItem e n = some i → (i.st = .standing ∨ i.st = .waiting) → cancelItem n e = delItem n e) ∧
    (∀ i, getItem e n = some i → (i.st = .held ∨ ∃ k, i.st = .running k) → cancelItem n e = e) ∧
    (∀ i, getItem e n = some i → i.st = .ready → i.parent ≠ none → cancelItem n e = e) ∧
    (∀ i, getItem e n = some i → i.st = .ready → i.parent = none → i.seq = none → cancelItem n e = delItem n e) ∧
    (∀ i q, getItem e n = some i → i.st = .ready → i.parent = none → i.seq = some q → cancelItem n e =
      releaseFlow 4097 i.flow (setFlow i.flow { getFlow e i.flow with gone := q :: (getFlow e i.flow).gone } (delItem n e)))) ∧
  (∀ (i : Item) (k : Nat), namesKey i k = true ↔ k ∈ i.keys ∧ (i.st = .standing ∨ i.st = .waiting ∨ (i.st = .ready ∧ i.parent = none))) ∧
  (∀ (n key : Nat) (v : Word) (i : Item) (e : Dev), getItem e n = some i →
    let old : Prop := i.latest = true ∧ ∃ c ∈ i.copies, c.key = key
    (old → giveCopy n key v e =
      setItem n { i with copies := i.copies.map (fun c => if c.key = key then { c with value := v, tick := tickNum e } else c) } e) ∧
    (¬ old → opPool e i.plane = none → giveCopy n key v e = wf SCH_ERR SCH_ERR_FULL_OPS 1 (bump SCH_CNT SCH_CNT_DROPPED e)) ∧
    (∀ res, ¬ old → opPool e i.plane = some res →
      giveCopy n key v e = checkItem n (setItem n { i with copies := i.copies ++ [⟨key, v, tickNum e, res⟩] } e))) ∧
  (∀ (n : Nat) (behind : Bool) (i : Item) (e : Dev), getItem e n = some i →
    let i' := { i with relReached := true }
    let f := setItem n i' e
    let g := if behind then bump SCH_OCC SCH_OCC_LATE_REL f else f
    (i.relReached = true → relPoint n behind e = e) ∧
    (i.relReached = false → i.st = .waiting → matched i = true → relPoint n behind e = becomeReady n i' g) ∧
    (i.relReached = false → i.st = .waiting → matched i = false → relPoint n behind e = g) ∧
    (i.relReached = false → i.st ≠ .waiting → i.st ≠ .standing → relPoint n behind e = g)) ∧
  (∀ i : Item, matched i = true ↔ ∀ k ∈ i.keys, (i.keys.filter (· == k)).length ≤ (i.copies.filter (fun c => c.key == k)).length) ∧
  (∀ (n : Nat) (i : Item) (e : Dev),
    let ordered : Bool := rb e (SCH_FLOW_CFG i.flow) SCH_FLOW_CFG_ORDERED
    let f := becomeReady n i e
    getItem f n = some { i with st := .ready, readyAt := e.tb, seq := if ordered then some (getFlow e i.flow).nextSeq else none,
                                deadline := if i.plane = 0 ∧ i.commit = true then some (commitDeadline e e.tb) else none } ∧
    (getFlow f i.flow).nextSeq = if ordered then ((getFlow e i.flow).nextSeq + 1) % 65536 else (getFlow e i.flow).nextSeq) ∧
  (∀ (e : Dev) (t : Nat), 0 < tickP e → 1500 * nsUnits ≤ tickP e →
    let c := commitDeadline e t
    t + 1500 * nsUnits ≤ c ∧ (∃ k, c = k * tickP e + (tickP e - 1500 * nsUnits)) ∧
    (∀ k, t + 1500 * nsUnits ≤ k * tickP e + (tickP e - 1500 * nsUnits) → c ≤ k * tickP e + (tickP e - 1500 * nsUnits))) ∧
  (∀ (n : Nat) (i : Item) (e : Dev), getItem e n = some i →
    let out := (e.sch.items.filter (fun x => x.2.parent == some n)).length
    let may := matched i = true ∧ out < i.maxInst + 1
    (i.st = .standing → checkItem n e = spawn 4 n e) ∧
    (i.st = .waiting → checkItem n e = if matched i = true ∧ (i.relMode = 0 ∨ i.relReached = true) then becomeReady n i e else e) ∧
    (i.st ≠ .standing → i.st ≠ .waiting → checkItem n e = e) ∧
    (∀ k, i.st = .standing → ¬ may → spawn (k + 1) n e = e) ∧
    (∀ k, i.st = .standing → may → slotPool e i.plane = none →
      spawn (k + 1) n e = if i.spawnWait then e else eddyItem 9 0 0 n i 0 (setItem n { i with spawnWait := true } e)) ∧
    (∀ k res, i.st = .standing → may → slotPool e i.plane = some res →
      let given := takeOps i.keys i.copies
      spawn (k + 1) n e = spawn k n (becomeReady (freeSlot e).1
        { i with st := .ready, reserved := res, parent := some n, ops := given.1, copies := [], spawnWait := false }
        (setItem n { i with copies := given.2, spawnWait := false } (freeSlot e).2)))) ∧
  (∀ (k : Nat) (ks : List Nat) (a b : List OpCopy) (c : OpCopy), (∀ x ∈ a, x.key ≠ k) → c.key = k →
    takeOps (k :: ks) (a ++ c :: b) = (c.value :: (takeOps ks (a ++ b)).1, (takeOps ks (a ++ b)).2)) ∧
  (∀ e : Dev, (∃ k, k < 4096 ∧ getItem e k = none) → (freeSlot e).1 < 4096 ∧ getItem e (freeSlot e).1 = none)

/-- R401..R415: a dispatch decision gives the first item in rank order that finds a core, idle or pre-empted, and a level; an item that no level fits is
delayed and holds back its plane. DONE releases the core's top item, holds it for its flow's order, or aborts it; a release pair is appended or sets
RELQ_ERR; RESUME and FLUSH act on a HALTED flow alone; a power window ends at its instant with its measured power, and slows items that exceed the budget.
An item in which a decision finds an uncorrectable error is aborted with ECC (R48). -/
def Obligations.WorkItemsAreDispatchedAndReleased : Prop :=
  (∀ (m : Master) (v : Word) (acc : Bool) (s : State),
    let d := hostHears acc s.dev
    (∀ ecc corr, clocked s.dev = true → Gives (.dispatch ⟨ecc, corr⟩ acc) s (dispatch (itemsEcc (ecc.map (·.val)) (countEcc corr d)))) ∧
    (∀ ecc corr, clocked s.dev = false → Gives (.dispatch ⟨ecc, corr⟩ acc) s d ∧ Gives (.budgetWindowEnd acc) s d) ∧
    (∀ k : Fin 16, Takes (.done m k v acc) m (SCH_CORE_DONE k.val) v acc s (fun d =>
      let e := accrue k.val d
      match topItem e k.val with
      | none => e
      | some (n, i) =>
        let f := if bitOf v 0 then e else updateEst i e
        let i' := { i with doneVal := rd f (SCH_CORE_DONE_VAL k.val), st := .held }
        if i.late then abortItem n 1 k.val (popTop k.val f)
        else if i.relErr then abortItem n 7 k.val (popTop k.val f)
        else if bitOf v 0 then abortItem n 0 k.val (popTop k.val f)
        else if i.seq = none then releaseItem n i' k.val (popTop k.val (setItem n i' f))
        else releaseFlow 4097 i.flow (popTop k.val (setItem n i' f)))) ∧
    (∀ k : Fin 16, Takes (.relqDataWrite m k v) m (SCH_CORE_RELQ_DATA k.val) v true s (fun d =>
      let a := (rd d (SCH_CORE_RELQ_ADDR k.val)).toNat
      match topItem d k.val with
      | none => d
      | some (n, i) =>
        if 16 ≤ i.relq.length ∨ 0x80000 ≤ a then wf (SCH_CORE_STAT k.val) SCH_CORE_STAT_RELQ_ERR 1 (setItem n { i with relErr := true } d)
        else wf (SCH_CORE_STAT k.val) SCH_CORE_STAT_RELQ_N (i.relq.length + 1) (setItem n { i with relq := i.relq ++ [(a, v)] } d))) ∧
    (∀ f : Fin 256,
      let off := SCH_FLOW_CFG f.val
      let taken (w : Word) (d : Dev) : Dev :=
        if cfgActive d = true ∧ v.toNat % 4 ≠ (rd d off).toNat % 4 then accessErr .lockedWr m off d else fieldsTaken off w d
      Takes (.flowResume m f v acc) m off (fset v SCH_FLOW_CFG_CMD 1) acc s (fun d =>
        let e := taken (fset v SCH_FLOW_CFG_CMD 1) d
        if flowHalted e f.val then releaseFlow 4097 f.val (wf (SCH_FLOW_STAT f.val) SCH_FLOW_STAT_HALTED 0 e) else e) ∧
      Takes (.flowFlush m f v acc) m off (fset v SCH_FLOW_CFG_CMD 2) acc s (fun d => flowFlush f.val (taken (fset v SCH_FLOW_CFG_CMD 2) d))) ∧
    (clocked s.dev = true → Gives (.budgetWindowEnd acc) s (if tbRuns d = true then
      windowEnd (clockTo ((d.sch.winStart / windowLen d + 1) * windowLen d) d) else d))) ∧
  (∀ e : Dev,
    let ready := e.sch.items.filter (fun x => x.2.st == .ready)
    dispatch e = decide1 (ranked ready) [] e ∧
    (∀ blocked, decide1 [] blocked e = e) ∧
    (∀ n i t blocked, let core := (idleCore e i).or (preemptCore e i)
      (i.plane ∈ blocked → decide1 ((n, i) :: t) blocked e = decide1 t blocked e) ∧
      (i.plane ∉ blocked → core = none → i.delayed = true → fitLevel e i = none → decide1 ((n, i) :: t) blocked e = decide1 t (i.plane :: blocked) e) ∧
      (i.plane ∉ blocked → core = none → (i.delayed = false ∨ fitLevel e i ≠ none) → decide1 ((n, i) :: t) blocked e = decide1 t blocked e) ∧
      (∀ k l, i.plane ∉ blocked → core = some k → fitLevel e i = some l → decide1 ((n, i) :: t) blocked e = dispatchTo k n i l e) ∧
      (∀ k, i.plane ∉ blocked → core = some k → fitLevel e i = none →
        decide1 ((n, i) :: t) blocked e = decide1 t (i.plane :: blocked) (delayItem n i e))) ∧
    (∀ n i, delayItem n i e = if i.delayed then e
      else eddyItem 6 0 (throttleReason e) n i (committed4 e / 4) (bump SCH_THROTTLE SCH_THROTTLE_DELAYS (setItem n { i with delayed := true } e)))) ∧
  (∀ l : List (Nat × Item), (ranked l).Perm l ∧ (ranked l).Pairwise (fun x y => lexLt (rankKey y.1 y.2) (rankKey x.1 x.2) = false)) ∧
  (∀ (n : Nat) (i : Item),
    rankKey n i = [if i.plane = 0 then 0 else 1, 7 - i.prio, if i.plane = 2 then 1 else 0, i.readyAt, i.seq.getD 0, n]) ∧
  (∀ (e : Dev) (i : Item),
    let takes (k : Nat) : Prop := k < 16 ∧ coreState e k = 1 ∧ (rf e (SCH_CORE_CFG k) SCH_CORE_CFG_PLANES).testBit i.plane = true ∧
      (i.coreMask = 0 ∨ i.coreMask.testBit k = true)
    let idle (k : Nat) : Prop := takes k ∧ (getCore e k).stack = []
    let busy (k n : Nat) (y : Item) : Prop := takes k ∧ (getCore e k).stack.length < 4 ∧ topItem e k = some (n, y)
    let lowest (k n : Nat) (y : Item) : Prop := busy k n y ∧ ∀ k' n' y', busy k' n' y' → lexLt (rankKey n y) (rankKey n' y') = false
    let beats (k : Nat) (y : Item) : Prop := (i.plane = 0 ∧ y.plane ≠ 0) ∨
      ((i.plane = 0 ↔ y.plane = 0) ∧ y.prio < i.prio ∧ rb e (SCH_CORE_CFG k) SCH_CORE_CFG_PREEMPT = true)
    (∀ k, idleCore e i = some k ↔ idle k ∧ ∀ j, j < k → ¬ idle j) ∧ (idleCore e i = none ↔ ∀ k, ¬ idle k) ∧
    (∀ k, preemptCore e i = some k → ∃ n y, lowest k n y ∧ beats k y) ∧
    (∀ k n y, lowest k n y → beats k y → (∀ k' y', busy k' n y' → k' = k) → preemptCore e i = some k)) ∧
  (∀ (e : Dev) (i : Item),
    let slowest := rf e (SCH_CLASS i.cls) SCH_CLASS_SLOWEST
    let fits (eff l : Nat) : Prop := committed4 e + levelPower4 e l ≤ 4 * eff
    (i.plane = 0 ∨ effBudget e = none → fitLevel e i = some 0) ∧
    (∀ eff, i.plane ≠ 0 → effBudget e = some eff →
      (∀ l, fitLevel e i = some l ↔ l ≤ slowest ∧ fits eff l ∧ ∀ j, j < l → ¬ fits eff j) ∧ (fitLevel e i = none ↔ ∀ l, l ≤ slowest → ¬ fits eff l))) ∧
  (∀ e : Dev,
    let b := rf e SCH_BUDGET SCH_BUDGET_BUDGET_MW
    let hard : Int := 8 * rf e SCH_THERM SCH_THERM_T_HARD
    let soft : Int := 8 * rf e SCH_THERM SCH_THERM_T_SOFT
    let t := sext 16 (rf e PWR_THERM_STAT PWR_THERM_STAT_HOT)
    (b = 0 → effBudget e = none) ∧ (b ≠ 0 → hard ≤ t → effBudget e = some 0) ∧ (b ≠ 0 → t < hard → t < soft → effBudget e = some b) ∧
    (b ≠ 0 → soft ≤ t → t < hard → effBudget e = some ((b : Int) * (hard - t) / (hard - soft)).toNat) ∧
    committed4 e = 4 * rf e SCH_BASE SCH_BASE_BASE_MW + 4 * e.sch.ctrlMw + ((List.range 16).map (fun k => match topItem e k with
      | some (_, i) => if i.plane = 0 then 0 else rf e SCH_ECOEF ⟨8 * i.level + 7, 8 * i.level⟩ * (4 - i.level)
      | none => 0)).sum) ∧
  (∀ (k n l : Nat) (i : Item) (e : Dev), k < 16 → n < 4096 → l < 4 → i.plane < 4 →
    let f := dispatchTo k n i l e
    let given := if i.parent = none then (takeOps i.keys i.copies).1 else i.ops
    (∃ j, getItem f n = some j ∧ j.st = .running k ∧ j.level = l ∧ j.ops = given ∧ j.core = k ∧ j.relq = []) ∧
    (getCore f k).stack = n :: (getCore e k).stack ∧ (getCore f k).irq = true ∧ Out.coreIrq k 11 ∈ f.out ∧
    rb f (SCH_CORE_CUR k) SCH_CORE_CUR_NEW = true ∧ rb f (SCH_CORE_CUR k) SCH_CORE_CUR_VALID = true ∧ rf f (SCH_CORE_CUR k) SCH_CORE_CUR_SLOT = n ∧
    rd f (SCH_CORE_CUR_ENTRY k) = i.entry ∧ rd f (SCH_CORE_CUR_ARG k) = i.arg ∧ rd f (SCH_CORE_CUR_OP0 k) = given.getD 0 0 ∧
    rd f (SCH_CORE_CUR_OP1 k) = given.getD 1 0 ∧ rd f (SCH_CORE_CUR_OP2 k) = given.getD 2 0 ∧ rd f (SCH_CORE_CUR_OP3 k) = given.getD 3 0) ∧
  (∀ (n : Nat) (e : Dev),
    (∀ i, getItem e n = some i → itemsEcc [n] e = abortAny n 4 (eccRecord 0x30 (wf SCH_ERR SCH_ERR_ECC 1 e))) ∧
    (getItem e n = none → itemsEcc [n] e = e ∧ (∀ r, abortAny n r e = e) ∧ ∀ r k, abortItem n r k e = e)) ∧
  (∀ (n r k : Nat) (i : Item) (e : Dev), getItem e n = some i →
    let f := eddyItem 5 k r n i (wholeCycles i.qcycles) (delItem n e)
    (i.seq = none → abortItem n r k e = respawn f) ∧
    (∀ q, i.seq = some q →
      let g := setFlow i.flow { getFlow f i.flow with gone := q :: (getFlow f i.flow).gone } f
      let stops := rb g (SCH_FLOW_CFG i.flow) SCH_FLOW_CFG_ON_ABORT = true ∧ flowHalted g i.flow = false ∧ r ≠ 5
      (stops → abortItem n r k e = respawn (releaseFlow 4097 i.flow (eddyItem 8 k r n i 0 (wf (SCH_FLOW_STAT i.flow) SCH_FLOW_STAT_HALTED 1
        (setFlow i.flow { getFlow g i.flow with haltAt := q } g))))) ∧
      (¬ stops → abortItem n r k e = respawn (releaseFlow 4097 i.flow g)))) ∧
  (∀ (n k : Nat) (i : Item) (e : Dev),
    let f := eddyItem 4 k 0 n i (wholeCycles i.qcycles) (delItem n { e with sch := { e.sch with relOut := e.sch.relOut ++ i.relq } })
    releaseItem n i k e = respawn (if 0x8000 ≤ i.outKey then postOperand i.outKey i.doneVal f else f)) ∧
  (∀ (k f : Nat) (e : Dev),
    let next := rf e (SCH_FLOW_STAT f) SCH_FLOW_STAT_NEXT_REL
    let pass (g : Dev) : Dev := wf (SCH_FLOW_STAT f) SCH_FLOW_STAT_NEXT_REL (next + 1) g
    let waits (x : Nat × Item) : Prop := x.2.flow = f ∧ x.2.st = .held ∧ x.2.seq = some next
    (next ∈ (getFlow e f).gone → flowHalted e f = true → releaseFlow (k + 1) f e = e) ∧
    (next ∈ (getFlow e f).gone → flowHalted e f = false → releaseFlow (k + 1) f e =
      releaseFlow k f (pass (setFlow f { getFlow e f with gone := (getFlow e f).gone.filter (· != next) } e))) ∧
    (next ∉ (getFlow e f).gone → (∀ x ∈ e.sch.items, ¬ waits x) → releaseFlow (k + 1) f e = e) ∧
    (∀ a x b, next ∉ (getFlow e f).gone → e.sch.items = a ++ x :: b → (∀ y ∈ a, ¬ waits y) → waits x →
      releaseFlow (k + 1) f e = releaseFlow k f (releaseItem x.1 x.2 x.2.core (pass e)))) ∧
  (∀ (i : Item) (e : Dev),
    let est : Int := rf e (SCH_CLASS i.cls) SCH_CLASS_C_EST
    let new := est + ((i.qcycles / 2 ^ 34 : Nat) - est) / (2 ^ rf e SCH_BUDGET SCH_BUDGET_EST_SHIFT : Int)
    updateEst i e = wf (SCH_CLASS i.cls) SCH_CLASS_C_EST (max 0 (min (2 ^ 24 - 1) new)).toNat e) ∧
  (∀ (f : Nat) (e : Dev), (flowHalted e f = false → flowFlush f e = e) ∧
    (flowHalted e f = true →
      let behind (q : Nat) : Bool := q != (getFlow e f).haltAt && decide ((q + 65536 - (getFlow e f).haltAt) % 65536 < 32768)
      let victims := (e.sch.items.filter (fun x => x.2.flow == f && (match x.2.seq with | some q => behind q | none => false) &&
        (match x.2.st with | .held | .running _ => true | _ => false))).map (·.1)
      flowFlush f e = releaseFlow 4097 f (wf (SCH_FLOW_STAT f) SCH_FLOW_STAT_HALTED 0 (forEach victims (fun n => abortAny n 5) e)))) ∧
  (∀ e : Dev,
    let g := forUpTo 16 accrue e
    let u := g.sch
    let w := windowLen g
    let coef (l : Nat) : Nat := rf g SCH_ECOEF ⟨8 * l + 7, 8 * l⟩
    let cycles (c : List Nat) : Nat := ((List.range 4).map (fun l => c.getD l 0 / 2 ^ 34 * coef l)).sum
    let energy := 1600 * u.loopSteps + 400 * u.fires + 700 * u.scanInstr + 3000 * u.dispatches + cycles u.cyc
    let meas := min 65535 (rf g SCH_BASE SCH_BASE_BASE_MW + energy * nsUnits / w)
    let f := windowEnd e
    (windowLen e = tickP e * 2 ^ min 10 (rf e SCH_BUDGET SCH_BUDGET_WIN)) ∧
    ((effBudget g = none ∨ ∃ eff, effBudget g = some eff ∧ meas ≤ eff) →
      f.sch = { u with winStart := e.tb, loopSteps := 0, fires := 0, scanInstr := 0, dispatches := 0, ctrlDispatches := 0, cyc := [0, 0, 0, 0],
                       ctrlCyc := [0, 0, 0, 0],
                       ctrlMw := (1600 * u.loopSteps + 400 * u.fires + 700 * u.scanInstr + 3000 * u.ctrlDispatches + cycles u.ctrlCyc) * nsUnits / w } ∧
      rf f SCH_PWR_STAT SCH_PWR_STAT_MEAS_MW = meas ∧ rf f SCH_PWR_STAT SCH_PWR_STAT_EFF_MW = (effBudget g).getD 0xFFFF % 65536)) ∧
  (∀ (k n eff : Nat) (i : Item) (t : List (Nat × Nat × Item)) (e : Dev),
    (committed4 e ≤ 4 * eff → slowItems ((k, n, i) :: t) eff e = e) ∧
    (4 * eff < committed4 e → rf e (SCH_CLASS i.cls) SCH_CLASS_SLOWEST ≤ i.level → slowItems ((k, n, i) :: t) eff e = slowItems t eff e) ∧
    (∀ j, 4 * eff < committed4 e → i.level < rf e (SCH_CLASS i.cls) SCH_CLASS_SLOWEST → getItem (accrue k e) n = some j →
      let g := accrue k e
      let h := refreshCur k (rb g (SCH_CORE_CUR k) SCH_CORE_CUR_NEW) (setItem n { j with level := j.level + 1 } g)
      slowItems ((k, n, i) :: t) eff e = slowItems t eff (eddyItem 7 k (throttleReason h) n { j with level := j.level + 1 } (committed4 h / 4)
        (bump SCH_THROTTLE SCH_THROTTLE_SLOWS h)))) ∧
  (∀ (kind core plane prio level reason n flow seq cls w : Nat) (e : Dev),
    let rec_ (a b c x : Nat) : List Byte := leBytes 4 a ++ leBytes 4 b ++ leBytes 4 c ++ leBytes 4 x
    let mine := rec_ (kind * 2 ^ 28 + core % 16 * 2 ^ 24 + plane % 4 * 2 ^ 22 + prio % 8 * 2 ^ 19 + level % 4 * 2 ^ 17 + reason % 16 * 2 ^ 12 + n % 4096) (tbNs e)
      (flow % 256 * 2 ^ 24 + seq % 65536 * 2 ^ 8 + cls % 64) w
    let gap := if e.sch.eddyLost = 0 then [] else [rec_ 0 (tbNs e) 0 e.sch.eddyLost]
    let made := eddy kind core plane prio level reason n flow seq cls w e
    (Nat.testBit (rf e SCH_EDDY_CFG SCH_EDDY_CFG_KINDS) kind = false → made = e) ∧
    (Nat.testBit (rf e SCH_EDDY_CFG SCH_EDDY_CFG_KINDS) kind = true → e.sch.eddy.length + gap.length < 256 →
      made = eddyDrain 257 { e with sch := { e.sch with eddy := e.sch.eddy ++ gap ++ [mine], eddyLost := 0 } }) ∧
    (Nat.testBit (rf e SCH_EDDY_CFG SCH_EDDY_CFG_KINDS) kind = true → 256 ≤ e.sch.eddy.length + gap.length →
      made = bump SCH_EDDY_STAT SCH_EDDY_STAT_LOST { e with sch := { e.sch with eddyLost := e.sch.eddyLost + 1 } }))

/-- R390..R392, R403, R406: a core's timer and software interrupts, its RELEASE, HALT and ABORT_ITEM, a lockstep mismatch, and the read of CUR that takes
back the dispatch interrupt. -/
def Obligations.CoresAreStartedInterruptedAndHalted : Prop :=
  (∀ (m : Master) (v : Word) (acc : Bool) (s : State),
    (∀ k : Fin 16, InGale (.machineTimerInterrupt k) true s (fun d =>
      emit (.coreIrq k.val 7) (clockToNs (rd64 d (SCH_CORE_MTIMECMP_LO k.val) (SCH_CORE_MTIMECMP_HI k.val)) d))) ∧
    (∀ (k : Fin 16) (j : Fin 8) (t : Nat), clocked s.dev = false →
      Gives (.machineTimerInterrupt k) s (hostHears true s.dev) ∧ Gives (.lockstepMismatch j t acc) s (hostHears acc s.dev)) ∧
    (∀ k : Fin 16, Takes (.machineSoftwareInterrupt m k v) m (SCH_CORE_MSIP k.val) v true s (fun d =>
      let e := fieldsTaken (SCH_CORE_MSIP k.val) v d
      if bitOf v 0 && !bitOf (rd d (SCH_CORE_MSIP k.val)) 0 then emit (.coreIrq k.val 3) e else e)) ∧
    (∀ k : Fin 16, Takes (.coreRelease m k acc) m (SCH_CORE_CTRL k.val) (fset 0 SCH_CORE_CTRL_CMD 1) acc s (fun d =>
      let checker := k.val % 2 = 1 ∧ rb d (SCH_CORE_CFG (k.val - 1)) SCH_CORE_CFG_LOCK = true
      if checker ∨ coreState d k.val = 1 ∨ coreState d k.val = 2 ∨ rb d SYS_READY SYS_READY_CORES = false then d
      else
        let e := wf (SCH_CORE_STAT k.val) SCH_CORE_STAT_STATE 1 (setCore k.val { pc := rd d (SCH_CORE_BOOT k.val), since := d.tb } d)
        if k.val % 2 = 0 ∧ rb d (SCH_CORE_CFG k.val) SCH_CORE_CFG_LOCK = true then wf (SCH_CORE_STAT (k.val + 1)) SCH_CORE_STAT_STATE 2 e else e)) ∧
    (∀ k : Fin 16, Takes (.coreHalt m k acc) m (SCH_CORE_CTRL k.val) (fset 0 SCH_CORE_CTRL_CMD 2) acc s (fun d =>
      let e := wf (SCH_CORE_STAT k.val) SCH_CORE_STAT_STATE 0 (abortAll 4 k.val 2 d)
      if coreState d k.val ≠ 1 then d
      else if coreState d (k.val + 1) = 2 then wf (SCH_CORE_STAT (k.val + 1)) SCH_CORE_STAT_STATE 0 e else e)) ∧
    (∀ k : Fin 16, Takes (.abortItem m k acc) m (SCH_CORE_CTRL k.val) (fset 0 SCH_CORE_CTRL_CMD 3) acc s (fun d =>
      match (getCore d k.val).stack with
      | n :: _ => Machine.abortItem n 2 k.val (popTop k.val d)
      | [] => d)) ∧
    (∀ (j : Fin 8) (t : Nat), clocked s.dev = true →
      let e := clockToNs t (hostHears acc s.dev)
      let k := 2 * j.val
      let runs := rb e (SCH_CORE_CFG k) SCH_CORE_CFG_LOCK = true ∧ coreState e k = 1
      let f := wf (SCH_CORE_STAT (k + 1)) SCH_CORE_STAT_STATE 3 (wf (SCH_CORE_STAT k) SCH_CORE_STAT_STATE 3 (abortAll 4 k 3 e))
      (¬ runs → Gives (.lockstepMismatch j t acc) s e) ∧
      (runs → Gives (.lockstepMismatch j t acc) s (trigger 0x22 0x30 [k] f) ∧ coreState f k = 3 ∧ coreState f (k + 1) = 3)) ∧
    (∀ k : Fin 16, masterActs m s.dev = true →
      let off := SCH_CORE_CUR k.val
      let e := reached m off true s
      Gives (.curRead m k) s (emit (.read m off (readFor m e off)) (setCore k.val { getCore e k.val with irq := false } (wr off (rd e off &&& 0x7FFFFFFF#32) e)))) ∧
    (∀ k : Fin 16, masterActs m s.dev = false → Gives (.curRead m k) s (hostHears true s.dev))) ∧
  (∀ (n k r : Nat) (e : Dev),
    abortAll 0 k r e = e ∧ abortAll (n + 1) k r e = abortAll n k r (match (getCore e k).stack with
      | x :: _ => Machine.abortItem x r k (popTop k e)
      | [] => e)) ∧
  (∀ (k : Nat) (e : Dev),
    let d := accrue k e
    let f := setCore k { getCore d k with stack := (getCore d k).stack.drop 1, irq := false } d
    (topItem f k = none → popTop k e = refreshCur k false f) ∧
    (∀ n i, topItem f k = some (n, i) → let i' := { i with resumed := true, level := if i.plane = 0 then 0 else i.level }
      popTop k e = eddyItem 3 k 0 n i' 0 (refreshCur k false (setItem n i' f)))) ∧
  (∀ (k : Nat) (e : Dev), k < 16 →
    (topItem e k = none → ∀ isNew, rd (refreshCur k isNew e) (SCH_CORE_CUR k) = 0) ∧
    (∀ n i, topItem e k = some (n, i) → n < 4096 → i.level < 4 → i.plane < 4 → let f := refreshCur k false e
      rb f (SCH_CORE_CUR k) SCH_CORE_CUR_NEW = false ∧ rb f (SCH_CORE_CUR k) SCH_CORE_CUR_VALID = true ∧
      rb f (SCH_CORE_CUR k) SCH_CORE_CUR_RESUMED = i.resumed ∧ rf f (SCH_CORE_CUR k) SCH_CORE_CUR_SLOT = n ∧
      rf f (SCH_CORE_CUR k) SCH_CORE_CUR_LEVEL = i.level ∧ rf f (SCH_CORE_STAT k) SCH_CORE_STAT_LEVEL = i.level))

/-! ### Field link and CAN (spec/15) -/

/-- R442..R449, R455..R459, R501: a ready port sends a frame of 138 bytes at the next multiple of 31,250 ns; an upstream block is discarded, is too late, or
is taken with its round trip; the frame closes 30,500 ns after it started, with the values, substitutes and counts of its points; a broken line by itself
changes nothing; CLEAR and RESEND act in the next frames; an owner whose frames an expander does not apply is demoted (from the second frame with OWNER = 1
on: log entry 247). -/
def Obligations.FieldLinkFramesAreExchanged : Prop :=
  (∀ (p : Fin 8) (s : State),
    let d := hostHears true s.dev
    let n := p.val
    let ready := rb d SYS_READY SYS_READY_FLK
    let closed := flkCloseDue n d
    (∀ (t : Nat) (framed : Bool) (b : List Byte), clocked s.dev = false → Gives (.fieldLinkFrameStart p) s d ∧ Gives (.upstreamBlock p t framed b) s d ∧
      Gives (.frameClose p) s d ∧ Gives (.lineBreak p t) s d) ∧
    (clocked s.dev = true →
      Gives (.fieldLinkFrameStart p) s (if ready && tbRuns d then flkFrame n (flkNext closed n) (clockToNs (flkNext closed n) closed) else d) ∧
      (∀ (t : Nat) (framed : Bool) (b : List Byte),
        let late : Bool := match (getFlk d n).open_ with | some F => decide (F + 30500 < t + 7000) | none => true
        let e := clockToNs (t + 7000) (if late then closed else d)
        (ready = false → Gives (.upstreamBlock p t framed b) s d) ∧
        (ready = true → blockOk framed b = false → Gives (.upstreamBlock p t framed b) s (flkDiscard n t e)) ∧
        (ready = true → blockOk framed b = true → late = true → Gives (.upstreamBlock p t framed b) s (wf (FLK_PORT_STAT n) FLK_PORT_STAT_LATE 1 e)) ∧
        (ready = true → blockOk framed b = true → late = false → Gives (.upstreamBlock p t framed b) s (flkTake n t b e))) ∧
      ((getFlk d n).open_ = none → Gives (.frameClose p) s d) ∧
      (∀ F, (getFlk d n).open_ = some F → Gives (.frameClose p) s (flkClose n (clockToNs (F + 30500) d))) ∧
      (∀ t : Nat, Gives (.lineBreak p t) s (if ready then clockToNs t d else d)))) ∧
  (∀ (framed : Bool) (b : List Byte), blockOk framed b = true ↔ framed = true ∧ b.length = 35 ∧ beNat (b.drop 33) = crc16 (b.take 33)) ∧
  (∀ (m : Master) (p : Fin 8) (v : Word) (s : State),
    let off := FLK_PORT_CMD p.val
    Takes (.clear m p v) m off (fset v FLK_PORT_CMD_CMD 1) true s (fun d =>
      setFlk p.val { getFlk d p.val with clr := Nat.lor (getFlk d p.val).clr (fget v FLK_PORT_CMD_MASK) } d) ∧
    Takes (.resend m p v) m off (fset v FLK_PORT_CMD_CMD 2) true s (flkDownload p.val none)) ∧
  (∀ (p : Nat) (e : Dev), (∀ l, (getFlk e p).last = some l → l % 31250 = 0) →
    let F := flkNext e p
    F % 31250 = 0 ∧ e.tb ≤ F * nsUnits ∧ (∀ l, (getFlk e p).last = some l → F ≠ l) ∧
    (∀ G, G % 31250 = 0 → e.tb ≤ G * nsUnits → (getFlk e p).last ≠ some G → F ≤ G)) ∧
  (∀ (p F : Nat) (e : Dev),
    let x := getFlk e p
    let f := flkFrame p F e
    let body := flkBody e p x.seq x.clr x.queue.head?
    let outEn : Bool := fnIs e (fnFlk p) .running && rb e (FLK_PORT_STAT p) FLK_PORT_STAT_PARAM_DONE
    let param : List Byte := match x.queue.head? with
      | some q => leBytes 1 (q.e + (match q.c with | some c => 4 * c | none => 64)) ++ leBytes 1 q.pid ++ leBytes 2 q.val
      | none => leBytes 4 0
    f.out = .flkFrame p ((0xD5#8 :: body) ++ beBytes 2 (crc16 body)) :: e.out ∧ body.length = 135 ∧
    body.take 7 = leBytes 1 (b2n outEn + 2 * b2n (twnOwns e) + 4 * x.clr + 64 * b2n (!x.queue.isEmpty)) ++ leBytes 1 x.seq ++ leBytes 1 (twnFrameToken e) ++ param ∧
    (∀ k c, k < 4 → c < 16 → let n := flkPoint p k c
      (body.drop (7 + 2 * (16 * k + c))).take 2 = leBytes 2 (if ptType e n = 2 ∨ ptType e n = 4 then (rd e (FLK_PT_VAL n)).toNat % 4096 else 0)) ∧
    getFlk f p = { x with
      open_ := some F, last := some F, sent := x.sent + 1, seq := (x.seq + 1) % 256, blocks := [], bad := [], clr := 0, queue := x.queue.drop 1,
      owned := if twnOwns e then x.owned + 1 else 0, flight := x.flight ++ (x.queue.take 1).map (fun q => (q, x.sent)),
      stopF := if x.stopF = none ∧ fnIs e (fnFlk p) .stopping = true then some F else x.stopF }) ∧
  (∀ (p at_ F : Nat) (b : List Byte) (d : Dev), (getFlk d p).open_ = some F →
    let x := getFlk d p
    let e := blockHdr b % 4
    let rtt := min 255 ((at_ - (F + 400 + 7100 * e)) / 8)
    let g := wf (FLK_PORT_RTT p) ⟨8 * e + 7, 8 * e⟩ rtt (setFlk p { x with blocks := smPut x.blocks e b } d)
    (hdrBit b 7 = true ∨ x.owned < 2 → flkTake p at_ b d = g) ∧ (hdrBit b 7 = false → 2 ≤ x.owned → flkTake p at_ b d = twnDemote g) ∧
    flkDiscard p at_ d = bump (FLK_PORT_CNT p) FLK_PORT_CNT_CRC_ERR (setFlk p { x with bad := (at_ - (F + 400)) / 7100 :: x.bad } d)) ∧
  (∀ (p at_ : Nat) (b : List Byte) (d : Dev), (getFlk d p).open_ = none →
    flkTake p at_ b d = d ∧ flkDiscard p at_ d = bump (FLK_PORT_CNT p) FLK_PORT_CNT_CRC_ERR d ∧ flkClose p d = d) ∧
  (∀ (p : Fin 8) (e : Fin 4) (c : Fin 16) (b : List Byte) (d : Dev),
    let n := flkPoint p.val e.val c.val
    let w := blockIn b c.val
    let v := w % 4096
    let f := ptBlock p.val e.val c.val b d
    let value := (rd f (FLK_PT_VAL n)).toNat
    let subst := rb f (FLK_PT_STAT n) FLK_PT_STAT_SUBST
    let raw := (getFn d (fnFlk p.val)).state = .ready ∨ (getFn d (fnFlk p.val)).state = .off
    rf f (FLK_PT_STAT n) FLK_PT_STAT_CODE = w / 4096 % 16 ∧
    (rf d (FLK_PT_STAT n) FLK_PT_STAT_CODE = 0 → w / 4096 % 16 ≠ 0 → w < 2 ^ 16 →
      rb f (FLK_PT_STAT n) FLK_PT_STAT_EVT = true ∧ rb f (FLK_PORT_STAT p.val) FLK_PORT_STAT_DIAG = true) ∧
    (w < 4096 → ptType d n = 1 → value = v % 2 ∧ subst = false) ∧ (w < 4096 → ptType d n = 3 → value = v ∧ subst = false) ∧
    (w < 4096 → ptType d n = 5 → value = (cntStep v (getCnt d n)).count % 2 ^ 32 ∧ subst = false ∧ getCnt f n = cntStep v (getCnt d n)) ∧
    (4096 ≤ w → raw → ptInput d n = true → value = (if ptType d n = 1 then v % 2 else v) ∧ subst = false) ∧
    (4096 ≤ w → ¬ raw → ptType d n = 1 → value = rf d (FLK_PT_CFG n) FLK_PT_CFG_ISUB % 2 ∧ subst = true) ∧
    (4096 ≤ w → ¬ raw → ptType d n = 3 → value = rf d (FLK_PT_CFG n) FLK_PT_CFG_ISUB ∧ subst = true) ∧
    (4096 ≤ w → ¬ raw → ptType d n = 5 → value = (if (getCnt d n).zero then 0 else (getCnt d n).count) % 2 ^ 32 ∧ subst = true) ∧
    (ptType d n = 2 ∨ ptType d n = 4 → subst = decide (w / 4096 = 7) ∧ rd f (FLK_PT_VAL n) = rd d (FLK_PT_VAL n)) ∧
    (ptType d n = 0 → value = 0 ∧ subst = false)) ∧
  (∀ (v w : Nat) (x : FlkCnt),
    (x.zero = true → cntStep v x = { prev := some v, count := 0, zero := false }) ∧
    (x.zero = false → x.prev = none → cntStep v x = { x with prev := some v }) ∧
    (x.zero = false → x.prev = some w → cntStep v x = { x with prev := some v, count := (x.count + (v + 4096 - w) % 4096) % 2 ^ 32 })) ∧
  (∀ (p : Fin 8) (e : Fin 4) (d : Dev), smGet (getFlk d p.val).blocks e.val = none →
    let x := getFlk d p.val
    let stat := FLK_PORT_STAT p.val
    let m := (smGet x.missed e.val).getD 0 + 1
    let hold := rf d (FLK_PORT_CFG p.val) FLK_PORT_CFG_HOLD
    let incl : Bool := expIn d p.val e.val
    let f := wb stat ⟨e.val, e.val⟩ false (setFlk p.val { x with missed := smPut x.missed e.val m } d)
    let g := if incl ∧ e.val ∉ x.bad then bump (FLK_PORT_CNT p.val) FLK_PORT_CNT_MISS f else f
    let h := if incl ∧ m = hold + 1 then flkRecord p.val 2 e.val g else g
    (m ≤ hold → expClose p.val e.val d = h) ∧
    (hold < m → expClose p.val e.val d =
      forUpTo 16 (fun c d => if ptInput d (flkPoint p.val e.val c) then ptSubst (flkPoint p.val e.val c) d else d) h)) ∧
  (∀ (p : Fin 8) (e : Fin 4) (b : List Byte) (d : Dev), smGet (getFlk d p.val).blocks e.val = some b →
    let x := getFlk d p.val
    let stat := FLK_PORT_STAT p.val
    let k := e.val
    let uv := hdrBit b 5
    let known : Bool := x.uv.testBit k
    let f := setFlk p.val { x with missed := smDel x.missed k, uv := if uv && !known then x.uv + 2 ^ k else if !uv && known then x.uv - 2 ^ k else x.uv } d
    let g := wb stat ⟨k, k⟩ true (wb stat ⟨4 + k, 4 + k⟩ (hdrBit b 4) (wb stat ⟨8 + k, 8 + k⟩ uv (wb stat ⟨12 + k, 12 + k⟩ (hdrBit b 6) f)))
    let h := forUpTo 16 (fun c d => ptBlock p.val k c b d) (if (uv = true ∧ known = false) ∧ expIn d p.val k = true then flkRecord p.val 1 k g else g)
    let asks := (∃ c, c < 16 ∧ blockIn b c / 4096 = 8) ∧ expIn d p.val k = true ∧ (∀ q ∈ x.queue, q.e ≠ k) ∧ (∀ q ∈ x.flight, q.1.e ≠ k) ∧
      flkRaw d p.val = false ∧ fnIs d (fnFlk p.val) .faulted = false
    (asks → expClose p.val k d = flkDownload p.val (some k) h) ∧ (¬ asks → expClose p.val k d = h)) ∧
  (∀ (p F : Nat) (d : Dev), (getFlk d p).open_ = some F →
    let incl := (List.range 4).filter (expIn d p)
    let e := flkAnswers p (forUpTo 4 (expClose p) d)
    let heard : Bool := incl.any (fun k => (smGet (getFlk d p).blocks k).isSome)
    let dead := if heard then 0 else (getFlk e p).dead + 1
    let f := setFlk p { getFlk e p with open_ := none, dead := dead } e
    let frames := rd f (FLK_PORT_FRAMES p) + 1
    let g := wr (FLK_PORT_FRAMES p) frames f
    let limit := max 1 (rf d (FLK_PORT_CFG p) FLK_PORT_CFG_LOST_LIMIT)
    flkClose p d = postOpen SCH_OPEN0 (16 + p) (0x9E0 + p) frames (if limit ≤ dead then detectFault (fnFlk p) 1 g else g)) ∧
  (∀ (p : Nat) (d : Dev),
    let x := getFlk d p
    let due := x.flight.filter (fun q => decide (q.2 + 2 ≤ x.sent))
    let bit (i : Nat) (q : FlkParam × Nat) : Bool := match smGet x.blocks q.1.e with | some b => hdrBit b i | none => false
    let again := (due.filter (fun q => !bit 2 q && !bit 3 q)).map (·.1)
    let f := setFlk p { x with flight := x.flight.filter (fun q => decide (x.sent < q.2 + 2)), queue := again ++ x.queue, nak := x.nak || due.any (bit 3) } d
    (due.any (bit 3) = false → flkAnswers p d = paramDone p f) ∧
    (∀ a q b, due = a ++ q :: b → a.any (bit 3) = false → bit 3 q = true → flkAnswers p d = paramDone p (detectFault (fnFlk p) 2
      (wf (FLK_PORT_STAT p) FLK_PORT_STAT_PNAK 1 (wf (FLK_PORT_STAT p) FLK_PORT_STAT_PNAK_EXP q.1.e
        (wf (FLK_PORT_STAT p) FLK_PORT_STAT_PNAK_CH (q.1.c.getD 0) f)))))) ∧
  (∀ (p : Nat) (d : Dev),
    let x := getFlk d p
    let incl := (List.range 4).filter (expIn d p)
    let f := if fnActive d (fnFlk p) then d else wf (FLK_PORT_STAT p) FLK_PORT_STAT_PARAM_DONE 0 d
    flkDownload p none d = paramDone p (setFlk p { x with queue := incl.flatMap (expParams d p), flight := [], nak := false, loaded := true } f) ∧
    (∀ e, flkDownload p (some e) d = paramDone p (setFlk p { x with queue := x.queue ++ expParams d p e, loaded := true } f)) ∧
    paramDone p d = (if x.loaded = true ∧ x.queue = [] ∧ x.flight = [] ∧ x.nak = false then wf (FLK_PORT_STAT p) FLK_PORT_STAT_PARAM_DONE 1 d else d) ∧
    (flkCur d p = true ↔ fnIs d (fnFlk p) .running = true ∧ rb d (FLK_PORT_STAT p) FLK_PORT_STAT_PARAM_DONE = true ∧
      ∀ e, e < 4 → expIn d p e = true → (smGet x.missed e).getD 0 ≤ rf d (FLK_PORT_CFG p) FLK_PORT_CFG_HOLD)) ∧
  (∀ (p e : Nat) (d : Dev), (expParams d p e).length = 81 ∧
    (∀ c, c < 16 → let w := rf d (FLK_PT_CFG (flkPoint p e c))
      ((expParams d p e).drop (5 * c)).take 5 = [⟨e, some c, 0, w FLK_PT_CFG_TYPE⟩, ⟨e, some c, 1, w FLK_PT_CFG_FILT⟩, ⟨e, some c, 2, w FLK_PT_CFG_WB⟩,
        ⟨e, some c, 3, w FLK_PT_CFG_OSUB⟩, ⟨e, some c, 4, w FLK_PT_CFG_OHOLD⟩]) ∧
    (expParams d p e)[80]? = some ⟨e, none, 8, rf d (FLK_PORT_CFG p) FLK_PORT_CFG_WD⟩)

/-- R462..R464: a write to CANk_CTRL is discarded with CFG_REJ where R462 says so; REQ makes a buffer pending or is rejected; CANCEL acts by where the
buffer's frame is; at a start of frame the buffer of highest priority, or of oldest request, is offered; a frame sent shows TX_OK and its instant. -/
def Obligations.CanBuffersArePendingUntilTheyEnd : Prop :=
  (∀ (m : Master) (k : Fin 4) (v : Word) (s : State),
    let off := CAN_CTRL k.val
    let new := v &&& 0x1F3#32
    Takes (.canCtrlWrite m k v) m off v true s (fun d =>
      let from0 : Bool := canMode d k.val == 0
      let to0 : Bool := fget new CAN_CTRL_MODE == 0
      let x := getCan d k.val
      if !from0 && (rd d off ^^^ new) &&& 0x1F0#32 != 0 then wf (CAN_STAT k.val) CAN_STAT_CFG_REJ 1 d
      else if from0 && !to0 && canTimingBad d k.val then wf (CAN_STAT k.val) CAN_STAT_CFG_REJ 1 d
      else if from0 && !to0 then
        canShow k.val (setCan k.val { x with tec := 0, rec_ := 0, recovery := false, cur := none } (wf (CAN_STAT k.val) CAN_STAT_STATE 0 (wr off new d)))
      else if !from0 && to0 then setCan k.val { x with cur := none, recovery := false } (wf (CAN_STAT k.val) CAN_STAT_STATE 3 (wr off new d))
      else wr off new d)) ∧
  (∀ (m : Master) (k : Fin 4) (b : Fin 3) (s : State),
    let off := CAN_TXB_CMD k.val b.val
    let st := CAN_TXB_STAT k.val b.val
    let ctl (d : Dev) (f : Fld) : Bool := rb d (CAN_TXB_CTRL k.val b.val) f
    Takes (.req m k b) m off (fset 0 CAN_TXB_CMD_CMD 1) true s (fun d =>
      let x := getCan d k.val
      if (ctl d CAN_TXB_CTRL_FDF && !rb d (CAN_CTRL k.val) CAN_CTRL_FD_EN) || (ctl d CAN_TXB_CTRL_FDF && ctl d CAN_TXB_CTRL_RTR) ||
          (ctl d CAN_TXB_CTRL_BRS && !ctl d CAN_TXB_CTRL_FDF) || canMode d k.val == 0 || canMode d k.val == 2 then wf st CAN_TXB_STAT_REQ_REJ 1 d
      else if txPending d k.val b.val then d
      else setCan k.val { x with order := x.order ++ [b.val] } (wf st CAN_TXB_STAT_PENDING 1 d)) ∧
    Takes (.canCancel m k b) m off (fset 0 CAN_TXB_CMD_CMD 2) true s (fun d =>
      let x := getCan d k.val
      let gone := wf st CAN_TXB_STAT_CANCELLED 1 (txEnd k.val b.val d)
      if txPending d k.val b.val = false then d
      else match x.cur with
        | some c => if c.buf = b.val ∧ canState d k.val ≠ 2 then setCan k.val { x with cur := some { c with cancel := true } } d else gone
        | none => gone)) ∧
  (∀ (k : Nat) (d : Dev),
    let nom (f : Fld) : Nat := rf d (CAN_NBT k) f + 1
    let dat (f : Fld) : Nat := rf d (CAN_DBT k) f + 1
    canTimingBad d k = true ↔ nom CAN_NBT_NBRP * (1 + nom CAN_NBT_NTSEG1 + nom CAN_NBT_NTSEG2) < 80 ∨
      dat CAN_DBT_DBRP * (1 + dat CAN_DBT_DTSEG1 + dat CAN_DBT_DTSEG2) < 10 ∨ nom CAN_NBT_NTSEG2 < nom CAN_NBT_NSJW ∨
      dat CAN_DBT_DTSEG2 < dat CAN_DBT_DSJW ∨ nom CAN_NBT_NTSEG1 < 2) ∧
  (∀ (k : Fin 4) (b : Nat) (d : Dev), b < 3 →
    let x := getCan d k.val
    txEnd k.val b d = setCan k.val { x with order := x.order.filter (fun y => y != b), cur := match x.cur with
      | some c => if c.buf = b then none else some c
      | none => none } (wf (CAN_TXB_STAT k.val b) CAN_TXB_STAT_PENDING 0 d) ∧ txPending (txEnd k.val b d) k.val b = false) ∧
  (∀ (k : Fin 4) (t : Nat) (v : Fin 128) (esi acc : Bool) (s : State), clocked s.dev = false →
    Gives (.canStartOfFrame k t) s (hostHears true s.dev) ∧ Gives (.txOk k v esi t acc) s (hostHears acc s.dev)) ∧
  (∀ (k : Fin 4) (t : Nat) (s : State), clocked s.dev = true →
    let d := clockToNs t (hostHears true s.dev)
    let live : Prop := (canMode d k.val = 1 ∨ canMode d k.val = 3) ∧ canState d k.val < 2
    (∀ b, live → txOffer d k.val = some b →
      Gives (.canStartOfFrame k t) s (setCan k.val { getCan d k.val with cur := some { buf := b, sof := tbNs d - 8 } } d)) ∧
    (¬ live ∨ txOffer d k.val = none → Gives (.canStartOfFrame k t) s d)) ∧
  (∀ (k : Nat) (d : Dev),
    (rb d (CAN_CTRL k) CAN_CTRL_TX_ORDER = true → txOffer d k = (getCan d k).order.head?) ∧
    (∀ b, rb d (CAN_CTRL k) CAN_CTRL_TX_ORDER = false → txOffer d k = some b → b < 3 ∧ txPending d k b = true ∧
      ∀ a, a < 3 → txPending d k a = true → txPrio d k b < txPrio d k a ∨ (txPrio d k b = txPrio d k a ∧ b ≤ a)) ∧
    (rb d (CAN_CTRL k) CAN_CTRL_TX_ORDER = false → txOffer d k = none → ∀ a, a < 3 → txPending d k a = false)) ∧
  (∀ (k : Fin 4) (v : Fin 128) (esi : Bool) (t : Nat) (acc : Bool) (s : State), clocked s.dev = true →
    let d := clockToNs t (hostHears acc s.dev)
    ((getCan d k.val).cur = none → Gives (.txOk k v esi t acc) s d) ∧
    ((getCan d k.val).cur ≠ none → Gives (.txOk k v esi t acc) s (canTxOk k.val v.val esi d))) ∧
  (∀ (k v : Nat) (esi : Bool) (c : CanTx) (d : Dev), (getCan d k).cur = some c →
    let b := c.buf
    let ctl (f : Fld) : Bool := rb d (CAN_TXB_CTRL k b) f
    let id := (rd d (CAN_TXB_ID k b)).toNat % 2 ^ 29 + 2 ^ 29 * b2n (ctl CAN_TXB_CTRL_IDE) + 2 ^ 30 * b2n (ctl CAN_TXB_CTRL_RTR)
    let dlc := rf d (CAN_TXB_CTRL k b) CAN_TXB_CTRL_DLC
    let flags := b2n (ctl CAN_TXB_CTRL_FDF) + 2 * b2n (ctl CAN_TXB_CTRL_BRS) + 4 * b2n esi
    let data := txData d k b
    let e := emit (.canFrame k (rd d (CAN_TXB_ID k b)) (rd d (CAN_TXB_CTRL k b)) data) (txEnd k b d)
    let f := wr64 (CAN_TXB_TS_LO k b) (CAN_TXB_TS_HI k b) c.sof (wf (CAN_TXB_STAT k b) CAN_TXB_STAT_TX_OK 1 e)
    let g := if ctl CAN_TXB_CTRL_FDF then wf (CAN_TDC k) CAN_TDC_TDCV v f else f
    let h := canErrState k (setCan k { getCan g k with tec := (getCan g k).tec - 1 } g)
    let i := if rb h (CAN_CTRL k) CAN_CTRL_ECHO then canKeep k id dlc (flags + 8) c.sof data h else h
    canTxOk k v esi d = if canMode i k = 3 then canKeep k id dlc flags c.sof data i else i) ∧
  (∀ (k : Fin 4) (v : Nat) (esi : Bool) (c : CanTx) (d : Dev), (getCan d k.val).cur = some c → c.buf < 3 → canMode d k.val ≠ 3 →
    rb d (CAN_CTRL k.val) CAN_CTRL_ECHO = false →
    let e := canTxOk k.val v esi d
    rb e (CAN_TXB_STAT k.val c.buf) CAN_TXB_STAT_TX_OK = true ∧ txPending e k.val c.buf = false ∧
    rd64 e (CAN_TXB_TS_LO k.val c.buf) (CAN_TXB_TS_HI k.val c.buf) = c.sof % 2 ^ 64 ∧ (getCan e k.val).cur = none ∧
    (getCan e k.val).tec = (getCan d k.val).tec - 1 ∧ (getCan e k.val).order = (getCan d k.val).order.filter (fun b => b != c.buf))

/-- R463..R467: a correct frame is recorded or lost, and an offered buffer has lost arbitration; an error frame shows its code and counts; bus-off and its
recovery. (The error counters are ISO 11898-1's, PRESUMED, log entry 73.) -/
def Obligations.CanFramesErrorsAndBusOff : Prop :=
  (∀ (k : Fin 4) (id : Nat) (dlc : Fin 16) (fl code : Fin 8) (sof t : Nat) (b : List Byte) (data tx first acc : Bool) (s : State), clocked s.dev = false →
    let d := hostHears true s.dev
    Gives (.canFrameReceive k id dlc fl sof b t acc) s (hostHears acc s.dev) ∧ Gives (.canErrorFrame k code data tx first t) s d ∧
    Gives (.busOff k t) s d ∧ Gives (.busOffRecoveryEnd k t) s d) ∧
  (∀ (k : Nat) (d : Dev), let x := getCan d k
    let st := CAN_STAT k
    let passive : Bool := decide (127 < x.tec) || decide (127 < x.rec_)
    let shown := wf st CAN_STAT_TEC (min 255 x.tec) (wf st CAN_STAT_REC (min 127 x.rec_) (wf st CAN_STAT_RP (if 127 < x.rec_ then 1 else 0) d))
    let e := wf st CAN_STAT_STATE (b2n passive) shown
    (2 ≤ canState d k → canErrState k d = shown) ∧
    (canState d k < 2 → canErrState k d = if passive = true ∧ canState d k = 0 then wf st CAN_STAT_EPASS_EVT 1 e else e) ∧ canShow k d = shown) ∧
  (∀ (fd : Bool) (dlc : Nat), dlc < 16 → dlcLen dlc fd = if dlc ≤ 8 then dlc else if fd then [12, 16, 20, 24, 32, 48, 64].getD (dlc - 9) 0 else 8) ∧
  (∀ (k : Fin 4) (id : Nat) (dlc : Fin 16) (fl : Fin 8) (sof t : Nat) (data : List Byte) (acc : Bool) (s : State), clocked s.dev = true →
    let d := clockToNs t (hostHears acc s.dev)
    let live : Bool := canLive d k.val && canMode d k.val != 3
    let e := arbLost k.val d
    let x := getCan e k.val
    (live = false → Gives (.canFrameReceive k id dlc fl sof data t acc) s d) ∧
    (live = true → Gives (.canFrameReceive k id dlc fl sof data t acc) s
      (canKeep k.val (id % 2 ^ 31) dlc.val fl.val (sof - 8) (if id / 2 ^ 30 % 2 = 1 then [] else data.take (dlcLen dlc.val (fl.val % 2 == 1)))
        (canErrState k.val (setCan k.val { x with rec_ := if 127 < x.rec_ then 127 else x.rec_ - 1 } e))))) ∧
  (∀ (k id dlc fl ts : Nat) (data : List Byte) (d : Dev),
    let f := canKeep k id dlc fl ts data d
    let y := getCan (canDrain 32 k d) k
    let x := getCan d k
    let rec_ := canRecord id dlc fl x.lost ts data
    rec_.length = 16 + (data.length + 7) / 8 * 8 ∧
    rec_ = leBytes 4 id ++ leBytes 1 (dlc % 16) ++ leBytes 1 fl ++ leBytes 2 (min 65535 x.lost) ++ leBytes 8 ts ++ data ++
      List.replicate ((8 - data.length % 8) % 8) 0 ∧
    (streamOn d 2 k = false → f = d) ∧
    (streamOn d 2 k = true → 32 ≤ y.fifo.length → f = bump (CAN_CNT k) CAN_CNT_RX_LOST (setCan k { y with lost := y.lost + 1 } (canDrain 32 k d))) ∧
    (streamOn d 2 k = true → y.fifo.length < 32 →
      f = canDrain 33 k (setCan k { y with fifo := y.fifo ++ [(rec_, x.lost != 0)], lost := 0 } (canDrain 32 k d)))) ∧
  (∀ (k : Nat) (d : Dev),
    ((getCan d k).cur = none → arbLost k d = d) ∧
    (∀ c, (getCan d k).cur = some c →
      let e := bump (CAN_TXB_STAT k c.buf) CAN_TXB_STAT_ARB_LOST d
      (c.cancel = true → arbLost k d = wf (CAN_TXB_STAT k c.buf) CAN_TXB_STAT_CANCELLED 1 (txEnd k c.buf e)) ∧
      (c.cancel = false → rb e (CAN_CTRL k) CAN_CTRL_ONESHOT = true → arbLost k d = wf (CAN_TXB_STAT k c.buf) CAN_TXB_STAT_TX_FAIL 1 (txEnd k c.buf e)) ∧
      (c.cancel = false → rb e (CAN_CTRL k) CAN_CTRL_ONESHOT = false → arbLost k d = setCan k { getCan d k with cur := none } e))) ∧
  (∀ (k : Fin 4) (code : Fin 8) (data tx first : Bool) (t : Nat) (s : State), clocked s.dev = true →
    let d := clockToNs t (hostHears true s.dev)
    let e := wf (CAN_STAT k.val) (if data then CAN_STAT_DLEC else CAN_STAT_LEC) code.val (bump (CAN_CNT k.val) CAN_CNT_BUS_ERR d)
    (canLive d k.val = false → Gives (.canErrorFrame k code data tx first t) s d) ∧
    (canLive d k.val = true → (getCan d k.val).cur = none →
      let x := getCan e k.val
      Gives (.canErrorFrame k code data tx first t) s (canErrState k.val (setCan k.val
        (if canMode d k.val = 2 ∨ (tx = true ∧ code.val = 3 ∧ 127 < x.tec) then x
         else if tx then { x with tec := x.tec + 8 } else { x with rec_ := x.rec_ + (if first then 8 else 1) }) e))) ∧
    (∀ c, canLive d k.val = true → (getCan d k.val).cur = some c →
      let e' := if tx then txFail k.val c e else arbLost k.val e
      let x := getCan e' k.val
      Gives (.canErrorFrame k code data tx first t) s (canErrState k.val (setCan k.val
        (if canMode d k.val = 2 ∨ (tx = true ∧ code.val = 3 ∧ 127 < x.tec) then x
         else if tx then { x with tec := x.tec + 8 } else { x with rec_ := x.rec_ + (if first then 8 else 1) }) e')))) ∧
  (∀ (k : Fin 4) (t : Nat) (s : State), clocked s.dev = true →
    let d := clockToNs t (hostHears true s.dev)
    let x := getCan d k.val
    Gives (.busOff k t) s
      (if canLive d k.val && decide (255 < x.tec) then
        setCan k.val { x with cur := none, recovery := rb d (CAN_CTRL k.val) CAN_CTRL_AUTO_BOR }
          (wf (CAN_STAT k.val) CAN_STAT_STATE 2 (wf (CAN_STAT k.val) CAN_STAT_BOFF_EVT 1 d))
       else d) ∧
    Gives (.busOffRecoveryEnd k t) s
      (if canState d k.val == 2 && x.recovery then
        canShow k.val (setCan k.val { x with recovery := false, tec := 0, rec_ := 0 } (wf (CAN_STAT k.val) CAN_STAT_STATE 0 d))
       else d)) ∧
  (∀ (m : Master) (k : Fin 4) (s : State), Takes (.bor m k) m (CAN_CMD k.val) (fset 0 CAN_CMD_CMD 1) true s (fun d =>
    if canState d k.val = 2 then setCan k.val { getCan d k.val with recovery := true } d else d))

/-! ### The safety island and the twin (spec/16) -/

/-- R468..R492: the island's evaluations and timed events. LOCKOUT is for good and every output is off in it; an output turns on only at an acknowledgement
that both channels have seen, with no fault, lock-out or demand against it; contacts are filtered, a lasting disagreement is a latched fault, a press of the
right length acknowledges; a readback that differs for two cycles, a failed test pulse and a lost exchange are faults: the first leads through SQUALL to
LOCKOUT, the second cuts; the ends of the squall window and of a held standstill cut; a lost supply and a dead channel lead to LOCKOUT with every switch off;
tamper and seal act after their times; a safety message of the line is a demand or its release; a configuration is accepted under R476..R478; the mirror
shows the island, and SAF_FAULT_N is low in INIT, NO_CFG and LOCKOUT (R474). -/
def Obligations.TheIslandCutsAndLocksOut : Prop :=
  let off (d : Dev) (k : Nat) : Prop := (getOut d.saf k).st = .off
  let allOff (d : Dev) : Prop := ∀ k, off d k
  (∀ (x : SafSample) (k : Fin 8) (pass chB : Bool) (s : State),
    WhileAwake (.channelAEvaluation x) true s (safEval false x) ∧ WhileAwake (.channelBEvaluation x) true s (safEval true x) ∧
    WhileAwake .squallWindowEnd true s squallEnd ∧ WhileAwake .standstillHoldEnd true s standstillEnd ∧
    WhileAwake (.outputTest k pass) true s (outputTest k.val pass) ∧ WhileAwake .safetySupplyFault true s safSupply ∧
    WhileAwake (.channelDead chB) true s (safDead chB) ∧
    (awake s.dev = false → let d := hostHears true s.dev
      Gives (.channelAEvaluation x) s d ∧ Gives (.channelBEvaluation x) s d ∧ Gives .squallWindowEnd s d ∧ Gives .standstillHoldEnd s d ∧
      Gives (.outputTest k pass) s d ∧ Gives .safetySupplyFault s d ∧ Gives (.channelDead chB) s d)) ∧
  (∀ (x : SafSample) (k : Nat) (pass chB : Bool) (f : Dev → Dev) (d : Dev),
    f ∈ [safEval chB x, squallEnd, standstillEnd, outputTest k pass, safSupply, safDead chB] →
    d.saf.lockout ≠ 0 → allOff d → (f d).saf.lockout = d.saf.lockout ∧ allOff (f d)) ∧
  (∀ (x : SafSample) (chB : Bool) (k : Nat) (d : Dev), off d k →
    let e := safEval chB x d
    ¬ off e k → (getOut e.saf k).st = .on ∧ (getCh (safInputs chB x d).saf chB).ack ≠ 0 ∧ (getCh d.saf (!chB)).ack ≠ 0 ∧ e.saf.lockout = 0 ∧ e.saf.init = false ∧ e.saf.faults = 0 ∧ e.saf.tamperDemand = false ∧
      e.saf.remote = [] ∧ (getOut e.saf k).fault = false ∧
      ∃ c, e.saf.cfg = some c ∧ outUsed c k = true ∧
        ∀ i, i < 16 → inDemands c i = true → inMask c i / 2 ^ k % 2 = 1 → inDemand e.saf i = false ∧ inDiscFault e.saf i = false) ∧
  (∀ (chB : Bool) (x : SafSample) (d : Dev),
    let ch := getCh d.saf chB
    let e := modSaf (fun u => { putCh chB { ch with n := ch.n + 1, miss := ch.miss + 1 } u with
      rb := (if chB then u.rb % 256 else x.rbhs % 256) + 256 * (x.rbls % 256) }) d
    let f := safExchange chB (safInputs chB x e)
    let g := if f.saf.init then f else safReadback chB x f
    let h := if chB then g else safSeal (x.sealLv % 256) (safTamper x.tamper g)
    let i := safDrive chB (if h.saf.lockout = 0 then safAck (safGeneral (safDemands (demandBits e.saf) h)) else h)
    (ch.dead = true → safEval chB x d = d) ∧ (ch.dead = false → safEval chB x d = if chB then i else safMirror i)) ∧
  (∀ (f : Nat) (raw : Bool) (x : SafFilt),
    (raw = x.lvl → filtStep f raw x = { x with n := 0 }) ∧ (raw ≠ x.lvl → x.n < f → filtStep f raw x = { x with n := x.n + 1 }) ∧
    (raw ≠ x.lvl → f ≤ x.n → filtStep f raw x = { lvl := raw, n := 0 })) ∧
  (∀ (c : List Byte) (k : Nat) (rawA rawB : Bool) (x : SafIn),
    let y := (inStep c k rawA rawB x).1
    let filt := max 1 (4 * inFilt c k)
    let rest : Prop := y.a.lvl = true ∧ y.b.lvl = true
    let long : Prop := 4 * inDisc c k < y.differ
    y.a = filtStep filt rawA x.a ∧ y.b = filtStep filt (if inMode c k = 1 then rawB else !rawB) x.b ∧
    y.differ = (if y.a.lvl = y.b.lvl then 0 else x.differ + 1) ∧
    (y.demand = true ↔ y.disc = true ∨ y.a.lvl = false ∨ y.b.lvl = false) ∧
    (long → y.disc = true ∧ y.discSeen = false) ∧ (x.disc = false → ¬ long → y.disc = false) ∧
    (x.disc = true → ¬ long → (y.disc = false ↔ rest ∧ x.discSeen = true)) ∧
    (x.disc = true → ¬ long → y.disc = true →
      (y.discSeen = true ↔ x.discSeen = true ∨ (y.a.lvl = false ∧ y.b.lvl = false ∧ x.differ ≤ 4 * inDisc c k))) ∧
    ((inStep c k rawA rawB x).2 = true ↔ rest ∧ x.both = true ∧ x.bad = false ∧ ∃ n, x.press = some n ∧ 400 ≤ n + 1 ∧ n + 1 ≤ 12000) ∧
    (rest → y.press = none) ∧ (¬ rest → ∀ n, x.press = some n → y.press = some (n + 1)) ∧
    (¬ rest → x.press = none → y.press = if x.demand then none else some 0) ∧
    y.still = (if y.demand = true ∨ y.disc = true then 0 else x.still + 1)) ∧
  (∀ (chB : Bool) (x : SafSample) (c : List Byte) (k : Nat) (d : Dev), d.saf.cfg = some c → (List.range 8).filter (outUsed c) = [k] →
    let ch := getCh d.saf chB
    let drive := (if chB then d.saf.ls else d.saf.hs).testBit k
    let level := (if chB then x.rbls else x.rbhs).testBit k
    let bad : Prop := if chB then level = drive else level ≠ drive
    let n := (smGet ch.rbBad k).getD 0 + 1
    let e (m : Nat) : Dev := modSaf (putCh chB { ch with rbBad := smPut ch.rbBad k m }) d
    (¬ bad → safReadback chB x d = e 0) ∧ (bad → n < 2 ∨ (getOut d.saf k).fault = true → safReadback chB x d = e n) ∧
    (bad → 2 ≤ n → (getOut d.saf k).fault = false → safReadback chB x d = safFault 1 k (setOut k { getOut d.saf k with fault := true } (e n)))) ∧
  (∀ (chB : Bool) (d : Dev),
    let me := getCh d.saf chB
    let other := getCh d.saf (!chB)
    let dis := if ownDemand d.saf false = ownDemand d.saf true then 0 else me.disagree + 1
    let e := modSaf (fun u => putCh (!chB) { other with miss := 0 } (putCh chB { me with disagree := dis } u)) d
    let fault := (3 < me.miss ∨ 3 ≤ dis) ∧ d.saf.intFault = false ∧ other.dead = false
    (fault → safExchange chB d = safFault 2 (b2n chB) e) ∧ (¬ fault → safExchange chB d = e)) ∧
  (∀ (kind what : Nat) (d : Dev),
    let u := d.saf
    let first : Prop := u.faults = 0
    let second : Prop := 0 < u.faults ∨ (kind = 1 ∧ inSquall u ≠ [])
    let e := forEach (usedOuts u) (safSquall true) (modSaf (fun u => { u with
      faults := u.faults + 1, intFault := u.intFault || kind == 2, cause := 3 + kind, lockWhat := if u.faults = 0 then what else u.lockWhat }) d)
    let f := if second then forEach (inSquall u) safCut e else e
    let g := if inSquall f.saf = [] then safLock kind what f else f
    (u.lockout ≠ 0 → safFault kind what d = d) ∧ (u.lockout = 0 → first → safFault kind what d = safRequest 2 (usedOuts u) g) ∧
    (u.lockout = 0 → ¬ first → safFault kind what d = g)) ∧
  (∀ (k : Nat) (lock : Bool) (d : Dev), let o := getOut d.saf k
    let e := setOut k { o with st := .off, lock := false } d
    (o.st = .off → safCut k d = d ∧ safSquall lock k d = d) ∧
    (o.st ≠ .off → safCut k d = if o.lock then safLock (if d.saf.intFault then 2 else 1) d.saf.lockWhat e else e) ∧
    (o.st = .on → safSquall lock k d = setOut k { o with st := .squall, lock := lock, from_ := (d.saf.chA.n, d.saf.chB.n) } d) ∧
    (o.st = .squall → safSquall lock k d = setOut k { o with lock := o.lock || lock } d)) ∧
  (∀ (before k : Nat) (c : List Byte) (d : Dev), d.saf.cfg = some c → (List.range 16).filter (inDemands c) = [k] →
    let outs := (usedOuts d.saf).filter (fun o => (inMask c k).testBit o)
    let e := if inCat c k = 0 then forEach outs safCut d else forEach outs (safSquall false) d
    let f := if inDiscFault e.saf k = true ∧ (∃ o ∈ outs, (getOut e.saf o).st = .squall) then forEach (inSquall e.saf) safCut e else e
    (inDemand d.saf k = false → safDemands before d = d) ∧
    (inDemand d.saf k = true → before.testBit k = true → safDemands before d = f) ∧
    (inDemand d.saf k = true → before.testBit k = false → safDemands before d = safRequest (if inCat c k = 1 then 1 else 2) outs
      (modSaf (fun u => { u with demands := min 65535 (u.demands + 1), cause := if inCat c k = 0 then u.cause else 1 }) f))) ∧
  (∀ (kind : Nat) (outs : List Nat) (c : List Byte) (d : Dev), d.saf.cfg = some c →
    let req := d.cel.nextReq
    let r : StopReq := { src := devId d, epoch := ownEpoch d, req := req, kind := kind, scope := cfgLe c 0x14 1,
                         target := scopeBits (cfgLe c 0x14 1) (cfgLe c 0x16 2), origin := 1, issuedAt := tbNs d }
    let e := modSaf (fun u => { u with scnt := u.scnt + 1 }) d
    let safe := safData e.saf 1 ((stopPayload r false).take 0x18)
    safRequest kind outs d = modSaf (fun u => { u with reqs := u.reqs ++ [⟨r.epoch, req, outs⟩] }) (stopIssue { r with safe := safe } e)) ∧
  (∀ (kind : Nat) (head c : List Byte) (u : SafUnit), u.cfg = some c →
    let body := beBytes 2 (cfgLe c 8 2) ++ beBytes 1 (safState u) ++ beBytes 1 kind ++ beBytes 4 u.scnt ++ beBytes 2 (demandBits u) ++
      beBytes 2 (min 65535 (squallLeft u)) ++ beBytes 4 0
    safData u kind head = body ++ beBytes 4 (crc32 (head ++ body)) ++ beBytes 4 (crc32c (head ++ body))) ∧
  (∀ (c : List Byte) (d : Dev), d.saf.cfg = some c →
    let due (k : Nat) : Prop := k ∈ inSquall d.saf ∧ ((getOut d.saf k).from_.1 + 4 * squallMs c ≤ d.saf.chA.n ∨ (getOut d.saf k).from_.2 + 4 * squallMs c ≤ d.saf.chB.n)
    let held : Prop := stillMode c = 1 ∧ ∃ i, i < 16 ∧ inMode c i ≠ 0 ∧ inCat c i = 4 ∧
      (4 * stillMs c ≤ (getIn d.saf.chA i).still ∨ 4 * stillMs c ≤ (getIn d.saf.chB i).still)
    (∀ k, due k → off (squallEnd d) k) ∧ (∀ k, ¬ due k → (squallEnd d).saf.lockout = d.saf.lockout → getOut (squallEnd d).saf k = getOut d.saf k) ∧
    (held → ∀ k, k ∈ inSquall d.saf → off (standstillEnd d) k) ∧ (¬ held → standstillEnd d = d)) ∧
  (∀ (pass chB : Bool) (x : SafSample) (before k : Nat) (d : Dev), d.saf.cfg = none →
    squallEnd d = d ∧ standstillEnd d = d ∧ outputTest k pass d = d ∧ safInputs chB x d = d ∧ safDemands before d = d ∧ safAck d = d) ∧
  (∀ (c : List Byte) (k : Nat) (d : Dev), d.saf.cfg = some c →
    let o := getOut d.saf k
    let due : Prop := o.st ≠ .off ∧ outUsed c k = true ∧ o.tested + 4000 * outTestS c k ≤ d.saf.chA.n
    let e := modSaf (fun u => { u with testFails := min 65535 (u.testFails + 1) }) (setOut k { o with tested := d.saf.chA.n, fault := true } d)
    (¬ due → ∀ pass, outputTest k pass d = d) ∧ (due → outputTest k true d = setOut k { o with tested := d.saf.chA.n } d) ∧
    (due → outputTest k false d = safDrive true (safDrive false (if o.fault then e else safFault 1 k e)))) ∧
  (∀ (chB : Bool) (d : Dev), d.saf.lockout = 0 →
    (safSupply d).saf.lockout = 3 ∧ allOff (safSupply d) ∧ (safSupply d).saf.hs = 0 ∧ (safSupply d).saf.ls = 0 ∧
    (safDead chB d).saf.lockout = 4 ∧ allOff (safDead chB d) ∧ (safDead chB d).saf.hs = 0 ∧ (safDead chB d).saf.ls = 0 ∧
    (getCh (safDead chB d).saf chB).dead = true) ∧
  (∀ (level : Bool) (d : Dev),
    let u := d.saf
    let n := if level = u.tamper then u.tamperN + 1 else 1
    let e := modSaf (fun u => { u with tamper := level, tamperN := n }) d
    let begins : Prop := level = true ∧ 40 < n ∧ u.tamperDemand = false
    let ends : Prop := level = false ∧ 4000 ≤ n ∧ u.tamperDemand = true
    let f := modSaf (fun u => { u with
      tamperDemand := true, sealed := false, sealCnt := min 65535 (u.sealCnt + 1), demands := min 65535 (u.demands + 1), cause := 2 }) e
    let g := trigger 0x31 0x38 [2, f.saf.sealCnt] f
    (begins → usedOuts u = [] → safTamper level d = g) ∧ (begins → usedOuts u ≠ [] → safTamper level d = safRequest 1 (usedOuts u) g) ∧
    (ends → safTamper level d = modSaf (fun u => { u with tamperDemand := false }) e) ∧ (¬ begins → ¬ ends → safTamper level d = e)) ∧
  (∀ (lv : Nat) (d : Dev),
    let u := d.saf
    let pat : Option Nat := u.cfg.map (fun c => cfgLe c 0x0A 1)
    let openN := if u.sealed = true ∧ lv ≠ u.sealPat then u.sealOpen + 1 else 0
    let matchN := if u.sealed = false ∧ pat = some lv ∧ u.tamper = false ∧ u.init = false then u.sealMatch + 1 else 0
    let e := modSaf (fun u => { u with sealLv := lv, sealOpen := openN, sealMatch := matchN }) d
    let f := modSaf (fun u => { u with sealed := true, sealCrc := safCrcA (u.cfg.getD []), sealPat := lv, sealCnt := min 65535 (u.sealCnt + 1), sealMatch := 0 }) e
    (8000 ≤ openN → safSeal lv d = trigger 0x31 0x38 [0, u.sealCnt] (modSaf (fun u => { u with sealed := false, sealOpen := 0 }) e)) ∧
    (openN < 8000 → 8000 ≤ matchN → safSeal lv d = trigger 0x31 0x38 [1, f.saf.sealCnt] f) ∧
    (openN < 8000 → matchN < 8000 → safSeal lv d = e)) ∧
  (∀ (u : SafUnit) (c : List Byte),
    let same : Prop := ∃ f, u.cfg = some f ∧ cfgLe f 0xE0 4 = cfgLe c 0xE0 4
    let used (k : Nat) : Prop := k < 16 ∧ inMode c k ≠ 0
    (safAccepts u c = true ↔ same ∨ (u.init = false ∧ crc32 (c.take 0xE0) = cfgLe c 0xE0 4 ∧ crc32c (c.take 0xE0) = cfgLe c 0xE4 4 ∧
      safFieldsOk c = true ∧ safRulesOk c = true ∧ (∀ o ∈ u.outs, o.2.st = .off) ∧ (u.sealed = true → u.sealCrc = cfgLe c 0xE0 4))) ∧
    (safRulesOk c = true ↔ (stillMode c = 1 → ∃ k, used k ∧ inCat c k = 4 ∧ ∀ j, used j → inCat c j = 4 → j = k) ∧
      (∀ k, used k → inCat c k ≤ 2 → inMask c k ≠ 0 ∧ ∀ o, o < 8 → (inMask c k).testBit o = true → outUsed c o = true) ∧
      ((∃ k, used k ∧ inCat c k ≤ 2) → ∃ k, used k ∧ inCat c k = 3)) ∧
    (∀ d : Dev, d.saf = u → same → safInForce c d = d) ∧
    (∀ d : Dev, d.saf = u → ¬ same → let f := safInForce c d
      f.saf.cfg = some c ∧ allOff f ∧ f.saf.chA.ins = [] ∧ f.saf.chB.ins = [] ∧ f.saf.chA.ack = 0 ∧ f.saf.chB.ack = 0)) ∧
  (∀ u : SafUnit,
    let outs (c : List Byte) : List Nat := (List.range 8).filter (outUsed c)
    (u.lockout ≠ 0 → safState u = 6) ∧ (u.lockout = 0 → u.init = true → safState u = 0) ∧ (u.lockout = 0 → u.init = false → u.cfg = none → safState u = 1) ∧
    (∀ c, u.lockout = 0 → u.init = false → u.cfg = some c →
      ((∃ k ∈ outs c, (getOut u k).st = .squall) → safState u = 4) ∧
      ((∀ k ∈ outs c, (getOut u k).st ≠ .squall) → (outs c = [] ∨ ∃ k ∈ outs c, (getOut u k).st = .off) → safState u = 2) ∧
      (outs c ≠ [] → (∀ k ∈ outs c, (getOut u k).st = .on) → safState u = if u.sealed then 3 else 5))) ∧
  (∀ d : Dev, coreOff d = false → (dedLevel d .safFaultN = .low ↔ safState d.saf = 0 ∨ safState d.saf = 1 ∨ safState d.saf = 6) ∧
    (dedLevel d .safFaultN ≠ .low → dedLevel d .safFaultN = .released)) ∧
  (∀ (u : SafUnit) (c : List Byte) (k : Nat), u.cfg = some c → k < 16 →
    (safScanBits u).testBit k = (inMode c k != 0 && !inDemand u k && !inDiscFault u k) ∧ (demandBits u).testBit k = (inMode c k != 0 && inDemand u k)) ∧
  (∀ d : Dev, let u := d.saf
    let f := safMirror d
    let cause := if inSquall u = [] then 0 else u.cause
    let sizes : Prop := u.rb < 65536 ∧ u.hs < 256 ∧ u.ls < 256 ∧ u.sealCnt < 65536 ∧ u.testFails < 65536 ∧ u.demands < 65536 ∧ u.lockout < 256 ∧
      u.lockWhat < 256 ∧ cause < 256
    (∀ k, k < 8 → rb f SAF_STAT ⟨24 + k, 24 + k⟩ = (getOut u k).fault ∧ rb f SAF_STAT ⟨16 + k, 16 + k⟩ = ((getOut u k).st == .squall) ∧
      rb f SAF_STAT ⟨8 + k, 8 + k⟩ = ((getOut u k).st != .off)) ∧
    rb f SAF_STAT ⟨5, 5⟩ = u.tamperDemand ∧ rb f SAF_STAT ⟨4, 4⟩ = (u.sealLv == u.sealPat && !u.tamper) ∧ rb f SAF_STAT ⟨3, 3⟩ = u.sealed ∧
    rf f SAF_STAT ⟨2, 0⟩ = safState u ∧ rf f SAF_IN ⟨15, 0⟩ = demandBits u ∧ rf f SAF_IN ⟨31, 16⟩ = discBits u ∧
    (sizes → rf f SAF_RB ⟨15, 0⟩ = u.rb ∧ rf f SAF_RB ⟨23, 16⟩ = u.hs ∧ rf f SAF_RB ⟨31, 24⟩ = u.ls ∧ rf f SAF_SEAL ⟨7, 0⟩ = u.sealLv % 256 ∧
      rb f SAF_SEAL ⟨8, 8⟩ = u.tamper ∧ rf f SAF_SEAL ⟨31, 16⟩ = u.sealCnt ∧ (rd f SAF_SEALED_CRC).toNat = u.sealCrc % 2 ^ 32 ∧
      rf f SAF_SQUALL ⟨23, 0⟩ = min (2 ^ 24 - 1) (squallLeft u) ∧ rf f SAF_SQUALL ⟨31, 24⟩ = cause ∧ rf f SAF_CNT ⟨15, 0⟩ = u.testFails ∧
      rf f SAF_CNT ⟨31, 16⟩ = u.demands ∧ rf f SAF_LOCK ⟨7, 0⟩ = u.lockout ∧ rf f SAF_LOCK ⟨15, 8⟩ = if u.lockout = 0 then 0 else u.lockWhat) ∧
    f.saf = { u with shown := safState u } ∧ (safState u ≠ u.shown → rb f HIF_EVT_STAT ⟨5, 5⟩ = true ∧ f.evr = (trigger 0x30 0x38 [u.shown, safState u, cause] d).evr)) ∧
  (∀ (src epoch : Nat) (p c : List Byte) (d : Dev), d.saf.cfg = some c →
    let safe := p.drop 0x1C
    let covered := p.take 0x18 ++ safe.take 0x10
    let key := src * 256 + epoch
    let req := pay p 4 2
    let takes : Prop := cfgLe c 0x15 1 = 1 ∧ pay p 6 1 = 1 ∧ pay p 0x18 2 = 24 ∧ src ≠ devId d ∧ pay safe 0 2 = cfgLe c 8 2 ∧
      crc32 covered = pay safe 0x10 4 ∧ crc32c covered = pay safe 0x14 4 ∧ ∀ l, smGet d.saf.scnts key = some l → l < pay safe 4 4
    let e := modSaf (fun u => { u with scnts := smPut u.scnts key (pay safe 4 4) }) d
    let f := modSaf (fun u => { u with
      remote := if u.remote.contains (src, epoch, req) then u.remote else u.remote ++ [(src, epoch, req)], demands := min 65535 (u.demands + 1), cause := 3 }) e
    let g := forEach (usedOuts d.saf) (safSquall false) f
    (¬ takes → safRemote src epoch p d = d) ∧
    (takes → pay safe 3 1 = 0x80 → safRemote src epoch p d = modSaf (fun u => { u with remote := u.remote.filter (fun r => r != (src, epoch, req)) }) e) ∧
    (takes → pay safe 3 1 = 1 → safRemote src epoch p d = if usedOuts g.saf = [] then g else safRequest 1 (usedOuts g.saf) g))

/-- R493..R505: what a twin does with the frames of the link and the state of its lanes: pairing by HELLO, chunks of STATE and the alignment with them, mirrored
writes, FAULT, takeover, handover and its acknowledgement, SYNC, SCAN_CRC, and the commands HANDOVER and RESYNC. (The formats that are internal to the
device, and the health byte: log entry 71.) -/
def Obligations.TheTwinFollowsTheLink : Prop :=
  (∀ (h : TwnHello) (s : State),
    InGale (.hello h) true s (fun d =>
      let e := wr TWN_PEER (BitVec.ofNat 32 (2147483648 + h.dev % 4096)) (modTwn (fun t => { t with peer := some h }) d)
      let pref : Bool := rf d TWN_CFG TWN_CFG_PREF == 1
      let peerPref : Bool := decide (128 ≤ h.health)
      let owns : Bool := if pref == peerPref then decide (devId d < h.dev) else pref
      let takes (r tok : Nat) (sync : Bool) := setRole r (wf TWN_STAT TWN_STAT_TOKEN tok (modTwn (fun t => { t with demoted := false, synced := sync }) e))
      if fnIs d fnTwn .running = false then e
      else if twnRole d ≠ 0 then (if twnRole d ≠ 1 ∧ h.role = 1 then wf TWN_STAT TWN_STAT_TOKEN h.token e else e)
      else if h.image ≠ (rd d CFG_IMAGE_ID).toNat then detectFault fnTwn 1 (twnSend 4 (tickNum e) (leBytes 1 1 ++ leBytes 3 0) e)
      else if h.role = 1 then takes 3 h.token false
      else if owns then setRole 1 (wf TWN_STAT TWN_STAT_TOKEN 1 (modTwn (fun t => { t with demoted := false }) e))
      else takes 3 1 true)) ∧
  (∀ (r : Nat) (d : Dev), r < 4 → twnRole (setRole r d) = r ∧ (setRole r d).twn.ownPin = (r == 1)) ∧
  (∀ (cls tick : Nat) (p : List Byte) (d : Dev),
    (rb d TWN_STAT TWN_STAT_LANE0 = false → rb d TWN_STAT TWN_STAT_LANE1 = false → twnSend cls tick p d = d) ∧
    (rb d TWN_STAT TWN_STAT_LANE0 = true ∨ rb d TWN_STAT TWN_STAT_LANE1 = true →
      twnSend cls tick p d = emit (.twnFrame cls (d.twn.txSeq % 65536) tick p) (modTwn (fun t => { t with txSeq := t.txSeq + 1 }) d))) ∧
  (∀ (tick chunk : Nat) (last : Bool) (items : List TwnItem) (s : State),
    InGale (.state tick chunk last items) true s (fun d =>
      let t := (smGet d.twn.states tick).getD {}
      let late : Prop := tick + 1 < d.tick ∨ (tick + 1 = d.tick ∧ d.phase = .commit)
      if (twnRole d ≠ 2 ∧ twnRole d ≠ 3) ∨ late then d
      else if t.got.contains chunk then modTwn (fun u => { u with states := smPut u.states tick t }) d
      else
        let t' : TwnTick := ⟨chunk :: t.got, if last then some chunk else t.last, t.items ++ items⟩
        modTwn (fun u => { u with states := smPut u.states tick t' }) d)) ∧
  (∀ (n : Nat) (d : Dev), stateComplete d n = true ↔ ∃ t l, smGet d.twn.states n = some t ∧ t.last = some l ∧ ∀ c, c ≤ l → c ∈ t.got) ∧
  (∀ (m : Nat) (d : Dev),
    let ready : Prop := (twnRole d = 2 ∨ twnRole d = 3) ∧ 2 ≤ m ∧ stateComplete d (m - 2) = true
    (¬ ready → twnAlign m d = d) ∧
    (∀ t, ready → smGet d.twn.states (m - 2) = some t →
      let own := match smGet d.twn.own (m - 2) with | some xs => xs | none => []
      let e := forEach t.items (alignItem (m - 2) own) (modTwn (fun u => { u with lastBad := none }) d)
      let bad : Prop := e.twn.lastBad ≠ none
      let f := modTwn (fun u => { u with states := u.states.filter (fun x => decide (m - 2 < x.1)), lastBad := if bad then u.lastBad else d.twn.lastBad }) e
      twnAlign m d = if twnRole f = 3 ∧ f.twn.synced = true ∧ ¬ bad then twnRecord 3 (setRole 2 f) else f)) ∧
  (∀ (n i : Nat) (own : List TwnItem) (it : TwnItem) (f : Fn) (d : Dev),
    (it ∈ own → (it = .fn i f ∨ (∃ l g c, it = .genMode i l g c) ∨ ∃ k u, it = .bar i k u) → alignItem n own it d = d) ∧
    (it = .fn i f → it ∉ own → alignItem n own it d = twnMismatch n (setFn i f d)) ∧
    (∀ l g c, it = .genMode i l g c → it ∉ own → alignItem n own it d = twnMismatch n (setMpg i { getMpg d i with latch := l, held := g, fault := c } d)) ∧
    (∀ k u, it = .bar i k u → it ∉ own → alignItem n own it d = twnMismatch n (setBar i { getBar d i with k := k, upd := u } d)) ∧
    (∀ p v p' v', it = .gen i p v → own = [.gen i p' v'] →
      alignItem n own it d = setMpg i { getMpg d i with p := (getMpg d i).p + (p - p'), v := (getMpg d i).v + (v - v') } d) ∧
    (∀ k k', it = .chan i k → own = [.chan i k'] → alignItem n own it d = setChan i { getChan d i with konst := (getChan d i).konst + (k - k') } d) ∧
    (∀ a b c e a' b' c' e', it = .slot i a b c e → own = [.slot i a' b' c' e'] → let x := getSlot d i
      alignItem n own it d = setSlot i { x with i := fAdd x.i (fSub a a'), dd := fAdd x.dd (fSub b b'), rlim := fAdd x.rlim (fSub c c'), yhat := fAdd x.yhat (fSub e e') } d)) ∧
  (∀ (off : Nat) (v : Word) (tick : Nat) (s : State), InGale (.write off v tick) true s (fun d =>
    let next := transferTick d % 2 ^ 32
    if twnRole d ≠ 2 ∧ twnRole d ≠ 3 then d
    else if next = tick ∨ tickAfter next tick = true then (regWrite s.mem .host true true off v d).1
    else modTwn (fun t => { t with writes := t.writes ++ [(off, v, tick)] }) d)) ∧
  (∀ (t : Nat) (s : State),
    InGale (.fault t) true s (fun d0 =>
      let d := clockToNs t d0
      if twnRole d = 2 then (if d.twn.faultAt.isSome then d else modTwn (fun u => { u with faultAt := some (tbNs d) }) d)
      else if twnRole d = 1 then twnPeerLost d else d) ∧
    InGale (.lanesLost t) true s (fun d0 =>
      let d := clockToNs t d0
      let e := wf TWN_STAT TWN_STAT_LANE0 0 (wf TWN_STAT TWN_STAT_LANE1 0 d)
      if twnRole d = 2 then modTwn (fun t => { t with lanesAt := some (tickNum d) }) e else if twnRole d = 1 then twnPeerLost e else e) ∧
    (∀ lane : Fin 2,
      let f := if lane.val = 0 then TWN_STAT_LANE0 else TWN_STAT_LANE1
      InGale (.laneLoss lane t) true s (fun d => wf TWN_STAT TWN_STAT_LANE_EVT 1 (wf TWN_STAT f 0 (clockToNs t d))) ∧
      InGale (.symbolLock lane t) true s (fun d => wf TWN_STAT f 1 (clockToNs t d)))) ∧
  (∀ d : Dev, let e := modTwn (fun t => { t with peer := none }) d
    twnPeerLost d = twnRecord 2 (wf TWN_STAT TWN_STAT_PEER_LOST 1 (wr TWN_PEER 0 e)) ∧
    (∀ w, twnRecord w d = trigger 0x40 0x3A [w, rf d TWN_STAT TWN_STAT_LAST_CAUSE, twnToken d] d)) ∧
  (∀ (n : Nat) (d : Dev),
    let byFault : Prop := ∃ ns, d.twn.faultAt = some ns ∧ ns + 500 ≤ tbNs d
    let byLanes : Prop := ∃ k, d.twn.lanesAt = some k ∧ k < n
    let missing : Prop := 0 < n ∧ stateComplete d (n - 1) = false
    let heard : Prop := ∃ e ∈ d.twn.states, e.1 = n - 1
    let e := if missing ∧ (twnRole d = 2 ∨ heard) then bump TWN_CNT TWN_CNT_STATE_MISS d else d
    let next := if twnToken d < 255 then twnToken d + 1 else 1
    (twnRole d ≠ 2 → twnDetect n d = e) ∧ (twnRole d = 2 → byFault → twnDetect n d = twnOwn 1 next e) ∧
    (twnRole d = 2 → ¬ byFault → byLanes → twnDetect n d = twnOwn 3 next e) ∧
    (twnRole d = 2 → ¬ byFault → ¬ byLanes → missing → twnDetect n d = twnOwn 2 next e) ∧
    (twnRole d = 2 → ¬ byFault → ¬ byLanes → ¬ missing → twnDetect n d = d)) ∧
  (∀ (cause token : Nat) (h : TwnHello) (d : Dev), cause < 256 → token < 256 → d.twn.peer = some h → h.seqs.length = 4 →
    let e := twnOwn cause token d
    twnRole e = 1 ∧ e.twn.ownPin = true ∧ twnToken e = token ∧ rf e TWN_STAT TWN_STAT_LAST_CAUSE = cause ∧ rb e TWN_STAT TWN_STAT_TAKEOVER = true ∧
    e.twn.faultAt = none ∧ e.twn.lanesAt = none ∧ e.twn.ho = none ∧ (∀ k, k < 4 → smGet e.cel.mpSeq k = h.seqs[k]?)) ∧
  (∀ (n : Nat) (d : Dev), (twnIncluded d = false ∨ twnRole d ≠ 1 → twnDemote d = d) ∧
    (twnIncluded d = true → twnRole d = 1 → let e := modTwn (fun t => { t with demoted := true }) (setRole 0 d)
      twnDemote d = twnRecord 1 (detectFault fnTwn 2 (twnSend 4 (tickNum e) (leBytes 1 2 ++ leBytes 3 0) e))) ∧
    (d.twn.ho = none → twnHandover n d = d) ∧
    (∀ a k acked, d.twn.ho = some (a, k, acked) → let e := modTwn (fun t => { t with ho := none }) d
      let fit : Prop := ∃ h, d.twn.peer = some h ∧ h.health % 2 = 0
      (n < a → twnHandover n d = d) ∧
      (a ≤ n → twnRole d = 1 → acked = true → fit →
        twnHandover n d = setRole 2 (wf TWN_STAT TWN_STAT_LAST_CAUSE 4 (wf TWN_STAT TWN_STAT_TOKEN k e))) ∧
      (a ≤ n → twnRole d = 1 → (acked = false ∨ ¬ fit) → twnHandover n d = wf TWN_STAT TWN_STAT_HO_REJ 1 e) ∧
      (a ≤ n → twnRole d = 2 → shadowFit n d = true → twnHandover n d = twnOwn 4 k e) ∧
      (a ≤ n → twnRole d = 2 → shadowFit n d = false → twnHandover n d = e) ∧
      (a ≤ n → twnRole d ≠ 1 → twnRole d ≠ 2 → twnHandover n d = e))) ∧
  (∀ (n : Nat) (d : Dev), shadowFit n d = true ↔ (∀ b, d.twn.lastBad = some b → b + 8 < n) ∧
    ∀ e ∈ d.fns, e.2.state = .faulted → ∀ t ∈ d.twn.states, ∀ f, TwnItem.fn e.1 f ∈ t.2.items → f.state ≠ .running) ∧
  (∀ (n : Nat) (d : Dev), (fnIs d fnTwn .running = false → twnCommit n d = d) ∧
    (fnIs d fnTwn .running = true →
      let items := twnSnapshot d
      let e := modTwn (fun t => { t with own := smPut (t.own.filter (fun x => decide (n < x.1 + 3))) n items }) (twnHandover n (twnDetect n d))
      let f := twnSendBulk 2 n { items := items, scan := none, final := true } e
      let wants := match f.twn.peer with | some h => h.health / 2 % 4 | none => 0
      let full : Bool := wants % 2 == 1 || f.twn.sync == some true
      (twnRole e ≠ 1 → twnCommit n d = e) ∧ (twnRole e = 1 → wants = 0 → full = false → twnCommit n d = f) ∧
      (twnRole e = 1 → (wants ≠ 0 ∨ full = true) → twnCommit n d = twnSendBulk 7 n
        { items := if full then items else [], scan := some ⟨f.scn.m, f.scn.dw, f.scn.tmrs, f.scn.ctrs⟩, final := true } (modTwn (fun t => { t with sync := none }) f)))) ∧
  (∀ (tick token : Nat) (s : State),
    InGale (.handoverFrame tick token) true s (fun d =>
      if twnRole d = 2 then twnSend 6 (tickNum d) (leBytes 4 tick) (modTwn (fun t => { t with ho := some (tick, token, true) }) d) else d) ∧
    InGale (.handoverAck tick) true s (fun d => match d.twn.ho with
      | some (a, k, false) =>
        if a = tick ∧ twnRole d = 1 ∧ (tickNum d + 1 < a ∨ (tickNum d + 1 = a ∧ d.phase ≠ .commit)) then modTwn (fun t => { t with ho := some (a, k, true) }) d
        else d
      | _ => d)) ∧
  (∀ (b : TwnBulk) (s : State), InGale (.syncFrame b) true s (twnRxSync b)) ∧
  (∀ (b : TwnBulk) (d : Dev),
    let put (it : TwnItem) (d : Dev) : Dev := match it with
      | .fn x f => setFn x f d
      | .slot n i dd rlim yhat => setSlot n { getSlot d n with i := i, dd := dd, rlim := rlim, yhat := yhat } d
      | .gen m p v => setMpg m { getMpg d m with p := p, v := v } d
      | .genMode m latch held fault => setMpg m { getMpg d m with latch := latch, held := held, fault := fault } d
      | .chan c k => setChan c { getChan d c with konst := k } d
      | .bar n k upd => setBar n { getBar d n with k := k, upd := upd } d
    let e := forEach b.items put d
    let f := match b.scan with
      | some x => { e with scn := { e.scn with m := x.m, dw := x.dw, tmrs := x.tmrs, ctrs := x.ctrs } }
      | none => e
    (twnRole d < 2 → twnRxSync b d = d) ∧
    (2 ≤ twnRole d → twnRxSync b d = if b.final then modTwn (fun t => { t with sync := none, synced := true }) f else f)) ∧
  (∀ (cycle crc : Nat) (s : State), InGale (.scanCrc cycle crc) true s (fun d =>
    let mine : Prop := ∃ e ∈ d.twn.crcs, e.1 = cycle
    if twnRole d ≠ 2 then d
    else if mine then (if (cycle, crc) ∈ d.twn.crcs then d
      else twnMismatch (tickNum d) (modTwn (fun t => { t with sync := if t.sync = some true then t.sync else some false }) d))
    else modTwn (fun t => { t with theirs := (cycle, crc) :: t.theirs.take 15 }) d)) ∧
  (∀ (cycle crc : Nat) (d : Dev),
    let differs : Prop := twnRole d = 2 ∧ ∃ e ∈ d.twn.theirs, e.1 = cycle ∧ e.2 ≠ crc
    let e := twnSend 8 (tickNum d) (leBytes 8 cycle ++ leBytes 4 crc)
      (modTwn (fun t => { t with crcs := (cycle, crc) :: t.crcs.take 15, theirs := t.theirs.filter (fun x => x.1 != cycle) }) d)
    twnOwnCrc cycle crc d = if differs then
      twnMismatch (tickNum e) (modTwn (fun t => { t with sync := if t.sync = some true then t.sync else some false }) e) else e) ∧
  (∀ (m : Master) (s : State),
    Takes (.twnHandover m) m TWN_CMD (fset 0 TWN_CMD_CMD 1) true s (fun d =>
      let a := tickNum d + 16
      let k := if twnToken d < 255 then twnToken d + 1 else 1
      if twnRole d = 1 then
        twnSend 5 (tickNum d) (leBytes 4 a ++ leBytes 1 k ++ leBytes 3 0) (modTwn (fun t => { t with ho := some (a, k, false) }) d)
      else wf TWN_STAT TWN_STAT_HO_REJ 1 d) ∧
    Takes (.resync m) m TWN_CMD (fset 0 TWN_CMD_CMD 2) true s (modTwn (fun t => { t with sync := some true }))) ∧
  (∀ (h : TwnHello) (b : TwnBulk) (x t k : Nat) (l : Bool) (items : List TwnItem) (v : Word) (lane : Fin 2) (s : State), clocked s.dev = false →
    let d := hostHears true s.dev
    Gives (.hello h) s d ∧ Gives (.state x k l items) s d ∧ Gives (.write x v t) s d ∧ Gives (.fault t) s d ∧ Gives (.handoverFrame x k) s d ∧
    Gives (.handoverAck x) s d ∧ Gives (.syncFrame b) s d ∧ Gives (.scanCrc x k) s d ∧ Gives (.lanesLost t) s d ∧ Gives (.laneLoss lane t) s d ∧
    Gives (.symbolLock lane t) s d)

/-! ### The whole block -/

/-- R506, R509..R512: in LULL and CALM no command has an effect but a reset, what ends the state, and what the endpoint's link does; a core's
fences have none in any state. -/
def Obligations.LowPowerStatesStopEverythingElse : Prop :=
  ∀ (c : Instr) (s : State), awake s.dev = false →
    (exec c s = .next s ∨ ∃ acc, Gives c s (hostHears acc s.dev)) ∨
    (match c with
     | .linkUp .. | .perstNDeassert .. | .perstNAssert .. | .powerOnReset .. | .supplySupervisorTrip .. | .oscillatorLock .. | .wakeIn ..
     | .alarm .. | .thermalShutdownRelease .. => true
     | _ => false) = true
end

