-- ==== Sys2Proof/Laws/Maps.lean ====
section
/-! SUPPORT. Laws of the sparse maps, of the fields of a register and of the byte memory: what is read after a write, and that every
operation on memory keeps its canonical form. -/
namespace Sys2Proof.Machine
open Sys2Proof

/-! ### Sparse maps -/

@[simp] theorem smGet_nil {α : Type} (k : Nat) : smGet ([] : SMap α) k = none := rfl

@[simp] theorem smGet_smPut_same {α : Type} (m : SMap α) (k : Nat) (a : α) : smGet (smPut m k a) k = some a := by
  induction m with
  | nil => simp [smPut, smGet]
  | cons h t ih =>
    obtain ⟨k', a'⟩ := h
    simp only [smPut]
    split
    · simp [smGet]
    · split
      · simp [smGet]
      · simp [smGet, *]

theorem smGet_smPut_other {α : Type} (m : SMap α) {j k : Nat} (a : α) (h : j ≠ k) : smGet (smPut m k a) j = smGet m j := by
  induction m with
  | nil => simp [smPut, smGet, Ne.symm h]
  | cons x t ih =>
    obtain ⟨k', a'⟩ := x
    simp only [smPut]
    split
    · next e => simp [smGet, Ne.symm h, e]
    · split
      · simp [smGet, Ne.symm h]
      · simp [smGet, ih]

@[simp] theorem smGet_smDel_same {α : Type} (m : SMap α) (k : Nat) : smGet (smDel m k) k = none := by
  induction m with
  | nil => rfl
  | cons x t ih =>
    obtain ⟨k', a'⟩ := x
    simp only [smDel, List.filter_cons] at ih ⊢
    split
    · next e => simp only [smGet]; rw [if_neg (by simpa using e)]; exact ih
    · exact ih

theorem smGet_smDel_other {α : Type} (m : SMap α) {j k : Nat} (h : j ≠ k) : smGet (smDel m k) j = smGet m j := by
  induction m with
  | nil => rfl
  | cons x t ih =>
    obtain ⟨k', a'⟩ := x
    simp only [smDel, List.filter_cons] at ih ⊢
    split
    · simp only [smGet, ih]
    · next e =>
      have : k' = k := by simpa using e
      subst this
      simp only [smGet, if_neg (Ne.symm h)]; exact ih

/-! ### Fields -/

/-- The bits of a register with a field set. -/
theorem testBit_fset (w : Word) (f : Fld) (n i : Nat) (h : f.lo ≤ f.hi) (hi : i < 32) :
    (fset w f n).toNat.testBit i = if f.lo ≤ i ∧ i ≤ f.hi then n.testBit (i - f.lo) else w.toNat.testBit i := by
  have hw : f.lo + f.width = f.hi + 1 := by simp [Fld.width]; omega
  simp only [fset, BitVec.toNat_ofNat, Nat.testBit_mod_two_pow, decide_eq_true hi, Bool.true_and]
  have e : (2 : Nat) ^ (f.hi + 1) = 2 ^ f.lo * 2 ^ f.width := by rw [← hw, Nat.pow_add]
  rw [show w.toNat % 2 ^ f.lo + n % 2 ^ f.width * 2 ^ f.lo + w.toNat / 2 ^ (f.hi + 1) * 2 ^ (f.hi + 1)
      = 2 ^ f.lo * (2 ^ f.width * (w.toNat / 2 ^ (f.hi + 1)) + n % 2 ^ f.width) + w.toNat % 2 ^ f.lo by
    rw [e, Nat.mul_add, Nat.mul_comm (n % _), Nat.mul_comm (w.toNat / _), Nat.mul_assoc (2 ^ f.lo)]; omega]
  rw [Nat.testBit_two_pow_mul_add _ (Nat.mod_lt _ (Nat.two_pow_pos _)), Nat.testBit_mod_two_pow]
  by_cases c : i < f.lo
  · rw [if_pos c, if_neg (by omega)]; simp [c]
  · rw [if_neg c, Nat.testBit_two_pow_mul_add _ (Nat.mod_lt _ (Nat.two_pow_pos _)), Nat.testBit_mod_two_pow, Nat.testBit_div_two_pow]
    by_cases c2 : i - f.lo < f.width
    · rw [if_pos c2, if_pos (by omega)]; simp [c2]
    · rw [if_neg c2, if_neg (by omega), show i - f.lo - f.width + (f.hi + 1) = i by omega]

theorem testBit_fget (w : Word) (f : Fld) (i : Nat) : (fget w f).testBit i = (decide (i < f.width) && w.toNat.testBit (f.lo + i)) := by
  simp only [fget, Nat.testBit_mod_two_pow, Nat.testBit_div_two_pow, Nat.add_comm]

/-- A field set and read again holds the number modulo the width. -/
theorem fget_fset (w : Word) (f : Fld) (n : Nat) (h : f.lo ≤ f.hi) (h32 : f.hi < 32) : fget (fset w f n) f = n % 2 ^ f.width := by
  apply Nat.eq_of_testBit_eq
  intro i
  rw [testBit_fget, Nat.testBit_mod_two_pow]
  by_cases c : i < f.width
  · have : f.lo + i ≤ f.hi := by simp [Fld.width] at c; omega
    rw [testBit_fset _ _ _ _ h (by omega), if_pos (by omega)]; simp [c]
  · simp [c]

/-- A field set leaves every field that shares no bit with it alone. -/
theorem fget_fset_other (w : Word) (f g : Fld) (n : Nat) (h : f.lo ≤ f.hi) (hg : g.lo ≤ g.hi) (g32 : g.hi < 32)
    (hd : g.hi < f.lo ∨ f.hi < g.lo) : fget (fset w f n) g = fget w g := by
  apply Nat.eq_of_testBit_eq
  intro i
  rw [testBit_fget, testBit_fget]
  by_cases c : i < g.width
  · have : g.lo + i ≤ g.hi := by simp [Fld.width] at c; omega
    rw [testBit_fset _ _ _ _ h (by omega), if_neg (by omega)]
  · simp [c]

theorem fget_lt (w : Word) (f : Fld) : fget w f < 2 ^ f.width := Nat.mod_lt _ (Nat.two_pow_pos _)

/-! ### Byte memory -/

theorem memRead_memWrite_same (m : Memory) (a : Nat) (b : Byte) : memRead (memWrite m a b) a = b := by
  unfold memWrite
  split
  · next h => simp [memRead, h]
  · simp [memRead]

theorem memRead_memWrite_other (m : Memory) {a j : Nat} (b : Byte) (h : j ≠ a) : memRead (memWrite m a b) j = memRead m j := by
  unfold memWrite
  split
  · simp [memRead, smGet_smDel_other _ h]
  · simp [memRead, smGet_smPut_other _ _ h]

/-- A write of several bytes leaves every byte outside them alone. -/
theorem memRead_memWriteN_outside (bs : List Byte) (m : Memory) (a j : Nat) (h : j < a ∨ a + bs.length ≤ j) :
    memRead (memWriteN m a bs) j = memRead m j := by
  induction bs generalizing m a with
  | nil => rfl
  | cons b t ih =>
    simp only [List.length_cons] at h
    simp only [memWriteN]
    rw [ih _ _ (by omega), memRead_memWrite_other _ _ (by omega)]

/-- A write of several bytes is read back. -/
theorem memRead_memWriteN_inside (bs : List Byte) (m : Memory) (a i : Nat) (h : i < bs.length) :
    memRead (memWriteN m a bs) (a + i) = bs[i] := by
  induction bs generalizing m a i with
  | nil => simp at h
  | cons b t ih =>
    simp only [memWriteN]
    cases i with
    | zero => simp only [Nat.add_zero]; rw [memRead_memWriteN_outside _ _ _ _ (by omega), memRead_memWrite_same]; rfl
    | succ i =>
      have := ih (memWrite m a b) (a + 1) i (by simpa using h)
      rw [show a + (i + 1) = a + 1 + i by omega, this]; rfl

theorem memReadN_memWriteN (bs : List Byte) (m : Memory) (a : Nat) : memReadN (memWriteN m a bs) a bs.length = bs := by
  apply List.ext_getElem
  · simp [memReadN]
  · intro i h1 h2
    simp only [memReadN, List.getElem_map, List.getElem_range]
    exact memRead_memWriteN_inside bs m a i h2

/-! The canonical form: every listed byte differs from an unlisted one, addresses rise. -/

/-- The canonical form as a relation of the head and what follows it. -/
theorem wf_cons (a : Nat) (b : Byte) (t : Memory) :
    Memory.wf ((a, b) :: t) = true ↔ b ≠ unlisted ∧ (∀ e ∈ t, a < e.1) ∧ Memory.wf t = true := by
  induction t generalizing a b with
  | nil => simp [Memory.wf]
  | cons x t ih =>
    obtain ⟨a', b'⟩ := x
    have hx := ih a' b'
    simp only [Memory.wf, Bool.and_eq_true, decide_eq_true_eq, bne_iff_ne, ne_eq, List.mem_cons, forall_eq_or_imp]
    constructor
    · rintro ⟨⟨h1, h2⟩, h3⟩
      refine ⟨h1, ⟨h2, ?_⟩, h3⟩
      intro e he
      exact Nat.lt_trans h2 ((hx.1 h3).2.1 e he)
    · rintro ⟨h1, ⟨h2, -⟩, h3⟩
      exact ⟨⟨h1, h2⟩, h3⟩

theorem wf_filter (p : Host.Cell → Bool) (m : Memory) (h : Memory.wf m = true) : Memory.wf (m.filter p) = true := by
  induction m with
  | nil => rfl
  | cons x t ih =>
    obtain ⟨a, b⟩ := x
    have hc := (wf_cons a b t).1 h
    simp only [List.filter_cons]
    split
    · refine (wf_cons _ _ _).2 ⟨hc.1, fun e he => hc.2.1 e (List.mem_filter.1 he).1, ih hc.2.2⟩
    · exact ih hc.2.2

theorem mem_smPut {α : Type} (m : SMap α) (k : Nat) (a : α) (e : Nat × α) (h : e ∈ smPut m k a) : e = (k, a) ∨ e ∈ m := by
  induction m with
  | nil => simpa [smPut] using h
  | cons x t ih =>
    obtain ⟨k', a'⟩ := x
    simp only [smPut] at h
    split at h
    · simp only [List.mem_cons] at h ⊢; exact h.imp_right .inr
    · split at h
      · simpa only [List.mem_cons] using h
      · simp only [List.mem_cons] at h ⊢
        rcases h with h | h
        · exact Or.inr (Or.inl h)
        · rcases ih h with h | h
          · exact Or.inl h
          · exact Or.inr (Or.inr h)

theorem wf_smPut (m : Memory) (a : Nat) (b : Byte) (hb : b ≠ unlisted) (h : Memory.wf m = true) : Memory.wf (smPut m a b) = true := by
  induction m with
  | nil => simpa [smPut, Memory.wf] using hb
  | cons x t ih =>
    obtain ⟨a', b'⟩ := x
    have hc := (wf_cons a' b' t).1 h
    simp only [smPut]
    split
    · next e => subst e; exact (wf_cons _ _ _).2 ⟨hb, hc.2.1, hc.2.2⟩
    · split
      · next hlt =>
        refine (wf_cons _ _ _).2 ⟨hb, ?_, h⟩
        intro e he
        rcases List.mem_cons.1 he with rfl | he
        · exact hlt
        · exact Nat.lt_trans hlt (hc.2.1 e he)
      · refine (wf_cons _ _ _).2 ⟨hc.1, ?_, ih hc.2.2⟩
        intro e he
        rcases mem_smPut _ _ _ _ he with rfl | he
        · show a' < a; omega
        · exact hc.2.1 e he

theorem wf_memWrite (m : Memory) (a : Nat) (b : Byte) (h : Memory.wf m = true) : Memory.wf (memWrite m a b) = true := by
  unfold memWrite
  split
  · exact wf_filter _ _ h
  · next hb => exact wf_smPut _ _ _ hb h

theorem wf_memWriteN (bs : List Byte) (m : Memory) (a : Nat) (h : Memory.wf m = true) : Memory.wf (memWriteN m a bs) = true := by
  induction bs generalizing m a with
  | nil => exact h
  | cons b t ih => exact ih _ _ (wf_memWrite _ _ _ h)

theorem wf_memClearSram (m : Memory) (h : Memory.wf m = true) : Memory.wf (memClearSram m) = true := wf_filter _ _ h

/-- After all SRAM is set to zero, MRAM reads as before and every other address reads 0. -/
theorem memRead_memClearSram (m : Memory) (a : Nat) : memRead (memClearSram m) a = if isMram a then memRead m a else unlisted := by
  have key : smGet (memClearSram m) a = if isMram a then smGet m a else none := by
    induction m with
    | nil => simp [memClearSram]
    | cons x t ih =>
      obtain ⟨k, b⟩ := x
      simp only [memClearSram, List.filter_cons] at ih ⊢
      by_cases hk : k = a
      · subst hk
        cases hm : isMram k
        · simp [hm] at ih ⊢; exact ih
        · simp [smGet]
      · cases hm : isMram k
        · simp only [smGet, if_neg hk]; exact ih
        · simp only [if_true, smGet, if_neg hk]; exact ih
  unfold memRead
  rw [key]
  split <;> simp_all

end Sys2Proof.Machine
end

