-- ==== Sys2Proof/Laws/State.lean ====
section
/-! SUPPORT. One lemma per field of the device and update of it: what each update leaves alone, and what it reads back as. -/
namespace Sys2Proof.Machine
open Sys2Proof Sys2Proof.Reg

/-! ### `wr` -/

@[simp] theorem wr_live (off : Nat) (v : Word) (d : Dev) : (wr off v d).live = d.live := rfl
@[simp] theorem wr_staged (off : Nat) (v : Word) (d : Dev) : (wr off v d).staged = d.staged := rfl
@[simp] theorem wr_half (off : Nat) (v : Word) (d : Dev) : (wr off v d).half = d.half := rfl
@[simp] theorem wr_latch (off : Nat) (v : Word) (d : Dev) : (wr off v d).latch = d.latch := rfl
@[simp] theorem wr_sets (off : Nat) (v : Word) (d : Dev) : (wr off v d).sets = d.sets := rfl
@[simp] theorem wr_clash (off : Nat) (v : Word) (d : Dev) : (wr off v d).clash = d.clash := rfl
@[simp] theorem wr_fns (off : Nat) (v : Word) (d : Dev) : (wr off v d).fns = d.fns := rfl
@[simp] theorem wr_fcmds (off : Nat) (v : Word) (d : Dev) : (wr off v d).fcmds = d.fcmds := rfl
@[simp] theorem wr_ffaults (off : Nat) (v : Word) (d : Dev) : (wr off v d).ffaults = d.ffaults := rfl
@[simp] theorem wr_fstops (off : Nat) (v : Word) (d : Dev) : (wr off v d).fstops = d.fstops := rfl
@[simp] theorem wr_qspi (off : Nat) (v : Word) (d : Dev) : (wr off v d).qspi = d.qspi := rfl
@[simp] theorem wr_tb (off : Nat) (v : Word) (d : Dev) : (wr off v d).tb = d.tb := rfl
@[simp] theorem wr_phase (off : Nat) (v : Word) (d : Dev) : (wr off v d).phase = d.phase := rfl
@[simp] theorem wr_tick (off : Nat) (v : Word) (d : Dev) : (wr off v d).tick = d.tick := rfl
@[simp] theorem wr_draws (off : Nat) (v : Word) (d : Dev) : (wr off v d).draws = d.draws := rfl
@[simp] theorem wr_memq (off : Nat) (v : Word) (d : Dev) : (wr off v d).memq = d.memq := rfl
@[simp] theorem wr_out (off : Nat) (v : Word) (d : Dev) : (wr off v d).out = d.out := rfl
@[simp] theorem wr_sys (off : Nat) (v : Word) (d : Dev) : (wr off v d).sys = d.sys := rfl
@[simp] theorem wr_cfg (off : Nat) (v : Word) (d : Dev) : (wr off v d).cfg = d.cfg := rfl
@[simp] theorem wr_pwr (off : Nat) (v : Word) (d : Dev) : (wr off v d).pwr = d.pwr := rfl
@[simp] theorem wr_evr (off : Nat) (v : Word) (d : Dev) : (wr off v d).evr = d.evr := rfl
@[simp] theorem wr_hif (off : Nat) (v : Word) (d : Dev) : (wr off v d).hif = d.hif := rfl
@[simp] theorem wr_tbu (off : Nat) (v : Word) (d : Dev) : (wr off v d).tbu = d.tbu := rfl
@[simp] theorem wr_sch (off : Nat) (v : Word) (d : Dev) : (wr off v d).sch = d.sch := rfl
@[simp] theorem wr_net (off : Nat) (v : Word) (d : Dev) : (wr off v d).net = d.net := rfl
@[simp] theorem wr_cel (off : Nat) (v : Word) (d : Dev) : (wr off v d).cel = d.cel := rfl
@[simp] theorem wr_wpu (off : Nat) (v : Word) (d : Dev) : (wr off v d).wpu = d.wpu := rfl
@[simp] theorem wr_fbk (off : Nat) (v : Word) (d : Dev) : (wr off v d).fbk = d.fbk := rfl
@[simp] theorem wr_mpg (off : Nat) (v : Word) (d : Dev) : (wr off v d).mpg = d.mpg := rfl
@[simp] theorem wr_stp (off : Nat) (v : Word) (d : Dev) : (wr off v d).stp = d.stp := rfl
@[simp] theorem wr_lpe (off : Nat) (v : Word) (d : Dev) : (wr off v d).lpe = d.lpe := rfl
@[simp] theorem wr_acq (off : Nat) (v : Word) (d : Dev) : (wr off v d).acq = d.acq := rfl
@[simp] theorem wr_adc (off : Nat) (v : Word) (d : Dev) : (wr off v d).adc = d.adc := rfl
@[simp] theorem wr_twn (off : Nat) (v : Word) (d : Dev) : (wr off v d).twn = d.twn := rfl
@[simp] theorem wr_flk (off : Nat) (v : Word) (d : Dev) : (wr off v d).flk = d.flk := rfl
@[simp] theorem wr_can (off : Nat) (v : Word) (d : Dev) : (wr off v d).can = d.can := rfl
@[simp] theorem wr_scn (off : Nat) (v : Word) (d : Dev) : (wr off v d).scn = d.scn := rfl
@[simp] theorem wr_saf (off : Nat) (v : Word) (d : Dev) : (wr off v d).saf = d.saf := rfl
@[simp] theorem wr_mfp (off : Nat) (v : Word) (d : Dev) : (wr off v d).mfp = d.mfp := rfl

/-! ### `wrLive` -/

@[simp] theorem wrLive_regs (off : Nat) (v : Word) (d : Dev) : (wrLive off v d).regs = d.regs := rfl
@[simp] theorem wrLive_staged (off : Nat) (v : Word) (d : Dev) : (wrLive off v d).staged = d.staged := rfl
@[simp] theorem wrLive_half (off : Nat) (v : Word) (d : Dev) : (wrLive off v d).half = d.half := rfl
@[simp] theorem wrLive_latch (off : Nat) (v : Word) (d : Dev) : (wrLive off v d).latch = d.latch := rfl
@[simp] theorem wrLive_sets (off : Nat) (v : Word) (d : Dev) : (wrLive off v d).sets = d.sets := rfl
@[simp] theorem wrLive_clash (off : Nat) (v : Word) (d : Dev) : (wrLive off v d).clash = d.clash := rfl
@[simp] theorem wrLive_fns (off : Nat) (v : Word) (d : Dev) : (wrLive off v d).fns = d.fns := rfl
@[simp] theorem wrLive_fcmds (off : Nat) (v : Word) (d : Dev) : (wrLive off v d).fcmds = d.fcmds := rfl
@[simp] theorem wrLive_ffaults (off : Nat) (v : Word) (d : Dev) : (wrLive off v d).ffaults = d.ffaults := rfl
@[simp] theorem wrLive_fstops (off : Nat) (v : Word) (d : Dev) : (wrLive off v d).fstops = d.fstops := rfl
@[simp] theorem wrLive_qspi (off : Nat) (v : Word) (d : Dev) : (wrLive off v d).qspi = d.qspi := rfl
@[simp] theorem wrLive_tb (off : Nat) (v : Word) (d : Dev) : (wrLive off v d).tb = d.tb := rfl
@[simp] theorem wrLive_phase (off : Nat) (v : Word) (d : Dev) : (wrLive off v d).phase = d.phase := rfl
@[simp] theorem wrLive_tick (off : Nat) (v : Word) (d : Dev) : (wrLive off v d).tick = d.tick := rfl
@[simp] theorem wrLive_draws (off : Nat) (v : Word) (d : Dev) : (wrLive off v d).draws = d.draws := rfl
@[simp] theorem wrLive_memq (off : Nat) (v : Word) (d : Dev) : (wrLive off v d).memq = d.memq := rfl
@[simp] theorem wrLive_out (off : Nat) (v : Word) (d : Dev) : (wrLive off v d).out = d.out := rfl
@[simp] theorem wrLive_sys (off : Nat) (v : Word) (d : Dev) : (wrLive off v d).sys = d.sys := rfl
@[simp] theorem wrLive_cfg (off : Nat) (v : Word) (d : Dev) : (wrLive off v d).cfg = d.cfg := rfl
@[simp] theorem wrLive_pwr (off : Nat) (v : Word) (d : Dev) : (wrLive off v d).pwr = d.pwr := rfl
@[simp] theorem wrLive_evr (off : Nat) (v : Word) (d : Dev) : (wrLive off v d).evr = d.evr := rfl
@[simp] theorem wrLive_hif (off : Nat) (v : Word) (d : Dev) : (wrLive off v d).hif = d.hif := rfl
@[simp] theorem wrLive_tbu (off : Nat) (v : Word) (d : Dev) : (wrLive off v d).tbu = d.tbu := rfl
@[simp] theorem wrLive_sch (off : Nat) (v : Word) (d : Dev) : (wrLive off v d).sch = d.sch := rfl
@[simp] theorem wrLive_net (off : Nat) (v : Word) (d : Dev) : (wrLive off v d).net = d.net := rfl
@[simp] theorem wrLive_cel (off : Nat) (v : Word) (d : Dev) : (wrLive off v d).cel = d.cel := rfl
@[simp] theorem wrLive_wpu (off : Nat) (v : Word) (d : Dev) : (wrLive off v d).wpu = d.wpu := rfl
@[simp] theorem wrLive_fbk (off : Nat) (v : Word) (d : Dev) : (wrLive off v d).fbk = d.fbk := rfl
@[simp] theorem wrLive_mpg (off : Nat) (v : Word) (d : Dev) : (wrLive off v d).mpg = d.mpg := rfl
@[simp] theorem wrLive_stp (off : Nat) (v : Word) (d : Dev) : (wrLive off v d).stp = d.stp := rfl
@[simp] theorem wrLive_lpe (off : Nat) (v : Word) (d : Dev) : (wrLive off v d).lpe = d.lpe := rfl
@[simp] theorem wrLive_acq (off : Nat) (v : Word) (d : Dev) : (wrLive off v d).acq = d.acq := rfl
@[simp] theorem wrLive_adc (off : Nat) (v : Word) (d : Dev) : (wrLive off v d).adc = d.adc := rfl
@[simp] theorem wrLive_twn (off : Nat) (v : Word) (d : Dev) : (wrLive off v d).twn = d.twn := rfl
@[simp] theorem wrLive_flk (off : Nat) (v : Word) (d : Dev) : (wrLive off v d).flk = d.flk := rfl
@[simp] theorem wrLive_can (off : Nat) (v : Word) (d : Dev) : (wrLive off v d).can = d.can := rfl
@[simp] theorem wrLive_scn (off : Nat) (v : Word) (d : Dev) : (wrLive off v d).scn = d.scn := rfl
@[simp] theorem wrLive_saf (off : Nat) (v : Word) (d : Dev) : (wrLive off v d).saf = d.saf := rfl
@[simp] theorem wrLive_mfp (off : Nat) (v : Word) (d : Dev) : (wrLive off v d).mfp = d.mfp := rfl
@[simp] theorem rd_wrLive (off : Nat) (v : Word) (d : Dev) (at_ : Nat) : rd (wrLive off v d) at_ = rd d at_ := by simp only [rd, wrLive_regs]

/-! ### `emit` -/

@[simp] theorem emit_regs (o : Out) (d : Dev) : (emit o d).regs = d.regs := rfl
@[simp] theorem emit_live (o : Out) (d : Dev) : (emit o d).live = d.live := rfl
@[simp] theorem emit_staged (o : Out) (d : Dev) : (emit o d).staged = d.staged := rfl
@[simp] theorem emit_half (o : Out) (d : Dev) : (emit o d).half = d.half := rfl
@[simp] theorem emit_latch (o : Out) (d : Dev) : (emit o d).latch = d.latch := rfl
@[simp] theorem emit_sets (o : Out) (d : Dev) : (emit o d).sets = d.sets := rfl
@[simp] theorem emit_clash (o : Out) (d : Dev) : (emit o d).clash = d.clash := rfl
@[simp] theorem emit_fns (o : Out) (d : Dev) : (emit o d).fns = d.fns := rfl
@[simp] theorem emit_fcmds (o : Out) (d : Dev) : (emit o d).fcmds = d.fcmds := rfl
@[simp] theorem emit_ffaults (o : Out) (d : Dev) : (emit o d).ffaults = d.ffaults := rfl
@[simp] theorem emit_fstops (o : Out) (d : Dev) : (emit o d).fstops = d.fstops := rfl
@[simp] theorem emit_qspi (o : Out) (d : Dev) : (emit o d).qspi = d.qspi := rfl
@[simp] theorem emit_tb (o : Out) (d : Dev) : (emit o d).tb = d.tb := rfl
@[simp] theorem emit_phase (o : Out) (d : Dev) : (emit o d).phase = d.phase := rfl
@[simp] theorem emit_tick (o : Out) (d : Dev) : (emit o d).tick = d.tick := rfl
@[simp] theorem emit_draws (o : Out) (d : Dev) : (emit o d).draws = d.draws := rfl
@[simp] theorem emit_memq (o : Out) (d : Dev) : (emit o d).memq = d.memq := rfl
@[simp] theorem emit_sys (o : Out) (d : Dev) : (emit o d).sys = d.sys := rfl
@[simp] theorem emit_cfg (o : Out) (d : Dev) : (emit o d).cfg = d.cfg := rfl
@[simp] theorem emit_pwr (o : Out) (d : Dev) : (emit o d).pwr = d.pwr := rfl
@[simp] theorem emit_evr (o : Out) (d : Dev) : (emit o d).evr = d.evr := rfl
@[simp] theorem emit_hif (o : Out) (d : Dev) : (emit o d).hif = d.hif := rfl
@[simp] theorem emit_tbu (o : Out) (d : Dev) : (emit o d).tbu = d.tbu := rfl
@[simp] theorem emit_sch (o : Out) (d : Dev) : (emit o d).sch = d.sch := rfl
@[simp] theorem emit_net (o : Out) (d : Dev) : (emit o d).net = d.net := rfl
@[simp] theorem emit_cel (o : Out) (d : Dev) : (emit o d).cel = d.cel := rfl
@[simp] theorem emit_wpu (o : Out) (d : Dev) : (emit o d).wpu = d.wpu := rfl
@[simp] theorem emit_fbk (o : Out) (d : Dev) : (emit o d).fbk = d.fbk := rfl
@[simp] theorem emit_mpg (o : Out) (d : Dev) : (emit o d).mpg = d.mpg := rfl
@[simp] theorem emit_stp (o : Out) (d : Dev) : (emit o d).stp = d.stp := rfl
@[simp] theorem emit_lpe (o : Out) (d : Dev) : (emit o d).lpe = d.lpe := rfl
@[simp] theorem emit_acq (o : Out) (d : Dev) : (emit o d).acq = d.acq := rfl
@[simp] theorem emit_adc (o : Out) (d : Dev) : (emit o d).adc = d.adc := rfl
@[simp] theorem emit_twn (o : Out) (d : Dev) : (emit o d).twn = d.twn := rfl
@[simp] theorem emit_flk (o : Out) (d : Dev) : (emit o d).flk = d.flk := rfl
@[simp] theorem emit_can (o : Out) (d : Dev) : (emit o d).can = d.can := rfl
@[simp] theorem emit_scn (o : Out) (d : Dev) : (emit o d).scn = d.scn := rfl
@[simp] theorem emit_saf (o : Out) (d : Dev) : (emit o d).saf = d.saf := rfl
@[simp] theorem emit_mfp (o : Out) (d : Dev) : (emit o d).mfp = d.mfp := rfl
@[simp] theorem rd_emit (o : Out) (d : Dev) (at_ : Nat) : rd (emit o d) at_ = rd d at_ := by simp only [rd, emit_regs]

/-! ### `memPut` -/

@[simp] theorem memPut_regs (addr : Nat) (bytes : List Byte) (d : Dev) : (memPut addr bytes d).regs = d.regs := rfl
@[simp] theorem memPut_live (addr : Nat) (bytes : List Byte) (d : Dev) : (memPut addr bytes d).live = d.live := rfl
@[simp] theorem memPut_staged (addr : Nat) (bytes : List Byte) (d : Dev) : (memPut addr bytes d).staged = d.staged := rfl
@[simp] theorem memPut_half (addr : Nat) (bytes : List Byte) (d : Dev) : (memPut addr bytes d).half = d.half := rfl
@[simp] theorem memPut_latch (addr : Nat) (bytes : List Byte) (d : Dev) : (memPut addr bytes d).latch = d.latch := rfl
@[simp] theorem memPut_sets (addr : Nat) (bytes : List Byte) (d : Dev) : (memPut addr bytes d).sets = d.sets := rfl
@[simp] theorem memPut_clash (addr : Nat) (bytes : List Byte) (d : Dev) : (memPut addr bytes d).clash = d.clash := rfl
@[simp] theorem memPut_fns (addr : Nat) (bytes : List Byte) (d : Dev) : (memPut addr bytes d).fns = d.fns := rfl
@[simp] theorem memPut_fcmds (addr : Nat) (bytes : List Byte) (d : Dev) : (memPut addr bytes d).fcmds = d.fcmds := rfl
@[simp] theorem memPut_ffaults (addr : Nat) (bytes : List Byte) (d : Dev) : (memPut addr bytes d).ffaults = d.ffaults := rfl
@[simp] theorem memPut_fstops (addr : Nat) (bytes : List Byte) (d : Dev) : (memPut addr bytes d).fstops = d.fstops := rfl
@[simp] theorem memPut_qspi (addr : Nat) (bytes : List Byte) (d : Dev) : (memPut addr bytes d).qspi = d.qspi := rfl
@[simp] theorem memPut_tb (addr : Nat) (bytes : List Byte) (d : Dev) : (memPut addr bytes d).tb = d.tb := rfl
@[simp] theorem memPut_phase (addr : Nat) (bytes : List Byte) (d : Dev) : (memPut addr bytes d).phase = d.phase := rfl
@[simp] theorem memPut_tick (addr : Nat) (bytes : List Byte) (d : Dev) : (memPut addr bytes d).tick = d.tick := rfl
@[simp] theorem memPut_draws (addr : Nat) (bytes : List Byte) (d : Dev) : (memPut addr bytes d).draws = d.draws := rfl
@[simp] theorem memPut_out (addr : Nat) (bytes : List Byte) (d : Dev) : (memPut addr bytes d).out = d.out := rfl
@[simp] theorem memPut_sys (addr : Nat) (bytes : List Byte) (d : Dev) : (memPut addr bytes d).sys = d.sys := rfl
@[simp] theorem memPut_cfg (addr : Nat) (bytes : List Byte) (d : Dev) : (memPut addr bytes d).cfg = d.cfg := rfl
@[simp] theorem memPut_pwr (addr : Nat) (bytes : List Byte) (d : Dev) : (memPut addr bytes d).pwr = d.pwr := rfl
@[simp] theorem memPut_evr (addr : Nat) (bytes : List Byte) (d : Dev) : (memPut addr bytes d).evr = d.evr := rfl
@[simp] theorem memPut_hif (addr : Nat) (bytes : List Byte) (d : Dev) : (memPut addr bytes d).hif = d.hif := rfl
@[simp] theorem memPut_tbu (addr : Nat) (bytes : List Byte) (d : Dev) : (memPut addr bytes d).tbu = d.tbu := rfl
@[simp] theorem memPut_sch (addr : Nat) (bytes : List Byte) (d : Dev) : (memPut addr bytes d).sch = d.sch := rfl
@[simp] theorem memPut_net (addr : Nat) (bytes : List Byte) (d : Dev) : (memPut addr bytes d).net = d.net := rfl
@[simp] theorem memPut_cel (addr : Nat) (bytes : List Byte) (d : Dev) : (memPut addr bytes d).cel = d.cel := rfl
@[simp] theorem memPut_wpu (addr : Nat) (bytes : List Byte) (d : Dev) : (memPut addr bytes d).wpu = d.wpu := rfl
@[simp] theorem memPut_fbk (addr : Nat) (bytes : List Byte) (d : Dev) : (memPut addr bytes d).fbk = d.fbk := rfl
@[simp] theorem memPut_mpg (addr : Nat) (bytes : List Byte) (d : Dev) : (memPut addr bytes d).mpg = d.mpg := rfl
@[simp] theorem memPut_stp (addr : Nat) (bytes : List Byte) (d : Dev) : (memPut addr bytes d).stp = d.stp := rfl
@[simp] theorem memPut_lpe (addr : Nat) (bytes : List Byte) (d : Dev) : (memPut addr bytes d).lpe = d.lpe := rfl
@[simp] theorem memPut_acq (addr : Nat) (bytes : List Byte) (d : Dev) : (memPut addr bytes d).acq = d.acq := rfl
@[simp] theorem memPut_adc (addr : Nat) (bytes : List Byte) (d : Dev) : (memPut addr bytes d).adc = d.adc := rfl
@[simp] theorem memPut_twn (addr : Nat) (bytes : List Byte) (d : Dev) : (memPut addr bytes d).twn = d.twn := rfl
@[simp] theorem memPut_flk (addr : Nat) (bytes : List Byte) (d : Dev) : (memPut addr bytes d).flk = d.flk := rfl
@[simp] theorem memPut_can (addr : Nat) (bytes : List Byte) (d : Dev) : (memPut addr bytes d).can = d.can := rfl
@[simp] theorem memPut_scn (addr : Nat) (bytes : List Byte) (d : Dev) : (memPut addr bytes d).scn = d.scn := rfl
@[simp] theorem memPut_saf (addr : Nat) (bytes : List Byte) (d : Dev) : (memPut addr bytes d).saf = d.saf := rfl
@[simp] theorem memPut_mfp (addr : Nat) (bytes : List Byte) (d : Dev) : (memPut addr bytes d).mfp = d.mfp := rfl
@[simp] theorem rd_memPut (addr : Nat) (bytes : List Byte) (d : Dev) (at_ : Nat) : rd (memPut addr bytes d) at_ = rd d at_ := by simp only [rd, memPut_regs]

/-! ### `setFn` -/

@[simp] theorem setFn_regs (x : Nat) (f : Fn) (d : Dev) : (setFn x f d).regs = d.regs := rfl
@[simp] theorem setFn_live (x : Nat) (f : Fn) (d : Dev) : (setFn x f d).live = d.live := rfl
@[simp] theorem setFn_staged (x : Nat) (f : Fn) (d : Dev) : (setFn x f d).staged = d.staged := rfl
@[simp] theorem setFn_half (x : Nat) (f : Fn) (d : Dev) : (setFn x f d).half = d.half := rfl
@[simp] theorem setFn_latch (x : Nat) (f : Fn) (d : Dev) : (setFn x f d).latch = d.latch := rfl
@[simp] theorem setFn_sets (x : Nat) (f : Fn) (d : Dev) : (setFn x f d).sets = d.sets := rfl
@[simp] theorem setFn_clash (x : Nat) (f : Fn) (d : Dev) : (setFn x f d).clash = d.clash := rfl
@[simp] theorem setFn_fcmds (x : Nat) (f : Fn) (d : Dev) : (setFn x f d).fcmds = d.fcmds := rfl
@[simp] theorem setFn_ffaults (x : Nat) (f : Fn) (d : Dev) : (setFn x f d).ffaults = d.ffaults := rfl
@[simp] theorem setFn_fstops (x : Nat) (f : Fn) (d : Dev) : (setFn x f d).fstops = d.fstops := rfl
@[simp] theorem setFn_qspi (x : Nat) (f : Fn) (d : Dev) : (setFn x f d).qspi = d.qspi := rfl
@[simp] theorem setFn_tb (x : Nat) (f : Fn) (d : Dev) : (setFn x f d).tb = d.tb := rfl
@[simp] theorem setFn_phase (x : Nat) (f : Fn) (d : Dev) : (setFn x f d).phase = d.phase := rfl
@[simp] theorem setFn_tick (x : Nat) (f : Fn) (d : Dev) : (setFn x f d).tick = d.tick := rfl
@[simp] theorem setFn_draws (x : Nat) (f : Fn) (d : Dev) : (setFn x f d).draws = d.draws := rfl
@[simp] theorem setFn_memq (x : Nat) (f : Fn) (d : Dev) : (setFn x f d).memq = d.memq := rfl
@[simp] theorem setFn_out (x : Nat) (f : Fn) (d : Dev) : (setFn x f d).out = d.out := rfl
@[simp] theorem setFn_sys (x : Nat) (f : Fn) (d : Dev) : (setFn x f d).sys = d.sys := rfl
@[simp] theorem setFn_cfg (x : Nat) (f : Fn) (d : Dev) : (setFn x f d).cfg = d.cfg := rfl
@[simp] theorem setFn_pwr (x : Nat) (f : Fn) (d : Dev) : (setFn x f d).pwr = d.pwr := rfl
@[simp] theorem setFn_evr (x : Nat) (f : Fn) (d : Dev) : (setFn x f d).evr = d.evr := rfl
@[simp] theorem setFn_hif (x : Nat) (f : Fn) (d : Dev) : (setFn x f d).hif = d.hif := rfl
@[simp] theorem setFn_tbu (x : Nat) (f : Fn) (d : Dev) : (setFn x f d).tbu = d.tbu := rfl
@[simp] theorem setFn_sch (x : Nat) (f : Fn) (d : Dev) : (setFn x f d).sch = d.sch := rfl
@[simp] theorem setFn_net (x : Nat) (f : Fn) (d : Dev) : (setFn x f d).net = d.net := rfl
@[simp] theorem setFn_cel (x : Nat) (f : Fn) (d : Dev) : (setFn x f d).cel = d.cel := rfl
@[simp] theorem setFn_wpu (x : Nat) (f : Fn) (d : Dev) : (setFn x f d).wpu = d.wpu := rfl
@[simp] theorem setFn_fbk (x : Nat) (f : Fn) (d : Dev) : (setFn x f d).fbk = d.fbk := rfl
@[simp] theorem setFn_mpg (x : Nat) (f : Fn) (d : Dev) : (setFn x f d).mpg = d.mpg := rfl
@[simp] theorem setFn_stp (x : Nat) (f : Fn) (d : Dev) : (setFn x f d).stp = d.stp := rfl
@[simp] theorem setFn_lpe (x : Nat) (f : Fn) (d : Dev) : (setFn x f d).lpe = d.lpe := rfl
@[simp] theorem setFn_acq (x : Nat) (f : Fn) (d : Dev) : (setFn x f d).acq = d.acq := rfl
@[simp] theorem setFn_adc (x : Nat) (f : Fn) (d : Dev) : (setFn x f d).adc = d.adc := rfl
@[simp] theorem setFn_twn (x : Nat) (f : Fn) (d : Dev) : (setFn x f d).twn = d.twn := rfl
@[simp] theorem setFn_flk (x : Nat) (f : Fn) (d : Dev) : (setFn x f d).flk = d.flk := rfl
@[simp] theorem setFn_can (x : Nat) (f : Fn) (d : Dev) : (setFn x f d).can = d.can := rfl
@[simp] theorem setFn_scn (x : Nat) (f : Fn) (d : Dev) : (setFn x f d).scn = d.scn := rfl
@[simp] theorem setFn_saf (x : Nat) (f : Fn) (d : Dev) : (setFn x f d).saf = d.saf := rfl
@[simp] theorem setFn_mfp (x : Nat) (f : Fn) (d : Dev) : (setFn x f d).mfp = d.mfp := rfl
@[simp] theorem rd_setFn (x : Nat) (f : Fn) (d : Dev) (at_ : Nat) : rd (setFn x f d) at_ = rd d at_ := by simp only [rd, setFn_regs]
@[simp] theorem getFn_setFn (x : Nat) (f : Fn) (d : Dev) : getFn (setFn x f d) x = f := by
  by_cases h : f = {} <;> simp [getFn, setFn, h]
theorem getFn_setFn_other (x : Nat) (f : Fn) (d : Dev) (j : Nat) (h : j ≠ x) : getFn (setFn x f d) j = getFn d j := by
  by_cases e : f = {} <;> simp [getFn, setFn, e, smGet_smDel_other _ h, smGet_smPut_other _ _ h]

/-! ### `stopDone` -/

@[simp] theorem stopDone_regs (x : Nat) (d : Dev) : (stopDone x d).regs = d.regs := by unfold stopDone; split <;> rfl
@[simp] theorem stopDone_live (x : Nat) (d : Dev) : (stopDone x d).live = d.live := by unfold stopDone; split <;> rfl
@[simp] theorem stopDone_staged (x : Nat) (d : Dev) : (stopDone x d).staged = d.staged := by unfold stopDone; split <;> rfl
@[simp] theorem stopDone_half (x : Nat) (d : Dev) : (stopDone x d).half = d.half := by unfold stopDone; split <;> rfl
@[simp] theorem stopDone_latch (x : Nat) (d : Dev) : (stopDone x d).latch = d.latch := by unfold stopDone; split <;> rfl
@[simp] theorem stopDone_sets (x : Nat) (d : Dev) : (stopDone x d).sets = d.sets := by unfold stopDone; split <;> rfl
@[simp] theorem stopDone_clash (x : Nat) (d : Dev) : (stopDone x d).clash = d.clash := by unfold stopDone; split <;> rfl
@[simp] theorem stopDone_fns (x : Nat) (d : Dev) : (stopDone x d).fns = d.fns := by unfold stopDone; split <;> rfl
@[simp] theorem stopDone_fcmds (x : Nat) (d : Dev) : (stopDone x d).fcmds = d.fcmds := by unfold stopDone; split <;> rfl
@[simp] theorem stopDone_ffaults (x : Nat) (d : Dev) : (stopDone x d).ffaults = d.ffaults := by unfold stopDone; split <;> rfl
@[simp] theorem stopDone_qspi (x : Nat) (d : Dev) : (stopDone x d).qspi = d.qspi := by unfold stopDone; split <;> rfl
@[simp] theorem stopDone_tb (x : Nat) (d : Dev) : (stopDone x d).tb = d.tb := by unfold stopDone; split <;> rfl
@[simp] theorem stopDone_phase (x : Nat) (d : Dev) : (stopDone x d).phase = d.phase := by unfold stopDone; split <;> rfl
@[simp] theorem stopDone_tick (x : Nat) (d : Dev) : (stopDone x d).tick = d.tick := by unfold stopDone; split <;> rfl
@[simp] theorem stopDone_draws (x : Nat) (d : Dev) : (stopDone x d).draws = d.draws := by unfold stopDone; split <;> rfl
@[simp] theorem stopDone_memq (x : Nat) (d : Dev) : (stopDone x d).memq = d.memq := by unfold stopDone; split <;> rfl
@[simp] theorem stopDone_out (x : Nat) (d : Dev) : (stopDone x d).out = d.out := by unfold stopDone; split <;> rfl
@[simp] theorem stopDone_sys (x : Nat) (d : Dev) : (stopDone x d).sys = d.sys := by unfold stopDone; split <;> rfl
@[simp] theorem stopDone_cfg (x : Nat) (d : Dev) : (stopDone x d).cfg = d.cfg := by unfold stopDone; split <;> rfl
@[simp] theorem stopDone_pwr (x : Nat) (d : Dev) : (stopDone x d).pwr = d.pwr := by unfold stopDone; split <;> rfl
@[simp] theorem stopDone_evr (x : Nat) (d : Dev) : (stopDone x d).evr = d.evr := by unfold stopDone; split <;> rfl
@[simp] theorem stopDone_hif (x : Nat) (d : Dev) : (stopDone x d).hif = d.hif := by unfold stopDone; split <;> rfl
@[simp] theorem stopDone_tbu (x : Nat) (d : Dev) : (stopDone x d).tbu = d.tbu := by unfold stopDone; split <;> rfl
@[simp] theorem stopDone_sch (x : Nat) (d : Dev) : (stopDone x d).sch = d.sch := by unfold stopDone; split <;> rfl
@[simp] theorem stopDone_net (x : Nat) (d : Dev) : (stopDone x d).net = d.net := by unfold stopDone; split <;> rfl
@[simp] theorem stopDone_cel (x : Nat) (d : Dev) : (stopDone x d).cel = d.cel := by unfold stopDone; split <;> rfl
@[simp] theorem stopDone_wpu (x : Nat) (d : Dev) : (stopDone x d).wpu = d.wpu := by unfold stopDone; split <;> rfl
@[simp] theorem stopDone_fbk (x : Nat) (d : Dev) : (stopDone x d).fbk = d.fbk := by unfold stopDone; split <;> rfl
@[simp] theorem stopDone_mpg (x : Nat) (d : Dev) : (stopDone x d).mpg = d.mpg := by unfold stopDone; split <;> rfl
@[simp] theorem stopDone_stp (x : Nat) (d : Dev) : (stopDone x d).stp = d.stp := by unfold stopDone; split <;> rfl
@[simp] theorem stopDone_lpe (x : Nat) (d : Dev) : (stopDone x d).lpe = d.lpe := by unfold stopDone; split <;> rfl
@[simp] theorem stopDone_acq (x : Nat) (d : Dev) : (stopDone x d).acq = d.acq := by unfold stopDone; split <;> rfl
@[simp] theorem stopDone_adc (x : Nat) (d : Dev) : (stopDone x d).adc = d.adc := by unfold stopDone; split <;> rfl
@[simp] theorem stopDone_twn (x : Nat) (d : Dev) : (stopDone x d).twn = d.twn := by unfold stopDone; split <;> rfl
@[simp] theorem stopDone_flk (x : Nat) (d : Dev) : (stopDone x d).flk = d.flk := by unfold stopDone; split <;> rfl
@[simp] theorem stopDone_can (x : Nat) (d : Dev) : (stopDone x d).can = d.can := by unfold stopDone; split <;> rfl
@[simp] theorem stopDone_scn (x : Nat) (d : Dev) : (stopDone x d).scn = d.scn := by unfold stopDone; split <;> rfl
@[simp] theorem stopDone_saf (x : Nat) (d : Dev) : (stopDone x d).saf = d.saf := by unfold stopDone; split <;> rfl
@[simp] theorem stopDone_mfp (x : Nat) (d : Dev) : (stopDone x d).mfp = d.mfp := by unfold stopDone; split <;> rfl
@[simp] theorem rd_stopDone (x : Nat) (d : Dev) (at_ : Nat) : rd (stopDone x d) at_ = rd d at_ := by simp only [rd, stopDone_regs]

/-! ### `modCfg` -/

@[simp] theorem modCfg_regs (f : CfgUnit → CfgUnit) (d : Dev) : (modCfg f d).regs = d.regs := rfl
@[simp] theorem modCfg_live (f : CfgUnit → CfgUnit) (d : Dev) : (modCfg f d).live = d.live := rfl
@[simp] theorem modCfg_staged (f : CfgUnit → CfgUnit) (d : Dev) : (modCfg f d).staged = d.staged := rfl
@[simp] theorem modCfg_half (f : CfgUnit → CfgUnit) (d : Dev) : (modCfg f d).half = d.half := rfl
@[simp] theorem modCfg_latch (f : CfgUnit → CfgUnit) (d : Dev) : (modCfg f d).latch = d.latch := rfl
@[simp] theorem modCfg_sets (f : CfgUnit → CfgUnit) (d : Dev) : (modCfg f d).sets = d.sets := rfl
@[simp] theorem modCfg_clash (f : CfgUnit → CfgUnit) (d : Dev) : (modCfg f d).clash = d.clash := rfl
@[simp] theorem modCfg_fns (f : CfgUnit → CfgUnit) (d : Dev) : (modCfg f d).fns = d.fns := rfl
@[simp] theorem modCfg_fcmds (f : CfgUnit → CfgUnit) (d : Dev) : (modCfg f d).fcmds = d.fcmds := rfl
@[simp] theorem modCfg_ffaults (f : CfgUnit → CfgUnit) (d : Dev) : (modCfg f d).ffaults = d.ffaults := rfl
@[simp] theorem modCfg_fstops (f : CfgUnit → CfgUnit) (d : Dev) : (modCfg f d).fstops = d.fstops := rfl
@[simp] theorem modCfg_qspi (f : CfgUnit → CfgUnit) (d : Dev) : (modCfg f d).qspi = d.qspi := rfl
@[simp] theorem modCfg_tb (f : CfgUnit → CfgUnit) (d : Dev) : (modCfg f d).tb = d.tb := rfl
@[simp] theorem modCfg_phase (f : CfgUnit → CfgUnit) (d : Dev) : (modCfg f d).phase = d.phase := rfl
@[simp] theorem modCfg_tick (f : CfgUnit → CfgUnit) (d : Dev) : (modCfg f d).tick = d.tick := rfl
@[simp] theorem modCfg_draws (f : CfgUnit → CfgUnit) (d : Dev) : (modCfg f d).draws = d.draws := rfl
@[simp] theorem modCfg_memq (f : CfgUnit → CfgUnit) (d : Dev) : (modCfg f d).memq = d.memq := rfl
@[simp] theorem modCfg_out (f : CfgUnit → CfgUnit) (d : Dev) : (modCfg f d).out = d.out := rfl
@[simp] theorem modCfg_sys (f : CfgUnit → CfgUnit) (d : Dev) : (modCfg f d).sys = d.sys := rfl
@[simp] theorem modCfg_pwr (f : CfgUnit → CfgUnit) (d : Dev) : (modCfg f d).pwr = d.pwr := rfl
@[simp] theorem modCfg_evr (f : CfgUnit → CfgUnit) (d : Dev) : (modCfg f d).evr = d.evr := rfl
@[simp] theorem modCfg_hif (f : CfgUnit → CfgUnit) (d : Dev) : (modCfg f d).hif = d.hif := rfl
@[simp] theorem modCfg_tbu (f : CfgUnit → CfgUnit) (d : Dev) : (modCfg f d).tbu = d.tbu := rfl
@[simp] theorem modCfg_sch (f : CfgUnit → CfgUnit) (d : Dev) : (modCfg f d).sch = d.sch := rfl
@[simp] theorem modCfg_net (f : CfgUnit → CfgUnit) (d : Dev) : (modCfg f d).net = d.net := rfl
@[simp] theorem modCfg_cel (f : CfgUnit → CfgUnit) (d : Dev) : (modCfg f d).cel = d.cel := rfl
@[simp] theorem modCfg_wpu (f : CfgUnit → CfgUnit) (d : Dev) : (modCfg f d).wpu = d.wpu := rfl
@[simp] theorem modCfg_fbk (f : CfgUnit → CfgUnit) (d : Dev) : (modCfg f d).fbk = d.fbk := rfl
@[simp] theorem modCfg_mpg (f : CfgUnit → CfgUnit) (d : Dev) : (modCfg f d).mpg = d.mpg := rfl
@[simp] theorem modCfg_stp (f : CfgUnit → CfgUnit) (d : Dev) : (modCfg f d).stp = d.stp := rfl
@[simp] theorem modCfg_lpe (f : CfgUnit → CfgUnit) (d : Dev) : (modCfg f d).lpe = d.lpe := rfl
@[simp] theorem modCfg_acq (f : CfgUnit → CfgUnit) (d : Dev) : (modCfg f d).acq = d.acq := rfl
@[simp] theorem modCfg_adc (f : CfgUnit → CfgUnit) (d : Dev) : (modCfg f d).adc = d.adc := rfl
@[simp] theorem modCfg_twn (f : CfgUnit → CfgUnit) (d : Dev) : (modCfg f d).twn = d.twn := rfl
@[simp] theorem modCfg_flk (f : CfgUnit → CfgUnit) (d : Dev) : (modCfg f d).flk = d.flk := rfl
@[simp] theorem modCfg_can (f : CfgUnit → CfgUnit) (d : Dev) : (modCfg f d).can = d.can := rfl
@[simp] theorem modCfg_scn (f : CfgUnit → CfgUnit) (d : Dev) : (modCfg f d).scn = d.scn := rfl
@[simp] theorem modCfg_saf (f : CfgUnit → CfgUnit) (d : Dev) : (modCfg f d).saf = d.saf := rfl
@[simp] theorem modCfg_mfp (f : CfgUnit → CfgUnit) (d : Dev) : (modCfg f d).mfp = d.mfp := rfl
@[simp] theorem rd_modCfg (f : CfgUnit → CfgUnit) (d : Dev) (at_ : Nat) : rd (modCfg f d) at_ = rd d at_ := by simp only [rd, modCfg_regs]
@[simp] theorem modCfg_cfg (f : CfgUnit → CfgUnit) (d : Dev) : (modCfg f d).cfg = f d.cfg := rfl

/-! ### `modEvr` -/

@[simp] theorem modEvr_regs (f : EvrUnit → EvrUnit) (d : Dev) : (modEvr f d).regs = d.regs := rfl
@[simp] theorem modEvr_live (f : EvrUnit → EvrUnit) (d : Dev) : (modEvr f d).live = d.live := rfl
@[simp] theorem modEvr_staged (f : EvrUnit → EvrUnit) (d : Dev) : (modEvr f d).staged = d.staged := rfl
@[simp] theorem modEvr_half (f : EvrUnit → EvrUnit) (d : Dev) : (modEvr f d).half = d.half := rfl
@[simp] theorem modEvr_latch (f : EvrUnit → EvrUnit) (d : Dev) : (modEvr f d).latch = d.latch := rfl
@[simp] theorem modEvr_sets (f : EvrUnit → EvrUnit) (d : Dev) : (modEvr f d).sets = d.sets := rfl
@[simp] theorem modEvr_clash (f : EvrUnit → EvrUnit) (d : Dev) : (modEvr f d).clash = d.clash := rfl
@[simp] theorem modEvr_fns (f : EvrUnit → EvrUnit) (d : Dev) : (modEvr f d).fns = d.fns := rfl
@[simp] theorem modEvr_fcmds (f : EvrUnit → EvrUnit) (d : Dev) : (modEvr f d).fcmds = d.fcmds := rfl
@[simp] theorem modEvr_ffaults (f : EvrUnit → EvrUnit) (d : Dev) : (modEvr f d).ffaults = d.ffaults := rfl
@[simp] theorem modEvr_fstops (f : EvrUnit → EvrUnit) (d : Dev) : (modEvr f d).fstops = d.fstops := rfl
@[simp] theorem modEvr_qspi (f : EvrUnit → EvrUnit) (d : Dev) : (modEvr f d).qspi = d.qspi := rfl
@[simp] theorem modEvr_tb (f : EvrUnit → EvrUnit) (d : Dev) : (modEvr f d).tb = d.tb := rfl
@[simp] theorem modEvr_phase (f : EvrUnit → EvrUnit) (d : Dev) : (modEvr f d).phase = d.phase := rfl
@[simp] theorem modEvr_tick (f : EvrUnit → EvrUnit) (d : Dev) : (modEvr f d).tick = d.tick := rfl
@[simp] theorem modEvr_draws (f : EvrUnit → EvrUnit) (d : Dev) : (modEvr f d).draws = d.draws := rfl
@[simp] theorem modEvr_memq (f : EvrUnit → EvrUnit) (d : Dev) : (modEvr f d).memq = d.memq := rfl
@[simp] theorem modEvr_out (f : EvrUnit → EvrUnit) (d : Dev) : (modEvr f d).out = d.out := rfl
@[simp] theorem modEvr_sys (f : EvrUnit → EvrUnit) (d : Dev) : (modEvr f d).sys = d.sys := rfl
@[simp] theorem modEvr_cfg (f : EvrUnit → EvrUnit) (d : Dev) : (modEvr f d).cfg = d.cfg := rfl
@[simp] theorem modEvr_pwr (f : EvrUnit → EvrUnit) (d : Dev) : (modEvr f d).pwr = d.pwr := rfl
@[simp] theorem modEvr_hif (f : EvrUnit → EvrUnit) (d : Dev) : (modEvr f d).hif = d.hif := rfl
@[simp] theorem modEvr_tbu (f : EvrUnit → EvrUnit) (d : Dev) : (modEvr f d).tbu = d.tbu := rfl
@[simp] theorem modEvr_sch (f : EvrUnit → EvrUnit) (d : Dev) : (modEvr f d).sch = d.sch := rfl
@[simp] theorem modEvr_net (f : EvrUnit → EvrUnit) (d : Dev) : (modEvr f d).net = d.net := rfl
@[simp] theorem modEvr_cel (f : EvrUnit → EvrUnit) (d : Dev) : (modEvr f d).cel = d.cel := rfl
@[simp] theorem modEvr_wpu (f : EvrUnit → EvrUnit) (d : Dev) : (modEvr f d).wpu = d.wpu := rfl
@[simp] theorem modEvr_fbk (f : EvrUnit → EvrUnit) (d : Dev) : (modEvr f d).fbk = d.fbk := rfl
@[simp] theorem modEvr_mpg (f : EvrUnit → EvrUnit) (d : Dev) : (modEvr f d).mpg = d.mpg := rfl
@[simp] theorem modEvr_stp (f : EvrUnit → EvrUnit) (d : Dev) : (modEvr f d).stp = d.stp := rfl
@[simp] theorem modEvr_lpe (f : EvrUnit → EvrUnit) (d : Dev) : (modEvr f d).lpe = d.lpe := rfl
@[simp] theorem modEvr_acq (f : EvrUnit → EvrUnit) (d : Dev) : (modEvr f d).acq = d.acq := rfl
@[simp] theorem modEvr_adc (f : EvrUnit → EvrUnit) (d : Dev) : (modEvr f d).adc = d.adc := rfl
@[simp] theorem modEvr_twn (f : EvrUnit → EvrUnit) (d : Dev) : (modEvr f d).twn = d.twn := rfl
@[simp] theorem modEvr_flk (f : EvrUnit → EvrUnit) (d : Dev) : (modEvr f d).flk = d.flk := rfl
@[simp] theorem modEvr_can (f : EvrUnit → EvrUnit) (d : Dev) : (modEvr f d).can = d.can := rfl
@[simp] theorem modEvr_scn (f : EvrUnit → EvrUnit) (d : Dev) : (modEvr f d).scn = d.scn := rfl
@[simp] theorem modEvr_saf (f : EvrUnit → EvrUnit) (d : Dev) : (modEvr f d).saf = d.saf := rfl
@[simp] theorem modEvr_mfp (f : EvrUnit → EvrUnit) (d : Dev) : (modEvr f d).mfp = d.mfp := rfl
@[simp] theorem rd_modEvr (f : EvrUnit → EvrUnit) (d : Dev) (at_ : Nat) : rd (modEvr f d) at_ = rd d at_ := by simp only [rd, modEvr_regs]
@[simp] theorem modEvr_evr (f : EvrUnit → EvrUnit) (d : Dev) : (modEvr f d).evr = f d.evr := rfl

/-! ### `modCel` -/

@[simp] theorem modCel_regs (f : CelUnit → CelUnit) (d : Dev) : (modCel f d).regs = d.regs := rfl
@[simp] theorem modCel_live (f : CelUnit → CelUnit) (d : Dev) : (modCel f d).live = d.live := rfl
@[simp] theorem modCel_staged (f : CelUnit → CelUnit) (d : Dev) : (modCel f d).staged = d.staged := rfl
@[simp] theorem modCel_half (f : CelUnit → CelUnit) (d : Dev) : (modCel f d).half = d.half := rfl
@[simp] theorem modCel_latch (f : CelUnit → CelUnit) (d : Dev) : (modCel f d).latch = d.latch := rfl
@[simp] theorem modCel_sets (f : CelUnit → CelUnit) (d : Dev) : (modCel f d).sets = d.sets := rfl
@[simp] theorem modCel_clash (f : CelUnit → CelUnit) (d : Dev) : (modCel f d).clash = d.clash := rfl
@[simp] theorem modCel_fns (f : CelUnit → CelUnit) (d : Dev) : (modCel f d).fns = d.fns := rfl
@[simp] theorem modCel_fcmds (f : CelUnit → CelUnit) (d : Dev) : (modCel f d).fcmds = d.fcmds := rfl
@[simp] theorem modCel_ffaults (f : CelUnit → CelUnit) (d : Dev) : (modCel f d).ffaults = d.ffaults := rfl
@[simp] theorem modCel_fstops (f : CelUnit → CelUnit) (d : Dev) : (modCel f d).fstops = d.fstops := rfl
@[simp] theorem modCel_qspi (f : CelUnit → CelUnit) (d : Dev) : (modCel f d).qspi = d.qspi := rfl
@[simp] theorem modCel_tb (f : CelUnit → CelUnit) (d : Dev) : (modCel f d).tb = d.tb := rfl
@[simp] theorem modCel_phase (f : CelUnit → CelUnit) (d : Dev) : (modCel f d).phase = d.phase := rfl
@[simp] theorem modCel_tick (f : CelUnit → CelUnit) (d : Dev) : (modCel f d).tick = d.tick := rfl
@[simp] theorem modCel_draws (f : CelUnit → CelUnit) (d : Dev) : (modCel f d).draws = d.draws := rfl
@[simp] theorem modCel_memq (f : CelUnit → CelUnit) (d : Dev) : (modCel f d).memq = d.memq := rfl
@[simp] theorem modCel_out (f : CelUnit → CelUnit) (d : Dev) : (modCel f d).out = d.out := rfl
@[simp] theorem modCel_sys (f : CelUnit → CelUnit) (d : Dev) : (modCel f d).sys = d.sys := rfl
@[simp] theorem modCel_cfg (f : CelUnit → CelUnit) (d : Dev) : (modCel f d).cfg = d.cfg := rfl
@[simp] theorem modCel_pwr (f : CelUnit → CelUnit) (d : Dev) : (modCel f d).pwr = d.pwr := rfl
@[simp] theorem modCel_evr (f : CelUnit → CelUnit) (d : Dev) : (modCel f d).evr = d.evr := rfl
@[simp] theorem modCel_hif (f : CelUnit → CelUnit) (d : Dev) : (modCel f d).hif = d.hif := rfl
@[simp] theorem modCel_tbu (f : CelUnit → CelUnit) (d : Dev) : (modCel f d).tbu = d.tbu := rfl
@[simp] theorem modCel_sch (f : CelUnit → CelUnit) (d : Dev) : (modCel f d).sch = d.sch := rfl
@[simp] theorem modCel_net (f : CelUnit → CelUnit) (d : Dev) : (modCel f d).net = d.net := rfl
@[simp] theorem modCel_wpu (f : CelUnit → CelUnit) (d : Dev) : (modCel f d).wpu = d.wpu := rfl
@[simp] theorem modCel_fbk (f : CelUnit → CelUnit) (d : Dev) : (modCel f d).fbk = d.fbk := rfl
@[simp] theorem modCel_mpg (f : CelUnit → CelUnit) (d : Dev) : (modCel f d).mpg = d.mpg := rfl
@[simp] theorem modCel_stp (f : CelUnit → CelUnit) (d : Dev) : (modCel f d).stp = d.stp := rfl
@[simp] theorem modCel_lpe (f : CelUnit → CelUnit) (d : Dev) : (modCel f d).lpe = d.lpe := rfl
@[simp] theorem modCel_acq (f : CelUnit → CelUnit) (d : Dev) : (modCel f d).acq = d.acq := rfl
@[simp] theorem modCel_adc (f : CelUnit → CelUnit) (d : Dev) : (modCel f d).adc = d.adc := rfl
@[simp] theorem modCel_twn (f : CelUnit → CelUnit) (d : Dev) : (modCel f d).twn = d.twn := rfl
@[simp] theorem modCel_flk (f : CelUnit → CelUnit) (d : Dev) : (modCel f d).flk = d.flk := rfl
@[simp] theorem modCel_can (f : CelUnit → CelUnit) (d : Dev) : (modCel f d).can = d.can := rfl
@[simp] theorem modCel_scn (f : CelUnit → CelUnit) (d : Dev) : (modCel f d).scn = d.scn := rfl
@[simp] theorem modCel_saf (f : CelUnit → CelUnit) (d : Dev) : (modCel f d).saf = d.saf := rfl
@[simp] theorem modCel_mfp (f : CelUnit → CelUnit) (d : Dev) : (modCel f d).mfp = d.mfp := rfl
@[simp] theorem rd_modCel (f : CelUnit → CelUnit) (d : Dev) (at_ : Nat) : rd (modCel f d) at_ = rd d at_ := by simp only [rd, modCel_regs]
@[simp] theorem modCel_cel (f : CelUnit → CelUnit) (d : Dev) : (modCel f d).cel = f d.cel := rfl

/-! ### `modMfp` -/

@[simp] theorem modMfp_regs (f : MfpUnit → MfpUnit) (d : Dev) : (modMfp f d).regs = d.regs := rfl
@[simp] theorem modMfp_live (f : MfpUnit → MfpUnit) (d : Dev) : (modMfp f d).live = d.live := rfl
@[simp] theorem modMfp_staged (f : MfpUnit → MfpUnit) (d : Dev) : (modMfp f d).staged = d.staged := rfl
@[simp] theorem modMfp_half (f : MfpUnit → MfpUnit) (d : Dev) : (modMfp f d).half = d.half := rfl
@[simp] theorem modMfp_latch (f : MfpUnit → MfpUnit) (d : Dev) : (modMfp f d).latch = d.latch := rfl
@[simp] theorem modMfp_sets (f : MfpUnit → MfpUnit) (d : Dev) : (modMfp f d).sets = d.sets := rfl
@[simp] theorem modMfp_clash (f : MfpUnit → MfpUnit) (d : Dev) : (modMfp f d).clash = d.clash := rfl
@[simp] theorem modMfp_fns (f : MfpUnit → MfpUnit) (d : Dev) : (modMfp f d).fns = d.fns := rfl
@[simp] theorem modMfp_fcmds (f : MfpUnit → MfpUnit) (d : Dev) : (modMfp f d).fcmds = d.fcmds := rfl
@[simp] theorem modMfp_ffaults (f : MfpUnit → MfpUnit) (d : Dev) : (modMfp f d).ffaults = d.ffaults := rfl
@[simp] theorem modMfp_fstops (f : MfpUnit → MfpUnit) (d : Dev) : (modMfp f d).fstops = d.fstops := rfl
@[simp] theorem modMfp_qspi (f : MfpUnit → MfpUnit) (d : Dev) : (modMfp f d).qspi = d.qspi := rfl
@[simp] theorem modMfp_tb (f : MfpUnit → MfpUnit) (d : Dev) : (modMfp f d).tb = d.tb := rfl
@[simp] theorem modMfp_phase (f : MfpUnit → MfpUnit) (d : Dev) : (modMfp f d).phase = d.phase := rfl
@[simp] theorem modMfp_tick (f : MfpUnit → MfpUnit) (d : Dev) : (modMfp f d).tick = d.tick := rfl
@[simp] theorem modMfp_draws (f : MfpUnit → MfpUnit) (d : Dev) : (modMfp f d).draws = d.draws := rfl
@[simp] theorem modMfp_memq (f : MfpUnit → MfpUnit) (d : Dev) : (modMfp f d).memq = d.memq := rfl
@[simp] theorem modMfp_out (f : MfpUnit → MfpUnit) (d : Dev) : (modMfp f d).out = d.out := rfl
@[simp] theorem modMfp_sys (f : MfpUnit → MfpUnit) (d : Dev) : (modMfp f d).sys = d.sys := rfl
@[simp] theorem modMfp_cfg (f : MfpUnit → MfpUnit) (d : Dev) : (modMfp f d).cfg = d.cfg := rfl
@[simp] theorem modMfp_pwr (f : MfpUnit → MfpUnit) (d : Dev) : (modMfp f d).pwr = d.pwr := rfl
@[simp] theorem modMfp_evr (f : MfpUnit → MfpUnit) (d : Dev) : (modMfp f d).evr = d.evr := rfl
@[simp] theorem modMfp_hif (f : MfpUnit → MfpUnit) (d : Dev) : (modMfp f d).hif = d.hif := rfl
@[simp] theorem modMfp_tbu (f : MfpUnit → MfpUnit) (d : Dev) : (modMfp f d).tbu = d.tbu := rfl
@[simp] theorem modMfp_sch (f : MfpUnit → MfpUnit) (d : Dev) : (modMfp f d).sch = d.sch := rfl
@[simp] theorem modMfp_net (f : MfpUnit → MfpUnit) (d : Dev) : (modMfp f d).net = d.net := rfl
@[simp] theorem modMfp_cel (f : MfpUnit → MfpUnit) (d : Dev) : (modMfp f d).cel = d.cel := rfl
@[simp] theorem modMfp_wpu (f : MfpUnit → MfpUnit) (d : Dev) : (modMfp f d).wpu = d.wpu := rfl
@[simp] theorem modMfp_fbk (f : MfpUnit → MfpUnit) (d : Dev) : (modMfp f d).fbk = d.fbk := rfl
@[simp] theorem modMfp_mpg (f : MfpUnit → MfpUnit) (d : Dev) : (modMfp f d).mpg = d.mpg := rfl
@[simp] theorem modMfp_stp (f : MfpUnit → MfpUnit) (d : Dev) : (modMfp f d).stp = d.stp := rfl
@[simp] theorem modMfp_lpe (f : MfpUnit → MfpUnit) (d : Dev) : (modMfp f d).lpe = d.lpe := rfl
@[simp] theorem modMfp_acq (f : MfpUnit → MfpUnit) (d : Dev) : (modMfp f d).acq = d.acq := rfl
@[simp] theorem modMfp_adc (f : MfpUnit → MfpUnit) (d : Dev) : (modMfp f d).adc = d.adc := rfl
@[simp] theorem modMfp_twn (f : MfpUnit → MfpUnit) (d : Dev) : (modMfp f d).twn = d.twn := rfl
@[simp] theorem modMfp_flk (f : MfpUnit → MfpUnit) (d : Dev) : (modMfp f d).flk = d.flk := rfl
@[simp] theorem modMfp_can (f : MfpUnit → MfpUnit) (d : Dev) : (modMfp f d).can = d.can := rfl
@[simp] theorem modMfp_scn (f : MfpUnit → MfpUnit) (d : Dev) : (modMfp f d).scn = d.scn := rfl
@[simp] theorem modMfp_saf (f : MfpUnit → MfpUnit) (d : Dev) : (modMfp f d).saf = d.saf := rfl
@[simp] theorem rd_modMfp (f : MfpUnit → MfpUnit) (d : Dev) (at_ : Nat) : rd (modMfp f d) at_ = rd d at_ := by simp only [rd, modMfp_regs]
@[simp] theorem modMfp_mfp (f : MfpUnit → MfpUnit) (d : Dev) : (modMfp f d).mfp = f d.mfp := rfl

/-! ### `modPwr` -/

@[simp] theorem modPwr_regs (f : PwrUnit → PwrUnit) (d : Dev) : (modPwr f d).regs = d.regs := rfl
@[simp] theorem modPwr_live (f : PwrUnit → PwrUnit) (d : Dev) : (modPwr f d).live = d.live := rfl
@[simp] theorem modPwr_staged (f : PwrUnit → PwrUnit) (d : Dev) : (modPwr f d).staged = d.staged := rfl
@[simp] theorem modPwr_half (f : PwrUnit → PwrUnit) (d : Dev) : (modPwr f d).half = d.half := rfl
@[simp] theorem modPwr_latch (f : PwrUnit → PwrUnit) (d : Dev) : (modPwr f d).latch = d.latch := rfl
@[simp] theorem modPwr_sets (f : PwrUnit → PwrUnit) (d : Dev) : (modPwr f d).sets = d.sets := rfl
@[simp] theorem modPwr_clash (f : PwrUnit → PwrUnit) (d : Dev) : (modPwr f d).clash = d.clash := rfl
@[simp] theorem modPwr_fns (f : PwrUnit → PwrUnit) (d : Dev) : (modPwr f d).fns = d.fns := rfl
@[simp] theorem modPwr_fcmds (f : PwrUnit → PwrUnit) (d : Dev) : (modPwr f d).fcmds = d.fcmds := rfl
@[simp] theorem modPwr_ffaults (f : PwrUnit → PwrUnit) (d : Dev) : (modPwr f d).ffaults = d.ffaults := rfl
@[simp] theorem modPwr_fstops (f : PwrUnit → PwrUnit) (d : Dev) : (modPwr f d).fstops = d.fstops := rfl
@[simp] theorem modPwr_qspi (f : PwrUnit → PwrUnit) (d : Dev) : (modPwr f d).qspi = d.qspi := rfl
@[simp] theorem modPwr_tb (f : PwrUnit → PwrUnit) (d : Dev) : (modPwr f d).tb = d.tb := rfl
@[simp] theorem modPwr_phase (f : PwrUnit → PwrUnit) (d : Dev) : (modPwr f d).phase = d.phase := rfl
@[simp] theorem modPwr_tick (f : PwrUnit → PwrUnit) (d : Dev) : (modPwr f d).tick = d.tick := rfl
@[simp] theorem modPwr_draws (f : PwrUnit → PwrUnit) (d : Dev) : (modPwr f d).draws = d.draws := rfl
@[simp] theorem modPwr_memq (f : PwrUnit → PwrUnit) (d : Dev) : (modPwr f d).memq = d.memq := rfl
@[simp] theorem modPwr_out (f : PwrUnit → PwrUnit) (d : Dev) : (modPwr f d).out = d.out := rfl
@[simp] theorem modPwr_sys (f : PwrUnit → PwrUnit) (d : Dev) : (modPwr f d).sys = d.sys := rfl
@[simp] theorem modPwr_cfg (f : PwrUnit → PwrUnit) (d : Dev) : (modPwr f d).cfg = d.cfg := rfl
@[simp] theorem modPwr_evr (f : PwrUnit → PwrUnit) (d : Dev) : (modPwr f d).evr = d.evr := rfl
@[simp] theorem modPwr_hif (f : PwrUnit → PwrUnit) (d : Dev) : (modPwr f d).hif = d.hif := rfl
@[simp] theorem modPwr_tbu (f : PwrUnit → PwrUnit) (d : Dev) : (modPwr f d).tbu = d.tbu := rfl
@[simp] theorem modPwr_sch (f : PwrUnit → PwrUnit) (d : Dev) : (modPwr f d).sch = d.sch := rfl
@[simp] theorem modPwr_net (f : PwrUnit → PwrUnit) (d : Dev) : (modPwr f d).net = d.net := rfl
@[simp] theorem modPwr_cel (f : PwrUnit → PwrUnit) (d : Dev) : (modPwr f d).cel = d.cel := rfl
@[simp] theorem modPwr_wpu (f : PwrUnit → PwrUnit) (d : Dev) : (modPwr f d).wpu = d.wpu := rfl
@[simp] theorem modPwr_fbk (f : PwrUnit → PwrUnit) (d : Dev) : (modPwr f d).fbk = d.fbk := rfl
@[simp] theorem modPwr_mpg (f : PwrUnit → PwrUnit) (d : Dev) : (modPwr f d).mpg = d.mpg := rfl
@[simp] theorem modPwr_stp (f : PwrUnit → PwrUnit) (d : Dev) : (modPwr f d).stp = d.stp := rfl
@[simp] theorem modPwr_lpe (f : PwrUnit → PwrUnit) (d : Dev) : (modPwr f d).lpe = d.lpe := rfl
@[simp] theorem modPwr_acq (f : PwrUnit → PwrUnit) (d : Dev) : (modPwr f d).acq = d.acq := rfl
@[simp] theorem modPwr_adc (f : PwrUnit → PwrUnit) (d : Dev) : (modPwr f d).adc = d.adc := rfl
@[simp] theorem modPwr_twn (f : PwrUnit → PwrUnit) (d : Dev) : (modPwr f d).twn = d.twn := rfl
@[simp] theorem modPwr_flk (f : PwrUnit → PwrUnit) (d : Dev) : (modPwr f d).flk = d.flk := rfl
@[simp] theorem modPwr_can (f : PwrUnit → PwrUnit) (d : Dev) : (modPwr f d).can = d.can := rfl
@[simp] theorem modPwr_scn (f : PwrUnit → PwrUnit) (d : Dev) : (modPwr f d).scn = d.scn := rfl
@[simp] theorem modPwr_saf (f : PwrUnit → PwrUnit) (d : Dev) : (modPwr f d).saf = d.saf := rfl
@[simp] theorem modPwr_mfp (f : PwrUnit → PwrUnit) (d : Dev) : (modPwr f d).mfp = d.mfp := rfl
@[simp] theorem rd_modPwr (f : PwrUnit → PwrUnit) (d : Dev) (at_ : Nat) : rd (modPwr f d) at_ = rd d at_ := by simp only [rd, modPwr_regs]
@[simp] theorem modPwr_pwr (f : PwrUnit → PwrUnit) (d : Dev) : (modPwr f d).pwr = f d.pwr := rfl

/-! ### `modSaf` -/

@[simp] theorem modSaf_regs (f : SafUnit → SafUnit) (d : Dev) : (modSaf f d).regs = d.regs := rfl
@[simp] theorem modSaf_live (f : SafUnit → SafUnit) (d : Dev) : (modSaf f d).live = d.live := rfl
@[simp] theorem modSaf_staged (f : SafUnit → SafUnit) (d : Dev) : (modSaf f d).staged = d.staged := rfl
@[simp] theorem modSaf_half (f : SafUnit → SafUnit) (d : Dev) : (modSaf f d).half = d.half := rfl
@[simp] theorem modSaf_latch (f : SafUnit → SafUnit) (d : Dev) : (modSaf f d).latch = d.latch := rfl
@[simp] theorem modSaf_sets (f : SafUnit → SafUnit) (d : Dev) : (modSaf f d).sets = d.sets := rfl
@[simp] theorem modSaf_clash (f : SafUnit → SafUnit) (d : Dev) : (modSaf f d).clash = d.clash := rfl
@[simp] theorem modSaf_fns (f : SafUnit → SafUnit) (d : Dev) : (modSaf f d).fns = d.fns := rfl
@[simp] theorem modSaf_fcmds (f : SafUnit → SafUnit) (d : Dev) : (modSaf f d).fcmds = d.fcmds := rfl
@[simp] theorem modSaf_ffaults (f : SafUnit → SafUnit) (d : Dev) : (modSaf f d).ffaults = d.ffaults := rfl
@[simp] theorem modSaf_fstops (f : SafUnit → SafUnit) (d : Dev) : (modSaf f d).fstops = d.fstops := rfl
@[simp] theorem modSaf_qspi (f : SafUnit → SafUnit) (d : Dev) : (modSaf f d).qspi = d.qspi := rfl
@[simp] theorem modSaf_tb (f : SafUnit → SafUnit) (d : Dev) : (modSaf f d).tb = d.tb := rfl
@[simp] theorem modSaf_phase (f : SafUnit → SafUnit) (d : Dev) : (modSaf f d).phase = d.phase := rfl
@[simp] theorem modSaf_tick (f : SafUnit → SafUnit) (d : Dev) : (modSaf f d).tick = d.tick := rfl
@[simp] theorem modSaf_draws (f : SafUnit → SafUnit) (d : Dev) : (modSaf f d).draws = d.draws := rfl
@[simp] theorem modSaf_memq (f : SafUnit → SafUnit) (d : Dev) : (modSaf f d).memq = d.memq := rfl
@[simp] theorem modSaf_out (f : SafUnit → SafUnit) (d : Dev) : (modSaf f d).out = d.out := rfl
@[simp] theorem modSaf_sys (f : SafUnit → SafUnit) (d : Dev) : (modSaf f d).sys = d.sys := rfl
@[simp] theorem modSaf_cfg (f : SafUnit → SafUnit) (d : Dev) : (modSaf f d).cfg = d.cfg := rfl
@[simp] theorem modSaf_pwr (f : SafUnit → SafUnit) (d : Dev) : (modSaf f d).pwr = d.pwr := rfl
@[simp] theorem modSaf_evr (f : SafUnit → SafUnit) (d : Dev) : (modSaf f d).evr = d.evr := rfl
@[simp] theorem modSaf_hif (f : SafUnit → SafUnit) (d : Dev) : (modSaf f d).hif = d.hif := rfl
@[simp] theorem modSaf_tbu (f : SafUnit → SafUnit) (d : Dev) : (modSaf f d).tbu = d.tbu := rfl
@[simp] theorem modSaf_sch (f : SafUnit → SafUnit) (d : Dev) : (modSaf f d).sch = d.sch := rfl
@[simp] theorem modSaf_net (f : SafUnit → SafUnit) (d : Dev) : (modSaf f d).net = d.net := rfl
@[simp] theorem modSaf_cel (f : SafUnit → SafUnit) (d : Dev) : (modSaf f d).cel = d.cel := rfl
@[simp] theorem modSaf_wpu (f : SafUnit → SafUnit) (d : Dev) : (modSaf f d).wpu = d.wpu := rfl
@[simp] theorem modSaf_fbk (f : SafUnit → SafUnit) (d : Dev) : (modSaf f d).fbk = d.fbk := rfl
@[simp] theorem modSaf_mpg (f : SafUnit → SafUnit) (d : Dev) : (modSaf f d).mpg = d.mpg := rfl
@[simp] theorem modSaf_stp (f : SafUnit → SafUnit) (d : Dev) : (modSaf f d).stp = d.stp := rfl
@[simp] theorem modSaf_lpe (f : SafUnit → SafUnit) (d : Dev) : (modSaf f d).lpe = d.lpe := rfl
@[simp] theorem modSaf_acq (f : SafUnit → SafUnit) (d : Dev) : (modSaf f d).acq = d.acq := rfl
@[simp] theorem modSaf_adc (f : SafUnit → SafUnit) (d : Dev) : (modSaf f d).adc = d.adc := rfl
@[simp] theorem modSaf_twn (f : SafUnit → SafUnit) (d : Dev) : (modSaf f d).twn = d.twn := rfl
@[simp] theorem modSaf_flk (f : SafUnit → SafUnit) (d : Dev) : (modSaf f d).flk = d.flk := rfl
@[simp] theorem modSaf_can (f : SafUnit → SafUnit) (d : Dev) : (modSaf f d).can = d.can := rfl
@[simp] theorem modSaf_scn (f : SafUnit → SafUnit) (d : Dev) : (modSaf f d).scn = d.scn := rfl
@[simp] theorem modSaf_mfp (f : SafUnit → SafUnit) (d : Dev) : (modSaf f d).mfp = d.mfp := rfl
@[simp] theorem rd_modSaf (f : SafUnit → SafUnit) (d : Dev) (at_ : Nat) : rd (modSaf f d) at_ = rd d at_ := by simp only [rd, modSaf_regs]
@[simp] theorem modSaf_saf (f : SafUnit → SafUnit) (d : Dev) : (modSaf f d).saf = f d.saf := rfl

/-! ### `modScn` -/

@[simp] theorem modScn_regs (f : ScnUnit → ScnUnit) (d : Dev) : (modScn f d).regs = d.regs := rfl
@[simp] theorem modScn_live (f : ScnUnit → ScnUnit) (d : Dev) : (modScn f d).live = d.live := rfl
@[simp] theorem modScn_staged (f : ScnUnit → ScnUnit) (d : Dev) : (modScn f d).staged = d.staged := rfl
@[simp] theorem modScn_half (f : ScnUnit → ScnUnit) (d : Dev) : (modScn f d).half = d.half := rfl
@[simp] theorem modScn_latch (f : ScnUnit → ScnUnit) (d : Dev) : (modScn f d).latch = d.latch := rfl
@[simp] theorem modScn_sets (f : ScnUnit → ScnUnit) (d : Dev) : (modScn f d).sets = d.sets := rfl
@[simp] theorem modScn_clash (f : ScnUnit → ScnUnit) (d : Dev) : (modScn f d).clash = d.clash := rfl
@[simp] theorem modScn_fns (f : ScnUnit → ScnUnit) (d : Dev) : (modScn f d).fns = d.fns := rfl
@[simp] theorem modScn_fcmds (f : ScnUnit → ScnUnit) (d : Dev) : (modScn f d).fcmds = d.fcmds := rfl
@[simp] theorem modScn_ffaults (f : ScnUnit → ScnUnit) (d : Dev) : (modScn f d).ffaults = d.ffaults := rfl
@[simp] theorem modScn_fstops (f : ScnUnit → ScnUnit) (d : Dev) : (modScn f d).fstops = d.fstops := rfl
@[simp] theorem modScn_qspi (f : ScnUnit → ScnUnit) (d : Dev) : (modScn f d).qspi = d.qspi := rfl
@[simp] theorem modScn_tb (f : ScnUnit → ScnUnit) (d : Dev) : (modScn f d).tb = d.tb := rfl
@[simp] theorem modScn_phase (f : ScnUnit → ScnUnit) (d : Dev) : (modScn f d).phase = d.phase := rfl
@[simp] theorem modScn_tick (f : ScnUnit → ScnUnit) (d : Dev) : (modScn f d).tick = d.tick := rfl
@[simp] theorem modScn_draws (f : ScnUnit → ScnUnit) (d : Dev) : (modScn f d).draws = d.draws := rfl
@[simp] theorem modScn_memq (f : ScnUnit → ScnUnit) (d : Dev) : (modScn f d).memq = d.memq := rfl
@[simp] theorem modScn_out (f : ScnUnit → ScnUnit) (d : Dev) : (modScn f d).out = d.out := rfl
@[simp] theorem modScn_sys (f : ScnUnit → ScnUnit) (d : Dev) : (modScn f d).sys = d.sys := rfl
@[simp] theorem modScn_cfg (f : ScnUnit → ScnUnit) (d : Dev) : (modScn f d).cfg = d.cfg := rfl
@[simp] theorem modScn_pwr (f : ScnUnit → ScnUnit) (d : Dev) : (modScn f d).pwr = d.pwr := rfl
@[simp] theorem modScn_evr (f : ScnUnit → ScnUnit) (d : Dev) : (modScn f d).evr = d.evr := rfl
@[simp] theorem modScn_hif (f : ScnUnit → ScnUnit) (d : Dev) : (modScn f d).hif = d.hif := rfl
@[simp] theorem modScn_tbu (f : ScnUnit → ScnUnit) (d : Dev) : (modScn f d).tbu = d.tbu := rfl
@[simp] theorem modScn_sch (f : ScnUnit → ScnUnit) (d : Dev) : (modScn f d).sch = d.sch := rfl
@[simp] theorem modScn_net (f : ScnUnit → ScnUnit) (d : Dev) : (modScn f d).net = d.net := rfl
@[simp] theorem modScn_cel (f : ScnUnit → ScnUnit) (d : Dev) : (modScn f d).cel = d.cel := rfl
@[simp] theorem modScn_wpu (f : ScnUnit → ScnUnit) (d : Dev) : (modScn f d).wpu = d.wpu := rfl
@[simp] theorem modScn_fbk (f : ScnUnit → ScnUnit) (d : Dev) : (modScn f d).fbk = d.fbk := rfl
@[simp] theorem modScn_mpg (f : ScnUnit → ScnUnit) (d : Dev) : (modScn f d).mpg = d.mpg := rfl
@[simp] theorem modScn_stp (f : ScnUnit → ScnUnit) (d : Dev) : (modScn f d).stp = d.stp := rfl
@[simp] theorem modScn_lpe (f : ScnUnit → ScnUnit) (d : Dev) : (modScn f d).lpe = d.lpe := rfl
@[simp] theorem modScn_acq (f : ScnUnit → ScnUnit) (d : Dev) : (modScn f d).acq = d.acq := rfl
@[simp] theorem modScn_adc (f : ScnUnit → ScnUnit) (d : Dev) : (modScn f d).adc = d.adc := rfl
@[simp] theorem modScn_twn (f : ScnUnit → ScnUnit) (d : Dev) : (modScn f d).twn = d.twn := rfl
@[simp] theorem modScn_flk (f : ScnUnit → ScnUnit) (d : Dev) : (modScn f d).flk = d.flk := rfl
@[simp] theorem modScn_can (f : ScnUnit → ScnUnit) (d : Dev) : (modScn f d).can = d.can := rfl
@[simp] theorem modScn_saf (f : ScnUnit → ScnUnit) (d : Dev) : (modScn f d).saf = d.saf := rfl
@[simp] theorem modScn_mfp (f : ScnUnit → ScnUnit) (d : Dev) : (modScn f d).mfp = d.mfp := rfl
@[simp] theorem rd_modScn (f : ScnUnit → ScnUnit) (d : Dev) (at_ : Nat) : rd (modScn f d) at_ = rd d at_ := by simp only [rd, modScn_regs]
@[simp] theorem modScn_scn (f : ScnUnit → ScnUnit) (d : Dev) : (modScn f d).scn = f d.scn := rfl

/-! ### `modTwn` -/

@[simp] theorem modTwn_regs (f : TwnUnit → TwnUnit) (d : Dev) : (modTwn f d).regs = d.regs := rfl
@[simp] theorem modTwn_live (f : TwnUnit → TwnUnit) (d : Dev) : (modTwn f d).live = d.live := rfl
@[simp] theorem modTwn_staged (f : TwnUnit → TwnUnit) (d : Dev) : (modTwn f d).staged = d.staged := rfl
@[simp] theorem modTwn_half (f : TwnUnit → TwnUnit) (d : Dev) : (modTwn f d).half = d.half := rfl
@[simp] theorem modTwn_latch (f : TwnUnit → TwnUnit) (d : Dev) : (modTwn f d).latch = d.latch := rfl
@[simp] theorem modTwn_sets (f : TwnUnit → TwnUnit) (d : Dev) : (modTwn f d).sets = d.sets := rfl
@[simp] theorem modTwn_clash (f : TwnUnit → TwnUnit) (d : Dev) : (modTwn f d).clash = d.clash := rfl
@[simp] theorem modTwn_fns (f : TwnUnit → TwnUnit) (d : Dev) : (modTwn f d).fns = d.fns := rfl
@[simp] theorem modTwn_fcmds (f : TwnUnit → TwnUnit) (d : Dev) : (modTwn f d).fcmds = d.fcmds := rfl
@[simp] theorem modTwn_ffaults (f : TwnUnit → TwnUnit) (d : Dev) : (modTwn f d).ffaults = d.ffaults := rfl
@[simp] theorem modTwn_fstops (f : TwnUnit → TwnUnit) (d : Dev) : (modTwn f d).fstops = d.fstops := rfl
@[simp] theorem modTwn_qspi (f : TwnUnit → TwnUnit) (d : Dev) : (modTwn f d).qspi = d.qspi := rfl
@[simp] theorem modTwn_tb (f : TwnUnit → TwnUnit) (d : Dev) : (modTwn f d).tb = d.tb := rfl
@[simp] theorem modTwn_phase (f : TwnUnit → TwnUnit) (d : Dev) : (modTwn f d).phase = d.phase := rfl
@[simp] theorem modTwn_tick (f : TwnUnit → TwnUnit) (d : Dev) : (modTwn f d).tick = d.tick := rfl
@[simp] theorem modTwn_draws (f : TwnUnit → TwnUnit) (d : Dev) : (modTwn f d).draws = d.draws := rfl
@[simp] theorem modTwn_memq (f : TwnUnit → TwnUnit) (d : Dev) : (modTwn f d).memq = d.memq := rfl
@[simp] theorem modTwn_out (f : TwnUnit → TwnUnit) (d : Dev) : (modTwn f d).out = d.out := rfl
@[simp] theorem modTwn_sys (f : TwnUnit → TwnUnit) (d : Dev) : (modTwn f d).sys = d.sys := rfl
@[simp] theorem modTwn_cfg (f : TwnUnit → TwnUnit) (d : Dev) : (modTwn f d).cfg = d.cfg := rfl
@[simp] theorem modTwn_pwr (f : TwnUnit → TwnUnit) (d : Dev) : (modTwn f d).pwr = d.pwr := rfl
@[simp] theorem modTwn_evr (f : TwnUnit → TwnUnit) (d : Dev) : (modTwn f d).evr = d.evr := rfl
@[simp] theorem modTwn_hif (f : TwnUnit → TwnUnit) (d : Dev) : (modTwn f d).hif = d.hif := rfl
@[simp] theorem modTwn_tbu (f : TwnUnit → TwnUnit) (d : Dev) : (modTwn f d).tbu = d.tbu := rfl
@[simp] theorem modTwn_sch (f : TwnUnit → TwnUnit) (d : Dev) : (modTwn f d).sch = d.sch := rfl
@[simp] theorem modTwn_net (f : TwnUnit → TwnUnit) (d : Dev) : (modTwn f d).net = d.net := rfl
@[simp] theorem modTwn_cel (f : TwnUnit → TwnUnit) (d : Dev) : (modTwn f d).cel = d.cel := rfl
@[simp] theorem modTwn_wpu (f : TwnUnit → TwnUnit) (d : Dev) : (modTwn f d).wpu = d.wpu := rfl
@[simp] theorem modTwn_fbk (f : TwnUnit → TwnUnit) (d : Dev) : (modTwn f d).fbk = d.fbk := rfl
@[simp] theorem modTwn_mpg (f : TwnUnit → TwnUnit) (d : Dev) : (modTwn f d).mpg = d.mpg := rfl
@[simp] theorem modTwn_stp (f : TwnUnit → TwnUnit) (d : Dev) : (modTwn f d).stp = d.stp := rfl
@[simp] theorem modTwn_lpe (f : TwnUnit → TwnUnit) (d : Dev) : (modTwn f d).lpe = d.lpe := rfl
@[simp] theorem modTwn_acq (f : TwnUnit → TwnUnit) (d : Dev) : (modTwn f d).acq = d.acq := rfl
@[simp] theorem modTwn_adc (f : TwnUnit → TwnUnit) (d : Dev) : (modTwn f d).adc = d.adc := rfl
@[simp] theorem modTwn_flk (f : TwnUnit → TwnUnit) (d : Dev) : (modTwn f d).flk = d.flk := rfl
@[simp] theorem modTwn_can (f : TwnUnit → TwnUnit) (d : Dev) : (modTwn f d).can = d.can := rfl
@[simp] theorem modTwn_scn (f : TwnUnit → TwnUnit) (d : Dev) : (modTwn f d).scn = d.scn := rfl
@[simp] theorem modTwn_saf (f : TwnUnit → TwnUnit) (d : Dev) : (modTwn f d).saf = d.saf := rfl
@[simp] theorem modTwn_mfp (f : TwnUnit → TwnUnit) (d : Dev) : (modTwn f d).mfp = d.mfp := rfl
@[simp] theorem rd_modTwn (f : TwnUnit → TwnUnit) (d : Dev) (at_ : Nat) : rd (modTwn f d) at_ = rd d at_ := by simp only [rd, modTwn_regs]
@[simp] theorem modTwn_twn (f : TwnUnit → TwnUnit) (d : Dev) : (modTwn f d).twn = f d.twn := rfl

/-! ### `setAcq` -/

@[simp] theorem setAcq_regs (u : Nat) (x : Acq) (d : Dev) : (setAcq u x d).regs = d.regs := rfl
@[simp] theorem setAcq_live (u : Nat) (x : Acq) (d : Dev) : (setAcq u x d).live = d.live := rfl
@[simp] theorem setAcq_staged (u : Nat) (x : Acq) (d : Dev) : (setAcq u x d).staged = d.staged := rfl
@[simp] theorem setAcq_half (u : Nat) (x : Acq) (d : Dev) : (setAcq u x d).half = d.half := rfl
@[simp] theorem setAcq_latch (u : Nat) (x : Acq) (d : Dev) : (setAcq u x d).latch = d.latch := rfl
@[simp] theorem setAcq_sets (u : Nat) (x : Acq) (d : Dev) : (setAcq u x d).sets = d.sets := rfl
@[simp] theorem setAcq_clash (u : Nat) (x : Acq) (d : Dev) : (setAcq u x d).clash = d.clash := rfl
@[simp] theorem setAcq_fns (u : Nat) (x : Acq) (d : Dev) : (setAcq u x d).fns = d.fns := rfl
@[simp] theorem setAcq_fcmds (u : Nat) (x : Acq) (d : Dev) : (setAcq u x d).fcmds = d.fcmds := rfl
@[simp] theorem setAcq_ffaults (u : Nat) (x : Acq) (d : Dev) : (setAcq u x d).ffaults = d.ffaults := rfl
@[simp] theorem setAcq_fstops (u : Nat) (x : Acq) (d : Dev) : (setAcq u x d).fstops = d.fstops := rfl
@[simp] theorem setAcq_qspi (u : Nat) (x : Acq) (d : Dev) : (setAcq u x d).qspi = d.qspi := rfl
@[simp] theorem setAcq_tb (u : Nat) (x : Acq) (d : Dev) : (setAcq u x d).tb = d.tb := rfl
@[simp] theorem setAcq_phase (u : Nat) (x : Acq) (d : Dev) : (setAcq u x d).phase = d.phase := rfl
@[simp] theorem setAcq_tick (u : Nat) (x : Acq) (d : Dev) : (setAcq u x d).tick = d.tick := rfl
@[simp] theorem setAcq_draws (u : Nat) (x : Acq) (d : Dev) : (setAcq u x d).draws = d.draws := rfl
@[simp] theorem setAcq_memq (u : Nat) (x : Acq) (d : Dev) : (setAcq u x d).memq = d.memq := rfl
@[simp] theorem setAcq_out (u : Nat) (x : Acq) (d : Dev) : (setAcq u x d).out = d.out := rfl
@[simp] theorem setAcq_sys (u : Nat) (x : Acq) (d : Dev) : (setAcq u x d).sys = d.sys := rfl
@[simp] theorem setAcq_cfg (u : Nat) (x : Acq) (d : Dev) : (setAcq u x d).cfg = d.cfg := rfl
@[simp] theorem setAcq_pwr (u : Nat) (x : Acq) (d : Dev) : (setAcq u x d).pwr = d.pwr := rfl
@[simp] theorem setAcq_evr (u : Nat) (x : Acq) (d : Dev) : (setAcq u x d).evr = d.evr := rfl
@[simp] theorem setAcq_hif (u : Nat) (x : Acq) (d : Dev) : (setAcq u x d).hif = d.hif := rfl
@[simp] theorem setAcq_tbu (u : Nat) (x : Acq) (d : Dev) : (setAcq u x d).tbu = d.tbu := rfl
@[simp] theorem setAcq_sch (u : Nat) (x : Acq) (d : Dev) : (setAcq u x d).sch = d.sch := rfl
@[simp] theorem setAcq_net (u : Nat) (x : Acq) (d : Dev) : (setAcq u x d).net = d.net := rfl
@[simp] theorem setAcq_cel (u : Nat) (x : Acq) (d : Dev) : (setAcq u x d).cel = d.cel := rfl
@[simp] theorem setAcq_wpu (u : Nat) (x : Acq) (d : Dev) : (setAcq u x d).wpu = d.wpu := rfl
@[simp] theorem setAcq_fbk (u : Nat) (x : Acq) (d : Dev) : (setAcq u x d).fbk = d.fbk := rfl
@[simp] theorem setAcq_mpg (u : Nat) (x : Acq) (d : Dev) : (setAcq u x d).mpg = d.mpg := rfl
@[simp] theorem setAcq_stp (u : Nat) (x : Acq) (d : Dev) : (setAcq u x d).stp = d.stp := rfl
@[simp] theorem setAcq_lpe (u : Nat) (x : Acq) (d : Dev) : (setAcq u x d).lpe = d.lpe := rfl
@[simp] theorem setAcq_adc (u : Nat) (x : Acq) (d : Dev) : (setAcq u x d).adc = d.adc := rfl
@[simp] theorem setAcq_twn (u : Nat) (x : Acq) (d : Dev) : (setAcq u x d).twn = d.twn := rfl
@[simp] theorem setAcq_flk (u : Nat) (x : Acq) (d : Dev) : (setAcq u x d).flk = d.flk := rfl
@[simp] theorem setAcq_can (u : Nat) (x : Acq) (d : Dev) : (setAcq u x d).can = d.can := rfl
@[simp] theorem setAcq_scn (u : Nat) (x : Acq) (d : Dev) : (setAcq u x d).scn = d.scn := rfl
@[simp] theorem setAcq_saf (u : Nat) (x : Acq) (d : Dev) : (setAcq u x d).saf = d.saf := rfl
@[simp] theorem setAcq_mfp (u : Nat) (x : Acq) (d : Dev) : (setAcq u x d).mfp = d.mfp := rfl
@[simp] theorem rd_setAcq (u : Nat) (x : Acq) (d : Dev) (at_ : Nat) : rd (setAcq u x d) at_ = rd d at_ := by simp only [rd, setAcq_regs]
@[simp] theorem getAcq_setAcq (u : Nat) (x : Acq) (d : Dev) : getAcq (setAcq u x d) u = x := by simp [getAcq, setAcq]
theorem getAcq_setAcq_other (u : Nat) (x : Acq) (d : Dev) {o : Nat} (h : o ≠ u) : getAcq (setAcq u x d) o = getAcq d o := by simp [getAcq, setAcq, smGet_smPut_other _ _ h]

/-! ### `setSar` -/

@[simp] theorem setSar_regs (c : Nat) (x : Sar) (d : Dev) : (setSar c x d).regs = d.regs := rfl
@[simp] theorem setSar_live (c : Nat) (x : Sar) (d : Dev) : (setSar c x d).live = d.live := rfl
@[simp] theorem setSar_staged (c : Nat) (x : Sar) (d : Dev) : (setSar c x d).staged = d.staged := rfl
@[simp] theorem setSar_half (c : Nat) (x : Sar) (d : Dev) : (setSar c x d).half = d.half := rfl
@[simp] theorem setSar_latch (c : Nat) (x : Sar) (d : Dev) : (setSar c x d).latch = d.latch := rfl
@[simp] theorem setSar_sets (c : Nat) (x : Sar) (d : Dev) : (setSar c x d).sets = d.sets := rfl
@[simp] theorem setSar_clash (c : Nat) (x : Sar) (d : Dev) : (setSar c x d).clash = d.clash := rfl
@[simp] theorem setSar_fns (c : Nat) (x : Sar) (d : Dev) : (setSar c x d).fns = d.fns := rfl
@[simp] theorem setSar_fcmds (c : Nat) (x : Sar) (d : Dev) : (setSar c x d).fcmds = d.fcmds := rfl
@[simp] theorem setSar_ffaults (c : Nat) (x : Sar) (d : Dev) : (setSar c x d).ffaults = d.ffaults := rfl
@[simp] theorem setSar_fstops (c : Nat) (x : Sar) (d : Dev) : (setSar c x d).fstops = d.fstops := rfl
@[simp] theorem setSar_qspi (c : Nat) (x : Sar) (d : Dev) : (setSar c x d).qspi = d.qspi := rfl
@[simp] theorem setSar_tb (c : Nat) (x : Sar) (d : Dev) : (setSar c x d).tb = d.tb := rfl
@[simp] theorem setSar_phase (c : Nat) (x : Sar) (d : Dev) : (setSar c x d).phase = d.phase := rfl
@[simp] theorem setSar_tick (c : Nat) (x : Sar) (d : Dev) : (setSar c x d).tick = d.tick := rfl
@[simp] theorem setSar_draws (c : Nat) (x : Sar) (d : Dev) : (setSar c x d).draws = d.draws := rfl
@[simp] theorem setSar_memq (c : Nat) (x : Sar) (d : Dev) : (setSar c x d).memq = d.memq := rfl
@[simp] theorem setSar_out (c : Nat) (x : Sar) (d : Dev) : (setSar c x d).out = d.out := rfl
@[simp] theorem setSar_sys (c : Nat) (x : Sar) (d : Dev) : (setSar c x d).sys = d.sys := rfl
@[simp] theorem setSar_cfg (c : Nat) (x : Sar) (d : Dev) : (setSar c x d).cfg = d.cfg := rfl
@[simp] theorem setSar_pwr (c : Nat) (x : Sar) (d : Dev) : (setSar c x d).pwr = d.pwr := rfl
@[simp] theorem setSar_evr (c : Nat) (x : Sar) (d : Dev) : (setSar c x d).evr = d.evr := rfl
@[simp] theorem setSar_hif (c : Nat) (x : Sar) (d : Dev) : (setSar c x d).hif = d.hif := rfl
@[simp] theorem setSar_tbu (c : Nat) (x : Sar) (d : Dev) : (setSar c x d).tbu = d.tbu := rfl
@[simp] theorem setSar_sch (c : Nat) (x : Sar) (d : Dev) : (setSar c x d).sch = d.sch := rfl
@[simp] theorem setSar_net (c : Nat) (x : Sar) (d : Dev) : (setSar c x d).net = d.net := rfl
@[simp] theorem setSar_cel (c : Nat) (x : Sar) (d : Dev) : (setSar c x d).cel = d.cel := rfl
@[simp] theorem setSar_wpu (c : Nat) (x : Sar) (d : Dev) : (setSar c x d).wpu = d.wpu := rfl
@[simp] theorem setSar_fbk (c : Nat) (x : Sar) (d : Dev) : (setSar c x d).fbk = d.fbk := rfl
@[simp] theorem setSar_mpg (c : Nat) (x : Sar) (d : Dev) : (setSar c x d).mpg = d.mpg := rfl
@[simp] theorem setSar_stp (c : Nat) (x : Sar) (d : Dev) : (setSar c x d).stp = d.stp := rfl
@[simp] theorem setSar_lpe (c : Nat) (x : Sar) (d : Dev) : (setSar c x d).lpe = d.lpe := rfl
@[simp] theorem setSar_acq (c : Nat) (x : Sar) (d : Dev) : (setSar c x d).acq = d.acq := rfl
@[simp] theorem setSar_twn (c : Nat) (x : Sar) (d : Dev) : (setSar c x d).twn = d.twn := rfl
@[simp] theorem setSar_flk (c : Nat) (x : Sar) (d : Dev) : (setSar c x d).flk = d.flk := rfl
@[simp] theorem setSar_can (c : Nat) (x : Sar) (d : Dev) : (setSar c x d).can = d.can := rfl
@[simp] theorem setSar_scn (c : Nat) (x : Sar) (d : Dev) : (setSar c x d).scn = d.scn := rfl
@[simp] theorem setSar_saf (c : Nat) (x : Sar) (d : Dev) : (setSar c x d).saf = d.saf := rfl
@[simp] theorem setSar_mfp (c : Nat) (x : Sar) (d : Dev) : (setSar c x d).mfp = d.mfp := rfl
@[simp] theorem rd_setSar (c : Nat) (x : Sar) (d : Dev) (at_ : Nat) : rd (setSar c x d) at_ = rd d at_ := by simp only [rd, setSar_regs]
@[simp] theorem getSar_setSar (c : Nat) (x : Sar) (d : Dev) : getSar (setSar c x d) c = x := by simp [getSar, setSar]
theorem getSar_setSar_other (c : Nat) (x : Sar) (d : Dev) {o : Nat} (h : o ≠ c) : getSar (setSar c x d) o = getSar d o := by simp [getSar, setSar, smGet_smPut_other _ _ h]

/-! ### `setAin` -/

@[simp] theorem setAin_regs (n : Nat) (x : AdcRes) (d : Dev) : (setAin n x d).regs = d.regs := rfl
@[simp] theorem setAin_live (n : Nat) (x : AdcRes) (d : Dev) : (setAin n x d).live = d.live := rfl
@[simp] theorem setAin_staged (n : Nat) (x : AdcRes) (d : Dev) : (setAin n x d).staged = d.staged := rfl
@[simp] theorem setAin_half (n : Nat) (x : AdcRes) (d : Dev) : (setAin n x d).half = d.half := rfl
@[simp] theorem setAin_latch (n : Nat) (x : AdcRes) (d : Dev) : (setAin n x d).latch = d.latch := rfl
@[simp] theorem setAin_sets (n : Nat) (x : AdcRes) (d : Dev) : (setAin n x d).sets = d.sets := rfl
@[simp] theorem setAin_clash (n : Nat) (x : AdcRes) (d : Dev) : (setAin n x d).clash = d.clash := rfl
@[simp] theorem setAin_fns (n : Nat) (x : AdcRes) (d : Dev) : (setAin n x d).fns = d.fns := rfl
@[simp] theorem setAin_fcmds (n : Nat) (x : AdcRes) (d : Dev) : (setAin n x d).fcmds = d.fcmds := rfl
@[simp] theorem setAin_ffaults (n : Nat) (x : AdcRes) (d : Dev) : (setAin n x d).ffaults = d.ffaults := rfl
@[simp] theorem setAin_fstops (n : Nat) (x : AdcRes) (d : Dev) : (setAin n x d).fstops = d.fstops := rfl
@[simp] theorem setAin_qspi (n : Nat) (x : AdcRes) (d : Dev) : (setAin n x d).qspi = d.qspi := rfl
@[simp] theorem setAin_tb (n : Nat) (x : AdcRes) (d : Dev) : (setAin n x d).tb = d.tb := rfl
@[simp] theorem setAin_phase (n : Nat) (x : AdcRes) (d : Dev) : (setAin n x d).phase = d.phase := rfl
@[simp] theorem setAin_tick (n : Nat) (x : AdcRes) (d : Dev) : (setAin n x d).tick = d.tick := rfl
@[simp] theorem setAin_draws (n : Nat) (x : AdcRes) (d : Dev) : (setAin n x d).draws = d.draws := rfl
@[simp] theorem setAin_memq (n : Nat) (x : AdcRes) (d : Dev) : (setAin n x d).memq = d.memq := rfl
@[simp] theorem setAin_out (n : Nat) (x : AdcRes) (d : Dev) : (setAin n x d).out = d.out := rfl
@[simp] theorem setAin_sys (n : Nat) (x : AdcRes) (d : Dev) : (setAin n x d).sys = d.sys := rfl
@[simp] theorem setAin_cfg (n : Nat) (x : AdcRes) (d : Dev) : (setAin n x d).cfg = d.cfg := rfl
@[simp] theorem setAin_pwr (n : Nat) (x : AdcRes) (d : Dev) : (setAin n x d).pwr = d.pwr := rfl
@[simp] theorem setAin_evr (n : Nat) (x : AdcRes) (d : Dev) : (setAin n x d).evr = d.evr := rfl
@[simp] theorem setAin_hif (n : Nat) (x : AdcRes) (d : Dev) : (setAin n x d).hif = d.hif := rfl
@[simp] theorem setAin_tbu (n : Nat) (x : AdcRes) (d : Dev) : (setAin n x d).tbu = d.tbu := rfl
@[simp] theorem setAin_sch (n : Nat) (x : AdcRes) (d : Dev) : (setAin n x d).sch = d.sch := rfl
@[simp] theorem setAin_net (n : Nat) (x : AdcRes) (d : Dev) : (setAin n x d).net = d.net := rfl
@[simp] theorem setAin_cel (n : Nat) (x : AdcRes) (d : Dev) : (setAin n x d).cel = d.cel := rfl
@[simp] theorem setAin_wpu (n : Nat) (x : AdcRes) (d : Dev) : (setAin n x d).wpu = d.wpu := rfl
@[simp] theorem setAin_fbk (n : Nat) (x : AdcRes) (d : Dev) : (setAin n x d).fbk = d.fbk := rfl
@[simp] theorem setAin_mpg (n : Nat) (x : AdcRes) (d : Dev) : (setAin n x d).mpg = d.mpg := rfl
@[simp] theorem setAin_stp (n : Nat) (x : AdcRes) (d : Dev) : (setAin n x d).stp = d.stp := rfl
@[simp] theorem setAin_lpe (n : Nat) (x : AdcRes) (d : Dev) : (setAin n x d).lpe = d.lpe := rfl
@[simp] theorem setAin_acq (n : Nat) (x : AdcRes) (d : Dev) : (setAin n x d).acq = d.acq := rfl
@[simp] theorem setAin_twn (n : Nat) (x : AdcRes) (d : Dev) : (setAin n x d).twn = d.twn := rfl
@[simp] theorem setAin_flk (n : Nat) (x : AdcRes) (d : Dev) : (setAin n x d).flk = d.flk := rfl
@[simp] theorem setAin_can (n : Nat) (x : AdcRes) (d : Dev) : (setAin n x d).can = d.can := rfl
@[simp] theorem setAin_scn (n : Nat) (x : AdcRes) (d : Dev) : (setAin n x d).scn = d.scn := rfl
@[simp] theorem setAin_saf (n : Nat) (x : AdcRes) (d : Dev) : (setAin n x d).saf = d.saf := rfl
@[simp] theorem setAin_mfp (n : Nat) (x : AdcRes) (d : Dev) : (setAin n x d).mfp = d.mfp := rfl
@[simp] theorem rd_setAin (n : Nat) (x : AdcRes) (d : Dev) (at_ : Nat) : rd (setAin n x d) at_ = rd d at_ := by simp only [rd, setAin_regs]

/-! ### `setSd` -/

@[simp] theorem setSd_regs (k : Nat) (x : Sd) (d : Dev) : (setSd k x d).regs = d.regs := rfl
@[simp] theorem setSd_live (k : Nat) (x : Sd) (d : Dev) : (setSd k x d).live = d.live := rfl
@[simp] theorem setSd_staged (k : Nat) (x : Sd) (d : Dev) : (setSd k x d).staged = d.staged := rfl
@[simp] theorem setSd_half (k : Nat) (x : Sd) (d : Dev) : (setSd k x d).half = d.half := rfl
@[simp] theorem setSd_latch (k : Nat) (x : Sd) (d : Dev) : (setSd k x d).latch = d.latch := rfl
@[simp] theorem setSd_sets (k : Nat) (x : Sd) (d : Dev) : (setSd k x d).sets = d.sets := rfl
@[simp] theorem setSd_clash (k : Nat) (x : Sd) (d : Dev) : (setSd k x d).clash = d.clash := rfl
@[simp] theorem setSd_fns (k : Nat) (x : Sd) (d : Dev) : (setSd k x d).fns = d.fns := rfl
@[simp] theorem setSd_fcmds (k : Nat) (x : Sd) (d : Dev) : (setSd k x d).fcmds = d.fcmds := rfl
@[simp] theorem setSd_ffaults (k : Nat) (x : Sd) (d : Dev) : (setSd k x d).ffaults = d.ffaults := rfl
@[simp] theorem setSd_fstops (k : Nat) (x : Sd) (d : Dev) : (setSd k x d).fstops = d.fstops := rfl
@[simp] theorem setSd_qspi (k : Nat) (x : Sd) (d : Dev) : (setSd k x d).qspi = d.qspi := rfl
@[simp] theorem setSd_tb (k : Nat) (x : Sd) (d : Dev) : (setSd k x d).tb = d.tb := rfl
@[simp] theorem setSd_phase (k : Nat) (x : Sd) (d : Dev) : (setSd k x d).phase = d.phase := rfl
@[simp] theorem setSd_tick (k : Nat) (x : Sd) (d : Dev) : (setSd k x d).tick = d.tick := rfl
@[simp] theorem setSd_draws (k : Nat) (x : Sd) (d : Dev) : (setSd k x d).draws = d.draws := rfl
@[simp] theorem setSd_memq (k : Nat) (x : Sd) (d : Dev) : (setSd k x d).memq = d.memq := rfl
@[simp] theorem setSd_out (k : Nat) (x : Sd) (d : Dev) : (setSd k x d).out = d.out := rfl
@[simp] theorem setSd_sys (k : Nat) (x : Sd) (d : Dev) : (setSd k x d).sys = d.sys := rfl
@[simp] theorem setSd_cfg (k : Nat) (x : Sd) (d : Dev) : (setSd k x d).cfg = d.cfg := rfl
@[simp] theorem setSd_pwr (k : Nat) (x : Sd) (d : Dev) : (setSd k x d).pwr = d.pwr := rfl
@[simp] theorem setSd_evr (k : Nat) (x : Sd) (d : Dev) : (setSd k x d).evr = d.evr := rfl
@[simp] theorem setSd_hif (k : Nat) (x : Sd) (d : Dev) : (setSd k x d).hif = d.hif := rfl
@[simp] theorem setSd_tbu (k : Nat) (x : Sd) (d : Dev) : (setSd k x d).tbu = d.tbu := rfl
@[simp] theorem setSd_sch (k : Nat) (x : Sd) (d : Dev) : (setSd k x d).sch = d.sch := rfl
@[simp] theorem setSd_net (k : Nat) (x : Sd) (d : Dev) : (setSd k x d).net = d.net := rfl
@[simp] theorem setSd_cel (k : Nat) (x : Sd) (d : Dev) : (setSd k x d).cel = d.cel := rfl
@[simp] theorem setSd_wpu (k : Nat) (x : Sd) (d : Dev) : (setSd k x d).wpu = d.wpu := rfl
@[simp] theorem setSd_fbk (k : Nat) (x : Sd) (d : Dev) : (setSd k x d).fbk = d.fbk := rfl
@[simp] theorem setSd_mpg (k : Nat) (x : Sd) (d : Dev) : (setSd k x d).mpg = d.mpg := rfl
@[simp] theorem setSd_stp (k : Nat) (x : Sd) (d : Dev) : (setSd k x d).stp = d.stp := rfl
@[simp] theorem setSd_lpe (k : Nat) (x : Sd) (d : Dev) : (setSd k x d).lpe = d.lpe := rfl
@[simp] theorem setSd_acq (k : Nat) (x : Sd) (d : Dev) : (setSd k x d).acq = d.acq := rfl
@[simp] theorem setSd_twn (k : Nat) (x : Sd) (d : Dev) : (setSd k x d).twn = d.twn := rfl
@[simp] theorem setSd_flk (k : Nat) (x : Sd) (d : Dev) : (setSd k x d).flk = d.flk := rfl
@[simp] theorem setSd_can (k : Nat) (x : Sd) (d : Dev) : (setSd k x d).can = d.can := rfl
@[simp] theorem setSd_scn (k : Nat) (x : Sd) (d : Dev) : (setSd k x d).scn = d.scn := rfl
@[simp] theorem setSd_saf (k : Nat) (x : Sd) (d : Dev) : (setSd k x d).saf = d.saf := rfl
@[simp] theorem setSd_mfp (k : Nat) (x : Sd) (d : Dev) : (setSd k x d).mfp = d.mfp := rfl
@[simp] theorem rd_setSd (k : Nat) (x : Sd) (d : Dev) (at_ : Nat) : rd (setSd k x d) at_ = rd d at_ := by simp only [rd, setSd_regs]
@[simp] theorem getSd_setSd (k : Nat) (x : Sd) (d : Dev) : getSd (setSd k x d) k = x := by simp [getSd, setSd]
theorem getSd_setSd_other (k : Nat) (x : Sd) (d : Dev) {o : Nat} (h : o ≠ k) : getSd (setSd k x d) o = getSd d o := by simp [getSd, setSd, smGet_smPut_other _ _ h]

/-! ### `setCan` -/

@[simp] theorem setCan_regs (k : Nat) (x : CanUnit) (d : Dev) : (setCan k x d).regs = d.regs := rfl
@[simp] theorem setCan_live (k : Nat) (x : CanUnit) (d : Dev) : (setCan k x d).live = d.live := rfl
@[simp] theorem setCan_staged (k : Nat) (x : CanUnit) (d : Dev) : (setCan k x d).staged = d.staged := rfl
@[simp] theorem setCan_half (k : Nat) (x : CanUnit) (d : Dev) : (setCan k x d).half = d.half := rfl
@[simp] theorem setCan_latch (k : Nat) (x : CanUnit) (d : Dev) : (setCan k x d).latch = d.latch := rfl
@[simp] theorem setCan_sets (k : Nat) (x : CanUnit) (d : Dev) : (setCan k x d).sets = d.sets := rfl
@[simp] theorem setCan_clash (k : Nat) (x : CanUnit) (d : Dev) : (setCan k x d).clash = d.clash := rfl
@[simp] theorem setCan_fns (k : Nat) (x : CanUnit) (d : Dev) : (setCan k x d).fns = d.fns := rfl
@[simp] theorem setCan_fcmds (k : Nat) (x : CanUnit) (d : Dev) : (setCan k x d).fcmds = d.fcmds := rfl
@[simp] theorem setCan_ffaults (k : Nat) (x : CanUnit) (d : Dev) : (setCan k x d).ffaults = d.ffaults := rfl
@[simp] theorem setCan_fstops (k : Nat) (x : CanUnit) (d : Dev) : (setCan k x d).fstops = d.fstops := rfl
@[simp] theorem setCan_qspi (k : Nat) (x : CanUnit) (d : Dev) : (setCan k x d).qspi = d.qspi := rfl
@[simp] theorem setCan_tb (k : Nat) (x : CanUnit) (d : Dev) : (setCan k x d).tb = d.tb := rfl
@[simp] theorem setCan_phase (k : Nat) (x : CanUnit) (d : Dev) : (setCan k x d).phase = d.phase := rfl
@[simp] theorem setCan_tick (k : Nat) (x : CanUnit) (d : Dev) : (setCan k x d).tick = d.tick := rfl
@[simp] theorem setCan_draws (k : Nat) (x : CanUnit) (d : Dev) : (setCan k x d).draws = d.draws := rfl
@[simp] theorem setCan_memq (k : Nat) (x : CanUnit) (d : Dev) : (setCan k x d).memq = d.memq := rfl
@[simp] theorem setCan_out (k : Nat) (x : CanUnit) (d : Dev) : (setCan k x d).out = d.out := rfl
@[simp] theorem setCan_sys (k : Nat) (x : CanUnit) (d : Dev) : (setCan k x d).sys = d.sys := rfl
@[simp] theorem setCan_cfg (k : Nat) (x : CanUnit) (d : Dev) : (setCan k x d).cfg = d.cfg := rfl
@[simp] theorem setCan_pwr (k : Nat) (x : CanUnit) (d : Dev) : (setCan k x d).pwr = d.pwr := rfl
@[simp] theorem setCan_evr (k : Nat) (x : CanUnit) (d : Dev) : (setCan k x d).evr = d.evr := rfl
@[simp] theorem setCan_hif (k : Nat) (x : CanUnit) (d : Dev) : (setCan k x d).hif = d.hif := rfl
@[simp] theorem setCan_tbu (k : Nat) (x : CanUnit) (d : Dev) : (setCan k x d).tbu = d.tbu := rfl
@[simp] theorem setCan_sch (k : Nat) (x : CanUnit) (d : Dev) : (setCan k x d).sch = d.sch := rfl
@[simp] theorem setCan_net (k : Nat) (x : CanUnit) (d : Dev) : (setCan k x d).net = d.net := rfl
@[simp] theorem setCan_cel (k : Nat) (x : CanUnit) (d : Dev) : (setCan k x d).cel = d.cel := rfl
@[simp] theorem setCan_wpu (k : Nat) (x : CanUnit) (d : Dev) : (setCan k x d).wpu = d.wpu := rfl
@[simp] theorem setCan_fbk (k : Nat) (x : CanUnit) (d : Dev) : (setCan k x d).fbk = d.fbk := rfl
@[simp] theorem setCan_mpg (k : Nat) (x : CanUnit) (d : Dev) : (setCan k x d).mpg = d.mpg := rfl
@[simp] theorem setCan_stp (k : Nat) (x : CanUnit) (d : Dev) : (setCan k x d).stp = d.stp := rfl
@[simp] theorem setCan_lpe (k : Nat) (x : CanUnit) (d : Dev) : (setCan k x d).lpe = d.lpe := rfl
@[simp] theorem setCan_acq (k : Nat) (x : CanUnit) (d : Dev) : (setCan k x d).acq = d.acq := rfl
@[simp] theorem setCan_adc (k : Nat) (x : CanUnit) (d : Dev) : (setCan k x d).adc = d.adc := rfl
@[simp] theorem setCan_twn (k : Nat) (x : CanUnit) (d : Dev) : (setCan k x d).twn = d.twn := rfl
@[simp] theorem setCan_flk (k : Nat) (x : CanUnit) (d : Dev) : (setCan k x d).flk = d.flk := rfl
@[simp] theorem setCan_scn (k : Nat) (x : CanUnit) (d : Dev) : (setCan k x d).scn = d.scn := rfl
@[simp] theorem setCan_saf (k : Nat) (x : CanUnit) (d : Dev) : (setCan k x d).saf = d.saf := rfl
@[simp] theorem setCan_mfp (k : Nat) (x : CanUnit) (d : Dev) : (setCan k x d).mfp = d.mfp := rfl
@[simp] theorem rd_setCan (k : Nat) (x : CanUnit) (d : Dev) (at_ : Nat) : rd (setCan k x d) at_ = rd d at_ := by simp only [rd, setCan_regs]
@[simp] theorem getCan_setCan (k : Nat) (x : CanUnit) (d : Dev) : getCan (setCan k x d) k = x := by simp [getCan, setCan]
theorem getCan_setCan_other (k : Nat) (x : CanUnit) (d : Dev) {o : Nat} (h : o ≠ k) : getCan (setCan k x d) o = getCan d o := by simp [getCan, setCan, smGet_smPut_other _ _ h]

/-! ### `setFbk` -/

@[simp] theorem setFbk_regs (k : Nat) (x : Fbk) (d : Dev) : (setFbk k x d).regs = d.regs := rfl
@[simp] theorem setFbk_live (k : Nat) (x : Fbk) (d : Dev) : (setFbk k x d).live = d.live := rfl
@[simp] theorem setFbk_staged (k : Nat) (x : Fbk) (d : Dev) : (setFbk k x d).staged = d.staged := rfl
@[simp] theorem setFbk_half (k : Nat) (x : Fbk) (d : Dev) : (setFbk k x d).half = d.half := rfl
@[simp] theorem setFbk_latch (k : Nat) (x : Fbk) (d : Dev) : (setFbk k x d).latch = d.latch := rfl
@[simp] theorem setFbk_sets (k : Nat) (x : Fbk) (d : Dev) : (setFbk k x d).sets = d.sets := rfl
@[simp] theorem setFbk_clash (k : Nat) (x : Fbk) (d : Dev) : (setFbk k x d).clash = d.clash := rfl
@[simp] theorem setFbk_fns (k : Nat) (x : Fbk) (d : Dev) : (setFbk k x d).fns = d.fns := rfl
@[simp] theorem setFbk_fcmds (k : Nat) (x : Fbk) (d : Dev) : (setFbk k x d).fcmds = d.fcmds := rfl
@[simp] theorem setFbk_ffaults (k : Nat) (x : Fbk) (d : Dev) : (setFbk k x d).ffaults = d.ffaults := rfl
@[simp] theorem setFbk_fstops (k : Nat) (x : Fbk) (d : Dev) : (setFbk k x d).fstops = d.fstops := rfl
@[simp] theorem setFbk_qspi (k : Nat) (x : Fbk) (d : Dev) : (setFbk k x d).qspi = d.qspi := rfl
@[simp] theorem setFbk_tb (k : Nat) (x : Fbk) (d : Dev) : (setFbk k x d).tb = d.tb := rfl
@[simp] theorem setFbk_phase (k : Nat) (x : Fbk) (d : Dev) : (setFbk k x d).phase = d.phase := rfl
@[simp] theorem setFbk_tick (k : Nat) (x : Fbk) (d : Dev) : (setFbk k x d).tick = d.tick := rfl
@[simp] theorem setFbk_draws (k : Nat) (x : Fbk) (d : Dev) : (setFbk k x d).draws = d.draws := rfl
@[simp] theorem setFbk_memq (k : Nat) (x : Fbk) (d : Dev) : (setFbk k x d).memq = d.memq := rfl
@[simp] theorem setFbk_out (k : Nat) (x : Fbk) (d : Dev) : (setFbk k x d).out = d.out := rfl
@[simp] theorem setFbk_sys (k : Nat) (x : Fbk) (d : Dev) : (setFbk k x d).sys = d.sys := rfl
@[simp] theorem setFbk_cfg (k : Nat) (x : Fbk) (d : Dev) : (setFbk k x d).cfg = d.cfg := rfl
@[simp] theorem setFbk_pwr (k : Nat) (x : Fbk) (d : Dev) : (setFbk k x d).pwr = d.pwr := rfl
@[simp] theorem setFbk_evr (k : Nat) (x : Fbk) (d : Dev) : (setFbk k x d).evr = d.evr := rfl
@[simp] theorem setFbk_hif (k : Nat) (x : Fbk) (d : Dev) : (setFbk k x d).hif = d.hif := rfl
@[simp] theorem setFbk_tbu (k : Nat) (x : Fbk) (d : Dev) : (setFbk k x d).tbu = d.tbu := rfl
@[simp] theorem setFbk_sch (k : Nat) (x : Fbk) (d : Dev) : (setFbk k x d).sch = d.sch := rfl
@[simp] theorem setFbk_net (k : Nat) (x : Fbk) (d : Dev) : (setFbk k x d).net = d.net := rfl
@[simp] theorem setFbk_cel (k : Nat) (x : Fbk) (d : Dev) : (setFbk k x d).cel = d.cel := rfl
@[simp] theorem setFbk_wpu (k : Nat) (x : Fbk) (d : Dev) : (setFbk k x d).wpu = d.wpu := rfl
@[simp] theorem setFbk_mpg (k : Nat) (x : Fbk) (d : Dev) : (setFbk k x d).mpg = d.mpg := rfl
@[simp] theorem setFbk_stp (k : Nat) (x : Fbk) (d : Dev) : (setFbk k x d).stp = d.stp := rfl
@[simp] theorem setFbk_lpe (k : Nat) (x : Fbk) (d : Dev) : (setFbk k x d).lpe = d.lpe := rfl
@[simp] theorem setFbk_acq (k : Nat) (x : Fbk) (d : Dev) : (setFbk k x d).acq = d.acq := rfl
@[simp] theorem setFbk_adc (k : Nat) (x : Fbk) (d : Dev) : (setFbk k x d).adc = d.adc := rfl
@[simp] theorem setFbk_twn (k : Nat) (x : Fbk) (d : Dev) : (setFbk k x d).twn = d.twn := rfl
@[simp] theorem setFbk_flk (k : Nat) (x : Fbk) (d : Dev) : (setFbk k x d).flk = d.flk := rfl
@[simp] theorem setFbk_can (k : Nat) (x : Fbk) (d : Dev) : (setFbk k x d).can = d.can := rfl
@[simp] theorem setFbk_scn (k : Nat) (x : Fbk) (d : Dev) : (setFbk k x d).scn = d.scn := rfl
@[simp] theorem setFbk_saf (k : Nat) (x : Fbk) (d : Dev) : (setFbk k x d).saf = d.saf := rfl
@[simp] theorem setFbk_mfp (k : Nat) (x : Fbk) (d : Dev) : (setFbk k x d).mfp = d.mfp := rfl
@[simp] theorem rd_setFbk (k : Nat) (x : Fbk) (d : Dev) (at_ : Nat) : rd (setFbk k x d) at_ = rd d at_ := by simp only [rd, setFbk_regs]

/-! ### `setEmu` -/

@[simp] theorem setEmu_regs (e : Nat) (x : Emu) (d : Dev) : (setEmu e x d).regs = d.regs := rfl
@[simp] theorem setEmu_live (e : Nat) (x : Emu) (d : Dev) : (setEmu e x d).live = d.live := rfl
@[simp] theorem setEmu_staged (e : Nat) (x : Emu) (d : Dev) : (setEmu e x d).staged = d.staged := rfl
@[simp] theorem setEmu_half (e : Nat) (x : Emu) (d : Dev) : (setEmu e x d).half = d.half := rfl
@[simp] theorem setEmu_latch (e : Nat) (x : Emu) (d : Dev) : (setEmu e x d).latch = d.latch := rfl
@[simp] theorem setEmu_sets (e : Nat) (x : Emu) (d : Dev) : (setEmu e x d).sets = d.sets := rfl
@[simp] theorem setEmu_clash (e : Nat) (x : Emu) (d : Dev) : (setEmu e x d).clash = d.clash := rfl
@[simp] theorem setEmu_fns (e : Nat) (x : Emu) (d : Dev) : (setEmu e x d).fns = d.fns := rfl
@[simp] theorem setEmu_fcmds (e : Nat) (x : Emu) (d : Dev) : (setEmu e x d).fcmds = d.fcmds := rfl
@[simp] theorem setEmu_ffaults (e : Nat) (x : Emu) (d : Dev) : (setEmu e x d).ffaults = d.ffaults := rfl
@[simp] theorem setEmu_fstops (e : Nat) (x : Emu) (d : Dev) : (setEmu e x d).fstops = d.fstops := rfl
@[simp] theorem setEmu_qspi (e : Nat) (x : Emu) (d : Dev) : (setEmu e x d).qspi = d.qspi := rfl
@[simp] theorem setEmu_tb (e : Nat) (x : Emu) (d : Dev) : (setEmu e x d).tb = d.tb := rfl
@[simp] theorem setEmu_phase (e : Nat) (x : Emu) (d : Dev) : (setEmu e x d).phase = d.phase := rfl
@[simp] theorem setEmu_tick (e : Nat) (x : Emu) (d : Dev) : (setEmu e x d).tick = d.tick := rfl
@[simp] theorem setEmu_draws (e : Nat) (x : Emu) (d : Dev) : (setEmu e x d).draws = d.draws := rfl
@[simp] theorem setEmu_memq (e : Nat) (x : Emu) (d : Dev) : (setEmu e x d).memq = d.memq := rfl
@[simp] theorem setEmu_out (e : Nat) (x : Emu) (d : Dev) : (setEmu e x d).out = d.out := rfl
@[simp] theorem setEmu_sys (e : Nat) (x : Emu) (d : Dev) : (setEmu e x d).sys = d.sys := rfl
@[simp] theorem setEmu_cfg (e : Nat) (x : Emu) (d : Dev) : (setEmu e x d).cfg = d.cfg := rfl
@[simp] theorem setEmu_pwr (e : Nat) (x : Emu) (d : Dev) : (setEmu e x d).pwr = d.pwr := rfl
@[simp] theorem setEmu_evr (e : Nat) (x : Emu) (d : Dev) : (setEmu e x d).evr = d.evr := rfl
@[simp] theorem setEmu_hif (e : Nat) (x : Emu) (d : Dev) : (setEmu e x d).hif = d.hif := rfl
@[simp] theorem setEmu_tbu (e : Nat) (x : Emu) (d : Dev) : (setEmu e x d).tbu = d.tbu := rfl
@[simp] theorem setEmu_sch (e : Nat) (x : Emu) (d : Dev) : (setEmu e x d).sch = d.sch := rfl
@[simp] theorem setEmu_net (e : Nat) (x : Emu) (d : Dev) : (setEmu e x d).net = d.net := rfl
@[simp] theorem setEmu_cel (e : Nat) (x : Emu) (d : Dev) : (setEmu e x d).cel = d.cel := rfl
@[simp] theorem setEmu_wpu (e : Nat) (x : Emu) (d : Dev) : (setEmu e x d).wpu = d.wpu := rfl
@[simp] theorem setEmu_mpg (e : Nat) (x : Emu) (d : Dev) : (setEmu e x d).mpg = d.mpg := rfl
@[simp] theorem setEmu_stp (e : Nat) (x : Emu) (d : Dev) : (setEmu e x d).stp = d.stp := rfl
@[simp] theorem setEmu_lpe (e : Nat) (x : Emu) (d : Dev) : (setEmu e x d).lpe = d.lpe := rfl
@[simp] theorem setEmu_acq (e : Nat) (x : Emu) (d : Dev) : (setEmu e x d).acq = d.acq := rfl
@[simp] theorem setEmu_adc (e : Nat) (x : Emu) (d : Dev) : (setEmu e x d).adc = d.adc := rfl
@[simp] theorem setEmu_twn (e : Nat) (x : Emu) (d : Dev) : (setEmu e x d).twn = d.twn := rfl
@[simp] theorem setEmu_flk (e : Nat) (x : Emu) (d : Dev) : (setEmu e x d).flk = d.flk := rfl
@[simp] theorem setEmu_can (e : Nat) (x : Emu) (d : Dev) : (setEmu e x d).can = d.can := rfl
@[simp] theorem setEmu_scn (e : Nat) (x : Emu) (d : Dev) : (setEmu e x d).scn = d.scn := rfl
@[simp] theorem setEmu_saf (e : Nat) (x : Emu) (d : Dev) : (setEmu e x d).saf = d.saf := rfl
@[simp] theorem setEmu_mfp (e : Nat) (x : Emu) (d : Dev) : (setEmu e x d).mfp = d.mfp := rfl
@[simp] theorem rd_setEmu (e : Nat) (x : Emu) (d : Dev) (at_ : Nat) : rd (setEmu e x d) at_ = rd d at_ := by simp only [rd, setEmu_regs]
@[simp] theorem getEmu_setEmu (e : Nat) (x : Emu) (d : Dev) : getEmu (setEmu e x d) e = x := by simp [getEmu, setEmu]
theorem getEmu_setEmu_other (e : Nat) (x : Emu) (d : Dev) {o : Nat} (h : o ≠ e) : getEmu (setEmu e x d) o = getEmu d o := by simp [getEmu, setEmu, smGet_smPut_other _ _ h]

/-! ### `setFlk` -/

@[simp] theorem setFlk_regs (p : Nat) (x : FlkPort) (d : Dev) : (setFlk p x d).regs = d.regs := rfl
@[simp] theorem setFlk_live (p : Nat) (x : FlkPort) (d : Dev) : (setFlk p x d).live = d.live := rfl
@[simp] theorem setFlk_staged (p : Nat) (x : FlkPort) (d : Dev) : (setFlk p x d).staged = d.staged := rfl
@[simp] theorem setFlk_half (p : Nat) (x : FlkPort) (d : Dev) : (setFlk p x d).half = d.half := rfl
@[simp] theorem setFlk_latch (p : Nat) (x : FlkPort) (d : Dev) : (setFlk p x d).latch = d.latch := rfl
@[simp] theorem setFlk_sets (p : Nat) (x : FlkPort) (d : Dev) : (setFlk p x d).sets = d.sets := rfl
@[simp] theorem setFlk_clash (p : Nat) (x : FlkPort) (d : Dev) : (setFlk p x d).clash = d.clash := rfl
@[simp] theorem setFlk_fns (p : Nat) (x : FlkPort) (d : Dev) : (setFlk p x d).fns = d.fns := rfl
@[simp] theorem setFlk_fcmds (p : Nat) (x : FlkPort) (d : Dev) : (setFlk p x d).fcmds = d.fcmds := rfl
@[simp] theorem setFlk_ffaults (p : Nat) (x : FlkPort) (d : Dev) : (setFlk p x d).ffaults = d.ffaults := rfl
@[simp] theorem setFlk_fstops (p : Nat) (x : FlkPort) (d : Dev) : (setFlk p x d).fstops = d.fstops := rfl
@[simp] theorem setFlk_qspi (p : Nat) (x : FlkPort) (d : Dev) : (setFlk p x d).qspi = d.qspi := rfl
@[simp] theorem setFlk_tb (p : Nat) (x : FlkPort) (d : Dev) : (setFlk p x d).tb = d.tb := rfl
@[simp] theorem setFlk_phase (p : Nat) (x : FlkPort) (d : Dev) : (setFlk p x d).phase = d.phase := rfl
@[simp] theorem setFlk_tick (p : Nat) (x : FlkPort) (d : Dev) : (setFlk p x d).tick = d.tick := rfl
@[simp] theorem setFlk_draws (p : Nat) (x : FlkPort) (d : Dev) : (setFlk p x d).draws = d.draws := rfl
@[simp] theorem setFlk_memq (p : Nat) (x : FlkPort) (d : Dev) : (setFlk p x d).memq = d.memq := rfl
@[simp] theorem setFlk_out (p : Nat) (x : FlkPort) (d : Dev) : (setFlk p x d).out = d.out := rfl
@[simp] theorem setFlk_sys (p : Nat) (x : FlkPort) (d : Dev) : (setFlk p x d).sys = d.sys := rfl
@[simp] theorem setFlk_cfg (p : Nat) (x : FlkPort) (d : Dev) : (setFlk p x d).cfg = d.cfg := rfl
@[simp] theorem setFlk_pwr (p : Nat) (x : FlkPort) (d : Dev) : (setFlk p x d).pwr = d.pwr := rfl
@[simp] theorem setFlk_evr (p : Nat) (x : FlkPort) (d : Dev) : (setFlk p x d).evr = d.evr := rfl
@[simp] theorem setFlk_hif (p : Nat) (x : FlkPort) (d : Dev) : (setFlk p x d).hif = d.hif := rfl
@[simp] theorem setFlk_tbu (p : Nat) (x : FlkPort) (d : Dev) : (setFlk p x d).tbu = d.tbu := rfl
@[simp] theorem setFlk_sch (p : Nat) (x : FlkPort) (d : Dev) : (setFlk p x d).sch = d.sch := rfl
@[simp] theorem setFlk_net (p : Nat) (x : FlkPort) (d : Dev) : (setFlk p x d).net = d.net := rfl
@[simp] theorem setFlk_cel (p : Nat) (x : FlkPort) (d : Dev) : (setFlk p x d).cel = d.cel := rfl
@[simp] theorem setFlk_wpu (p : Nat) (x : FlkPort) (d : Dev) : (setFlk p x d).wpu = d.wpu := rfl
@[simp] theorem setFlk_fbk (p : Nat) (x : FlkPort) (d : Dev) : (setFlk p x d).fbk = d.fbk := rfl
@[simp] theorem setFlk_mpg (p : Nat) (x : FlkPort) (d : Dev) : (setFlk p x d).mpg = d.mpg := rfl
@[simp] theorem setFlk_stp (p : Nat) (x : FlkPort) (d : Dev) : (setFlk p x d).stp = d.stp := rfl
@[simp] theorem setFlk_lpe (p : Nat) (x : FlkPort) (d : Dev) : (setFlk p x d).lpe = d.lpe := rfl
@[simp] theorem setFlk_acq (p : Nat) (x : FlkPort) (d : Dev) : (setFlk p x d).acq = d.acq := rfl
@[simp] theorem setFlk_adc (p : Nat) (x : FlkPort) (d : Dev) : (setFlk p x d).adc = d.adc := rfl
@[simp] theorem setFlk_twn (p : Nat) (x : FlkPort) (d : Dev) : (setFlk p x d).twn = d.twn := rfl
@[simp] theorem setFlk_can (p : Nat) (x : FlkPort) (d : Dev) : (setFlk p x d).can = d.can := rfl
@[simp] theorem setFlk_scn (p : Nat) (x : FlkPort) (d : Dev) : (setFlk p x d).scn = d.scn := rfl
@[simp] theorem setFlk_saf (p : Nat) (x : FlkPort) (d : Dev) : (setFlk p x d).saf = d.saf := rfl
@[simp] theorem setFlk_mfp (p : Nat) (x : FlkPort) (d : Dev) : (setFlk p x d).mfp = d.mfp := rfl
@[simp] theorem rd_setFlk (p : Nat) (x : FlkPort) (d : Dev) (at_ : Nat) : rd (setFlk p x d) at_ = rd d at_ := by simp only [rd, setFlk_regs]
@[simp] theorem getFlk_setFlk (p : Nat) (x : FlkPort) (d : Dev) : getFlk (setFlk p x d) p = x := by simp [getFlk, setFlk]
theorem getFlk_setFlk_other (p : Nat) (x : FlkPort) (d : Dev) {o : Nat} (h : o ≠ p) : getFlk (setFlk p x d) o = getFlk d o := by simp [getFlk, setFlk, smGet_smPut_other _ _ h]

/-! ### `setCnt` -/

@[simp] theorem setCnt_regs (n : Nat) (x : FlkCnt) (d : Dev) : (setCnt n x d).regs = d.regs := rfl
@[simp] theorem setCnt_live (n : Nat) (x : FlkCnt) (d : Dev) : (setCnt n x d).live = d.live := rfl
@[simp] theorem setCnt_staged (n : Nat) (x : FlkCnt) (d : Dev) : (setCnt n x d).staged = d.staged := rfl
@[simp] theorem setCnt_half (n : Nat) (x : FlkCnt) (d : Dev) : (setCnt n x d).half = d.half := rfl
@[simp] theorem setCnt_latch (n : Nat) (x : FlkCnt) (d : Dev) : (setCnt n x d).latch = d.latch := rfl
@[simp] theorem setCnt_sets (n : Nat) (x : FlkCnt) (d : Dev) : (setCnt n x d).sets = d.sets := rfl
@[simp] theorem setCnt_clash (n : Nat) (x : FlkCnt) (d : Dev) : (setCnt n x d).clash = d.clash := rfl
@[simp] theorem setCnt_fns (n : Nat) (x : FlkCnt) (d : Dev) : (setCnt n x d).fns = d.fns := rfl
@[simp] theorem setCnt_fcmds (n : Nat) (x : FlkCnt) (d : Dev) : (setCnt n x d).fcmds = d.fcmds := rfl
@[simp] theorem setCnt_ffaults (n : Nat) (x : FlkCnt) (d : Dev) : (setCnt n x d).ffaults = d.ffaults := rfl
@[simp] theorem setCnt_fstops (n : Nat) (x : FlkCnt) (d : Dev) : (setCnt n x d).fstops = d.fstops := rfl
@[simp] theorem setCnt_qspi (n : Nat) (x : FlkCnt) (d : Dev) : (setCnt n x d).qspi = d.qspi := rfl
@[simp] theorem setCnt_tb (n : Nat) (x : FlkCnt) (d : Dev) : (setCnt n x d).tb = d.tb := rfl
@[simp] theorem setCnt_phase (n : Nat) (x : FlkCnt) (d : Dev) : (setCnt n x d).phase = d.phase := rfl
@[simp] theorem setCnt_tick (n : Nat) (x : FlkCnt) (d : Dev) : (setCnt n x d).tick = d.tick := rfl
@[simp] theorem setCnt_draws (n : Nat) (x : FlkCnt) (d : Dev) : (setCnt n x d).draws = d.draws := rfl
@[simp] theorem setCnt_memq (n : Nat) (x : FlkCnt) (d : Dev) : (setCnt n x d).memq = d.memq := rfl
@[simp] theorem setCnt_out (n : Nat) (x : FlkCnt) (d : Dev) : (setCnt n x d).out = d.out := rfl
@[simp] theorem setCnt_sys (n : Nat) (x : FlkCnt) (d : Dev) : (setCnt n x d).sys = d.sys := rfl
@[simp] theorem setCnt_cfg (n : Nat) (x : FlkCnt) (d : Dev) : (setCnt n x d).cfg = d.cfg := rfl
@[simp] theorem setCnt_pwr (n : Nat) (x : FlkCnt) (d : Dev) : (setCnt n x d).pwr = d.pwr := rfl
@[simp] theorem setCnt_evr (n : Nat) (x : FlkCnt) (d : Dev) : (setCnt n x d).evr = d.evr := rfl
@[simp] theorem setCnt_hif (n : Nat) (x : FlkCnt) (d : Dev) : (setCnt n x d).hif = d.hif := rfl
@[simp] theorem setCnt_tbu (n : Nat) (x : FlkCnt) (d : Dev) : (setCnt n x d).tbu = d.tbu := rfl
@[simp] theorem setCnt_sch (n : Nat) (x : FlkCnt) (d : Dev) : (setCnt n x d).sch = d.sch := rfl
@[simp] theorem setCnt_net (n : Nat) (x : FlkCnt) (d : Dev) : (setCnt n x d).net = d.net := rfl
@[simp] theorem setCnt_cel (n : Nat) (x : FlkCnt) (d : Dev) : (setCnt n x d).cel = d.cel := rfl
@[simp] theorem setCnt_wpu (n : Nat) (x : FlkCnt) (d : Dev) : (setCnt n x d).wpu = d.wpu := rfl
@[simp] theorem setCnt_fbk (n : Nat) (x : FlkCnt) (d : Dev) : (setCnt n x d).fbk = d.fbk := rfl
@[simp] theorem setCnt_mpg (n : Nat) (x : FlkCnt) (d : Dev) : (setCnt n x d).mpg = d.mpg := rfl
@[simp] theorem setCnt_stp (n : Nat) (x : FlkCnt) (d : Dev) : (setCnt n x d).stp = d.stp := rfl
@[simp] theorem setCnt_lpe (n : Nat) (x : FlkCnt) (d : Dev) : (setCnt n x d).lpe = d.lpe := rfl
@[simp] theorem setCnt_acq (n : Nat) (x : FlkCnt) (d : Dev) : (setCnt n x d).acq = d.acq := rfl
@[simp] theorem setCnt_adc (n : Nat) (x : FlkCnt) (d : Dev) : (setCnt n x d).adc = d.adc := rfl
@[simp] theorem setCnt_twn (n : Nat) (x : FlkCnt) (d : Dev) : (setCnt n x d).twn = d.twn := rfl
@[simp] theorem setCnt_can (n : Nat) (x : FlkCnt) (d : Dev) : (setCnt n x d).can = d.can := rfl
@[simp] theorem setCnt_scn (n : Nat) (x : FlkCnt) (d : Dev) : (setCnt n x d).scn = d.scn := rfl
@[simp] theorem setCnt_saf (n : Nat) (x : FlkCnt) (d : Dev) : (setCnt n x d).saf = d.saf := rfl
@[simp] theorem setCnt_mfp (n : Nat) (x : FlkCnt) (d : Dev) : (setCnt n x d).mfp = d.mfp := rfl
@[simp] theorem rd_setCnt (n : Nat) (x : FlkCnt) (d : Dev) (at_ : Nat) : rd (setCnt n x d) at_ = rd d at_ := by simp only [rd, setCnt_regs]
@[simp] theorem getCnt_setCnt (n : Nat) (x : FlkCnt) (d : Dev) : getCnt (setCnt n x d) n = x := by simp [getCnt, setCnt]
theorem getCnt_setCnt_other (n : Nat) (x : FlkCnt) (d : Dev) {o : Nat} (h : o ≠ n) : getCnt (setCnt n x d) o = getCnt d o := by simp [getCnt, setCnt, smGet_smPut_other _ _ h]

/-! ### `setSlot` -/

@[simp] theorem setSlot_regs (s : Nat) (x : Slot) (d : Dev) : (setSlot s x d).regs = d.regs := rfl
@[simp] theorem setSlot_live (s : Nat) (x : Slot) (d : Dev) : (setSlot s x d).live = d.live := rfl
@[simp] theorem setSlot_staged (s : Nat) (x : Slot) (d : Dev) : (setSlot s x d).staged = d.staged := rfl
@[simp] theorem setSlot_half (s : Nat) (x : Slot) (d : Dev) : (setSlot s x d).half = d.half := rfl
@[simp] theorem setSlot_latch (s : Nat) (x : Slot) (d : Dev) : (setSlot s x d).latch = d.latch := rfl
@[simp] theorem setSlot_sets (s : Nat) (x : Slot) (d : Dev) : (setSlot s x d).sets = d.sets := rfl
@[simp] theorem setSlot_clash (s : Nat) (x : Slot) (d : Dev) : (setSlot s x d).clash = d.clash := rfl
@[simp] theorem setSlot_fns (s : Nat) (x : Slot) (d : Dev) : (setSlot s x d).fns = d.fns := rfl
@[simp] theorem setSlot_fcmds (s : Nat) (x : Slot) (d : Dev) : (setSlot s x d).fcmds = d.fcmds := rfl
@[simp] theorem setSlot_ffaults (s : Nat) (x : Slot) (d : Dev) : (setSlot s x d).ffaults = d.ffaults := rfl
@[simp] theorem setSlot_fstops (s : Nat) (x : Slot) (d : Dev) : (setSlot s x d).fstops = d.fstops := rfl
@[simp] theorem setSlot_qspi (s : Nat) (x : Slot) (d : Dev) : (setSlot s x d).qspi = d.qspi := rfl
@[simp] theorem setSlot_tb (s : Nat) (x : Slot) (d : Dev) : (setSlot s x d).tb = d.tb := rfl
@[simp] theorem setSlot_phase (s : Nat) (x : Slot) (d : Dev) : (setSlot s x d).phase = d.phase := rfl
@[simp] theorem setSlot_tick (s : Nat) (x : Slot) (d : Dev) : (setSlot s x d).tick = d.tick := rfl
@[simp] theorem setSlot_draws (s : Nat) (x : Slot) (d : Dev) : (setSlot s x d).draws = d.draws := rfl
@[simp] theorem setSlot_memq (s : Nat) (x : Slot) (d : Dev) : (setSlot s x d).memq = d.memq := rfl
@[simp] theorem setSlot_out (s : Nat) (x : Slot) (d : Dev) : (setSlot s x d).out = d.out := rfl
@[simp] theorem setSlot_sys (s : Nat) (x : Slot) (d : Dev) : (setSlot s x d).sys = d.sys := rfl
@[simp] theorem setSlot_cfg (s : Nat) (x : Slot) (d : Dev) : (setSlot s x d).cfg = d.cfg := rfl
@[simp] theorem setSlot_pwr (s : Nat) (x : Slot) (d : Dev) : (setSlot s x d).pwr = d.pwr := rfl
@[simp] theorem setSlot_evr (s : Nat) (x : Slot) (d : Dev) : (setSlot s x d).evr = d.evr := rfl
@[simp] theorem setSlot_hif (s : Nat) (x : Slot) (d : Dev) : (setSlot s x d).hif = d.hif := rfl
@[simp] theorem setSlot_tbu (s : Nat) (x : Slot) (d : Dev) : (setSlot s x d).tbu = d.tbu := rfl
@[simp] theorem setSlot_sch (s : Nat) (x : Slot) (d : Dev) : (setSlot s x d).sch = d.sch := rfl
@[simp] theorem setSlot_net (s : Nat) (x : Slot) (d : Dev) : (setSlot s x d).net = d.net := rfl
@[simp] theorem setSlot_cel (s : Nat) (x : Slot) (d : Dev) : (setSlot s x d).cel = d.cel := rfl
@[simp] theorem setSlot_wpu (s : Nat) (x : Slot) (d : Dev) : (setSlot s x d).wpu = d.wpu := rfl
@[simp] theorem setSlot_fbk (s : Nat) (x : Slot) (d : Dev) : (setSlot s x d).fbk = d.fbk := rfl
@[simp] theorem setSlot_mpg (s : Nat) (x : Slot) (d : Dev) : (setSlot s x d).mpg = d.mpg := rfl
@[simp] theorem setSlot_stp (s : Nat) (x : Slot) (d : Dev) : (setSlot s x d).stp = d.stp := rfl
@[simp] theorem setSlot_acq (s : Nat) (x : Slot) (d : Dev) : (setSlot s x d).acq = d.acq := rfl
@[simp] theorem setSlot_adc (s : Nat) (x : Slot) (d : Dev) : (setSlot s x d).adc = d.adc := rfl
@[simp] theorem setSlot_twn (s : Nat) (x : Slot) (d : Dev) : (setSlot s x d).twn = d.twn := rfl
@[simp] theorem setSlot_flk (s : Nat) (x : Slot) (d : Dev) : (setSlot s x d).flk = d.flk := rfl
@[simp] theorem setSlot_can (s : Nat) (x : Slot) (d : Dev) : (setSlot s x d).can = d.can := rfl
@[simp] theorem setSlot_scn (s : Nat) (x : Slot) (d : Dev) : (setSlot s x d).scn = d.scn := rfl
@[simp] theorem setSlot_saf (s : Nat) (x : Slot) (d : Dev) : (setSlot s x d).saf = d.saf := rfl
@[simp] theorem setSlot_mfp (s : Nat) (x : Slot) (d : Dev) : (setSlot s x d).mfp = d.mfp := rfl
@[simp] theorem rd_setSlot (s : Nat) (x : Slot) (d : Dev) (at_ : Nat) : rd (setSlot s x d) at_ = rd d at_ := by simp only [rd, setSlot_regs]
@[simp] theorem getSlot_setSlot (s : Nat) (x : Slot) (d : Dev) : getSlot (setSlot s x d) s = x := by simp [getSlot, setSlot]
theorem getSlot_setSlot_other (s : Nat) (x : Slot) (d : Dev) {o : Nat} (h : o ≠ s) : getSlot (setSlot s x d) o = getSlot d o := by simp [getSlot, setSlot, smGet_smPut_other _ _ h]

/-! ### `setTrc` -/

@[simp] theorem setTrc_regs (t : Nat) (x : Trc) (d : Dev) : (setTrc t x d).regs = d.regs := rfl
@[simp] theorem setTrc_live (t : Nat) (x : Trc) (d : Dev) : (setTrc t x d).live = d.live := rfl
@[simp] theorem setTrc_staged (t : Nat) (x : Trc) (d : Dev) : (setTrc t x d).staged = d.staged := rfl
@[simp] theorem setTrc_half (t : Nat) (x : Trc) (d : Dev) : (setTrc t x d).half = d.half := rfl
@[simp] theorem setTrc_latch (t : Nat) (x : Trc) (d : Dev) : (setTrc t x d).latch = d.latch := rfl
@[simp] theorem setTrc_sets (t : Nat) (x : Trc) (d : Dev) : (setTrc t x d).sets = d.sets := rfl
@[simp] theorem setTrc_clash (t : Nat) (x : Trc) (d : Dev) : (setTrc t x d).clash = d.clash := rfl
@[simp] theorem setTrc_fns (t : Nat) (x : Trc) (d : Dev) : (setTrc t x d).fns = d.fns := rfl
@[simp] theorem setTrc_fcmds (t : Nat) (x : Trc) (d : Dev) : (setTrc t x d).fcmds = d.fcmds := rfl
@[simp] theorem setTrc_ffaults (t : Nat) (x : Trc) (d : Dev) : (setTrc t x d).ffaults = d.ffaults := rfl
@[simp] theorem setTrc_fstops (t : Nat) (x : Trc) (d : Dev) : (setTrc t x d).fstops = d.fstops := rfl
@[simp] theorem setTrc_qspi (t : Nat) (x : Trc) (d : Dev) : (setTrc t x d).qspi = d.qspi := rfl
@[simp] theorem setTrc_tb (t : Nat) (x : Trc) (d : Dev) : (setTrc t x d).tb = d.tb := rfl
@[simp] theorem setTrc_phase (t : Nat) (x : Trc) (d : Dev) : (setTrc t x d).phase = d.phase := rfl
@[simp] theorem setTrc_tick (t : Nat) (x : Trc) (d : Dev) : (setTrc t x d).tick = d.tick := rfl
@[simp] theorem setTrc_draws (t : Nat) (x : Trc) (d : Dev) : (setTrc t x d).draws = d.draws := rfl
@[simp] theorem setTrc_memq (t : Nat) (x : Trc) (d : Dev) : (setTrc t x d).memq = d.memq := rfl
@[simp] theorem setTrc_out (t : Nat) (x : Trc) (d : Dev) : (setTrc t x d).out = d.out := rfl
@[simp] theorem setTrc_sys (t : Nat) (x : Trc) (d : Dev) : (setTrc t x d).sys = d.sys := rfl
@[simp] theorem setTrc_cfg (t : Nat) (x : Trc) (d : Dev) : (setTrc t x d).cfg = d.cfg := rfl
@[simp] theorem setTrc_pwr (t : Nat) (x : Trc) (d : Dev) : (setTrc t x d).pwr = d.pwr := rfl
@[simp] theorem setTrc_evr (t : Nat) (x : Trc) (d : Dev) : (setTrc t x d).evr = d.evr := rfl
@[simp] theorem setTrc_hif (t : Nat) (x : Trc) (d : Dev) : (setTrc t x d).hif = d.hif := rfl
@[simp] theorem setTrc_tbu (t : Nat) (x : Trc) (d : Dev) : (setTrc t x d).tbu = d.tbu := rfl
@[simp] theorem setTrc_sch (t : Nat) (x : Trc) (d : Dev) : (setTrc t x d).sch = d.sch := rfl
@[simp] theorem setTrc_net (t : Nat) (x : Trc) (d : Dev) : (setTrc t x d).net = d.net := rfl
@[simp] theorem setTrc_cel (t : Nat) (x : Trc) (d : Dev) : (setTrc t x d).cel = d.cel := rfl
@[simp] theorem setTrc_wpu (t : Nat) (x : Trc) (d : Dev) : (setTrc t x d).wpu = d.wpu := rfl
@[simp] theorem setTrc_fbk (t : Nat) (x : Trc) (d : Dev) : (setTrc t x d).fbk = d.fbk := rfl
@[simp] theorem setTrc_mpg (t : Nat) (x : Trc) (d : Dev) : (setTrc t x d).mpg = d.mpg := rfl
@[simp] theorem setTrc_stp (t : Nat) (x : Trc) (d : Dev) : (setTrc t x d).stp = d.stp := rfl
@[simp] theorem setTrc_acq (t : Nat) (x : Trc) (d : Dev) : (setTrc t x d).acq = d.acq := rfl
@[simp] theorem setTrc_adc (t : Nat) (x : Trc) (d : Dev) : (setTrc t x d).adc = d.adc := rfl
@[simp] theorem setTrc_twn (t : Nat) (x : Trc) (d : Dev) : (setTrc t x d).twn = d.twn := rfl
@[simp] theorem setTrc_flk (t : Nat) (x : Trc) (d : Dev) : (setTrc t x d).flk = d.flk := rfl
@[simp] theorem setTrc_can (t : Nat) (x : Trc) (d : Dev) : (setTrc t x d).can = d.can := rfl
@[simp] theorem setTrc_scn (t : Nat) (x : Trc) (d : Dev) : (setTrc t x d).scn = d.scn := rfl
@[simp] theorem setTrc_saf (t : Nat) (x : Trc) (d : Dev) : (setTrc t x d).saf = d.saf := rfl
@[simp] theorem setTrc_mfp (t : Nat) (x : Trc) (d : Dev) : (setTrc t x d).mfp = d.mfp := rfl
@[simp] theorem rd_setTrc (t : Nat) (x : Trc) (d : Dev) (at_ : Nat) : rd (setTrc t x d) at_ = rd d at_ := by simp only [rd, setTrc_regs]
@[simp] theorem getTrc_setTrc (t : Nat) (x : Trc) (d : Dev) : getTrc (setTrc t x d) t = x := by simp [getTrc, setTrc]
theorem getTrc_setTrc_other (t : Nat) (x : Trc) (d : Dev) {o : Nat} (h : o ≠ t) : getTrc (setTrc t x d) o = getTrc d o := by simp [getTrc, setTrc, smGet_smPut_other _ _ h]

/-! ### `setMpg` -/

@[simp] theorem setMpg_regs (m : Nat) (x : Mpg) (d : Dev) : (setMpg m x d).regs = d.regs := rfl
@[simp] theorem setMpg_live (m : Nat) (x : Mpg) (d : Dev) : (setMpg m x d).live = d.live := rfl
@[simp] theorem setMpg_staged (m : Nat) (x : Mpg) (d : Dev) : (setMpg m x d).staged = d.staged := rfl
@[simp] theorem setMpg_half (m : Nat) (x : Mpg) (d : Dev) : (setMpg m x d).half = d.half := rfl
@[simp] theorem setMpg_latch (m : Nat) (x : Mpg) (d : Dev) : (setMpg m x d).latch = d.latch := rfl
@[simp] theorem setMpg_sets (m : Nat) (x : Mpg) (d : Dev) : (setMpg m x d).sets = d.sets := rfl
@[simp] theorem setMpg_clash (m : Nat) (x : Mpg) (d : Dev) : (setMpg m x d).clash = d.clash := rfl
@[simp] theorem setMpg_fns (m : Nat) (x : Mpg) (d : Dev) : (setMpg m x d).fns = d.fns := rfl
@[simp] theorem setMpg_fcmds (m : Nat) (x : Mpg) (d : Dev) : (setMpg m x d).fcmds = d.fcmds := rfl
@[simp] theorem setMpg_ffaults (m : Nat) (x : Mpg) (d : Dev) : (setMpg m x d).ffaults = d.ffaults := rfl
@[simp] theorem setMpg_fstops (m : Nat) (x : Mpg) (d : Dev) : (setMpg m x d).fstops = d.fstops := rfl
@[simp] theorem setMpg_qspi (m : Nat) (x : Mpg) (d : Dev) : (setMpg m x d).qspi = d.qspi := rfl
@[simp] theorem setMpg_tb (m : Nat) (x : Mpg) (d : Dev) : (setMpg m x d).tb = d.tb := rfl
@[simp] theorem setMpg_phase (m : Nat) (x : Mpg) (d : Dev) : (setMpg m x d).phase = d.phase := rfl
@[simp] theorem setMpg_tick (m : Nat) (x : Mpg) (d : Dev) : (setMpg m x d).tick = d.tick := rfl
@[simp] theorem setMpg_draws (m : Nat) (x : Mpg) (d : Dev) : (setMpg m x d).draws = d.draws := rfl
@[simp] theorem setMpg_memq (m : Nat) (x : Mpg) (d : Dev) : (setMpg m x d).memq = d.memq := rfl
@[simp] theorem setMpg_out (m : Nat) (x : Mpg) (d : Dev) : (setMpg m x d).out = d.out := rfl
@[simp] theorem setMpg_sys (m : Nat) (x : Mpg) (d : Dev) : (setMpg m x d).sys = d.sys := rfl
@[simp] theorem setMpg_cfg (m : Nat) (x : Mpg) (d : Dev) : (setMpg m x d).cfg = d.cfg := rfl
@[simp] theorem setMpg_pwr (m : Nat) (x : Mpg) (d : Dev) : (setMpg m x d).pwr = d.pwr := rfl
@[simp] theorem setMpg_evr (m : Nat) (x : Mpg) (d : Dev) : (setMpg m x d).evr = d.evr := rfl
@[simp] theorem setMpg_hif (m : Nat) (x : Mpg) (d : Dev) : (setMpg m x d).hif = d.hif := rfl
@[simp] theorem setMpg_tbu (m : Nat) (x : Mpg) (d : Dev) : (setMpg m x d).tbu = d.tbu := rfl
@[simp] theorem setMpg_sch (m : Nat) (x : Mpg) (d : Dev) : (setMpg m x d).sch = d.sch := rfl
@[simp] theorem setMpg_net (m : Nat) (x : Mpg) (d : Dev) : (setMpg m x d).net = d.net := rfl
@[simp] theorem setMpg_cel (m : Nat) (x : Mpg) (d : Dev) : (setMpg m x d).cel = d.cel := rfl
@[simp] theorem setMpg_wpu (m : Nat) (x : Mpg) (d : Dev) : (setMpg m x d).wpu = d.wpu := rfl
@[simp] theorem setMpg_fbk (m : Nat) (x : Mpg) (d : Dev) : (setMpg m x d).fbk = d.fbk := rfl
@[simp] theorem setMpg_stp (m : Nat) (x : Mpg) (d : Dev) : (setMpg m x d).stp = d.stp := rfl
@[simp] theorem setMpg_lpe (m : Nat) (x : Mpg) (d : Dev) : (setMpg m x d).lpe = d.lpe := rfl
@[simp] theorem setMpg_acq (m : Nat) (x : Mpg) (d : Dev) : (setMpg m x d).acq = d.acq := rfl
@[simp] theorem setMpg_adc (m : Nat) (x : Mpg) (d : Dev) : (setMpg m x d).adc = d.adc := rfl
@[simp] theorem setMpg_twn (m : Nat) (x : Mpg) (d : Dev) : (setMpg m x d).twn = d.twn := rfl
@[simp] theorem setMpg_flk (m : Nat) (x : Mpg) (d : Dev) : (setMpg m x d).flk = d.flk := rfl
@[simp] theorem setMpg_can (m : Nat) (x : Mpg) (d : Dev) : (setMpg m x d).can = d.can := rfl
@[simp] theorem setMpg_scn (m : Nat) (x : Mpg) (d : Dev) : (setMpg m x d).scn = d.scn := rfl
@[simp] theorem setMpg_saf (m : Nat) (x : Mpg) (d : Dev) : (setMpg m x d).saf = d.saf := rfl
@[simp] theorem setMpg_mfp (m : Nat) (x : Mpg) (d : Dev) : (setMpg m x d).mfp = d.mfp := rfl
@[simp] theorem rd_setMpg (m : Nat) (x : Mpg) (d : Dev) (at_ : Nat) : rd (setMpg m x d) at_ = rd d at_ := by simp only [rd, setMpg_regs]
@[simp] theorem getMpg_setMpg (m : Nat) (x : Mpg) (d : Dev) : getMpg (setMpg m x d) m = x := by simp [getMpg, setMpg]
theorem getMpg_setMpg_other (m : Nat) (x : Mpg) (d : Dev) {o : Nat} (h : o ≠ m) : getMpg (setMpg m x d) o = getMpg d o := by simp [getMpg, setMpg, smGet_smPut_other _ _ h]

/-! ### `setPort` -/

@[simp] theorem setPort_regs (p : Nat) (x : NetPort) (d : Dev) : (setPort p x d).regs = d.regs := rfl
@[simp] theorem setPort_live (p : Nat) (x : NetPort) (d : Dev) : (setPort p x d).live = d.live := rfl
@[simp] theorem setPort_staged (p : Nat) (x : NetPort) (d : Dev) : (setPort p x d).staged = d.staged := rfl
@[simp] theorem setPort_half (p : Nat) (x : NetPort) (d : Dev) : (setPort p x d).half = d.half := rfl
@[simp] theorem setPort_latch (p : Nat) (x : NetPort) (d : Dev) : (setPort p x d).latch = d.latch := rfl
@[simp] theorem setPort_sets (p : Nat) (x : NetPort) (d : Dev) : (setPort p x d).sets = d.sets := rfl
@[simp] theorem setPort_clash (p : Nat) (x : NetPort) (d : Dev) : (setPort p x d).clash = d.clash := rfl
@[simp] theorem setPort_fns (p : Nat) (x : NetPort) (d : Dev) : (setPort p x d).fns = d.fns := rfl
@[simp] theorem setPort_fcmds (p : Nat) (x : NetPort) (d : Dev) : (setPort p x d).fcmds = d.fcmds := rfl
@[simp] theorem setPort_ffaults (p : Nat) (x : NetPort) (d : Dev) : (setPort p x d).ffaults = d.ffaults := rfl
@[simp] theorem setPort_fstops (p : Nat) (x : NetPort) (d : Dev) : (setPort p x d).fstops = d.fstops := rfl
@[simp] theorem setPort_qspi (p : Nat) (x : NetPort) (d : Dev) : (setPort p x d).qspi = d.qspi := rfl
@[simp] theorem setPort_tb (p : Nat) (x : NetPort) (d : Dev) : (setPort p x d).tb = d.tb := rfl
@[simp] theorem setPort_phase (p : Nat) (x : NetPort) (d : Dev) : (setPort p x d).phase = d.phase := rfl
@[simp] theorem setPort_tick (p : Nat) (x : NetPort) (d : Dev) : (setPort p x d).tick = d.tick := rfl
@[simp] theorem setPort_draws (p : Nat) (x : NetPort) (d : Dev) : (setPort p x d).draws = d.draws := rfl
@[simp] theorem setPort_memq (p : Nat) (x : NetPort) (d : Dev) : (setPort p x d).memq = d.memq := rfl
@[simp] theorem setPort_out (p : Nat) (x : NetPort) (d : Dev) : (setPort p x d).out = d.out := rfl
@[simp] theorem setPort_sys (p : Nat) (x : NetPort) (d : Dev) : (setPort p x d).sys = d.sys := rfl
@[simp] theorem setPort_cfg (p : Nat) (x : NetPort) (d : Dev) : (setPort p x d).cfg = d.cfg := rfl
@[simp] theorem setPort_pwr (p : Nat) (x : NetPort) (d : Dev) : (setPort p x d).pwr = d.pwr := rfl
@[simp] theorem setPort_evr (p : Nat) (x : NetPort) (d : Dev) : (setPort p x d).evr = d.evr := rfl
@[simp] theorem setPort_hif (p : Nat) (x : NetPort) (d : Dev) : (setPort p x d).hif = d.hif := rfl
@[simp] theorem setPort_tbu (p : Nat) (x : NetPort) (d : Dev) : (setPort p x d).tbu = d.tbu := rfl
@[simp] theorem setPort_sch (p : Nat) (x : NetPort) (d : Dev) : (setPort p x d).sch = d.sch := rfl
@[simp] theorem setPort_cel (p : Nat) (x : NetPort) (d : Dev) : (setPort p x d).cel = d.cel := rfl
@[simp] theorem setPort_wpu (p : Nat) (x : NetPort) (d : Dev) : (setPort p x d).wpu = d.wpu := rfl
@[simp] theorem setPort_fbk (p : Nat) (x : NetPort) (d : Dev) : (setPort p x d).fbk = d.fbk := rfl
@[simp] theorem setPort_mpg (p : Nat) (x : NetPort) (d : Dev) : (setPort p x d).mpg = d.mpg := rfl
@[simp] theorem setPort_stp (p : Nat) (x : NetPort) (d : Dev) : (setPort p x d).stp = d.stp := rfl
@[simp] theorem setPort_lpe (p : Nat) (x : NetPort) (d : Dev) : (setPort p x d).lpe = d.lpe := rfl
@[simp] theorem setPort_acq (p : Nat) (x : NetPort) (d : Dev) : (setPort p x d).acq = d.acq := rfl
@[simp] theorem setPort_adc (p : Nat) (x : NetPort) (d : Dev) : (setPort p x d).adc = d.adc := rfl
@[simp] theorem setPort_twn (p : Nat) (x : NetPort) (d : Dev) : (setPort p x d).twn = d.twn := rfl
@[simp] theorem setPort_flk (p : Nat) (x : NetPort) (d : Dev) : (setPort p x d).flk = d.flk := rfl
@[simp] theorem setPort_can (p : Nat) (x : NetPort) (d : Dev) : (setPort p x d).can = d.can := rfl
@[simp] theorem setPort_scn (p : Nat) (x : NetPort) (d : Dev) : (setPort p x d).scn = d.scn := rfl
@[simp] theorem setPort_saf (p : Nat) (x : NetPort) (d : Dev) : (setPort p x d).saf = d.saf := rfl
@[simp] theorem setPort_mfp (p : Nat) (x : NetPort) (d : Dev) : (setPort p x d).mfp = d.mfp := rfl
@[simp] theorem rd_setPort (p : Nat) (x : NetPort) (d : Dev) (at_ : Nat) : rd (setPort p x d) at_ = rd d at_ := by simp only [rd, setPort_regs]
@[simp] theorem getPort_setPort (p : Nat) (x : NetPort) (d : Dev) : getPort (setPort p x d) p = x := by simp [getPort, setPort]
theorem getPort_setPort_other (p : Nat) (x : NetPort) (d : Dev) {o : Nat} (h : o ≠ p) : getPort (setPort p x d) o = getPort d o := by simp [getPort, setPort, smGet_smPut_other _ _ h]

/-! ### `setRing` -/

@[simp] theorem setRing_regs (r : Nat) (g : Ring) (d : Dev) : (setRing r g d).regs = d.regs := rfl
@[simp] theorem setRing_live (r : Nat) (g : Ring) (d : Dev) : (setRing r g d).live = d.live := rfl
@[simp] theorem setRing_staged (r : Nat) (g : Ring) (d : Dev) : (setRing r g d).staged = d.staged := rfl
@[simp] theorem setRing_half (r : Nat) (g : Ring) (d : Dev) : (setRing r g d).half = d.half := rfl
@[simp] theorem setRing_latch (r : Nat) (g : Ring) (d : Dev) : (setRing r g d).latch = d.latch := rfl
@[simp] theorem setRing_sets (r : Nat) (g : Ring) (d : Dev) : (setRing r g d).sets = d.sets := rfl
@[simp] theorem setRing_clash (r : Nat) (g : Ring) (d : Dev) : (setRing r g d).clash = d.clash := rfl
@[simp] theorem setRing_fns (r : Nat) (g : Ring) (d : Dev) : (setRing r g d).fns = d.fns := rfl
@[simp] theorem setRing_fcmds (r : Nat) (g : Ring) (d : Dev) : (setRing r g d).fcmds = d.fcmds := rfl
@[simp] theorem setRing_ffaults (r : Nat) (g : Ring) (d : Dev) : (setRing r g d).ffaults = d.ffaults := rfl
@[simp] theorem setRing_fstops (r : Nat) (g : Ring) (d : Dev) : (setRing r g d).fstops = d.fstops := rfl
@[simp] theorem setRing_qspi (r : Nat) (g : Ring) (d : Dev) : (setRing r g d).qspi = d.qspi := rfl
@[simp] theorem setRing_tb (r : Nat) (g : Ring) (d : Dev) : (setRing r g d).tb = d.tb := rfl
@[simp] theorem setRing_phase (r : Nat) (g : Ring) (d : Dev) : (setRing r g d).phase = d.phase := rfl
@[simp] theorem setRing_tick (r : Nat) (g : Ring) (d : Dev) : (setRing r g d).tick = d.tick := rfl
@[simp] theorem setRing_draws (r : Nat) (g : Ring) (d : Dev) : (setRing r g d).draws = d.draws := rfl
@[simp] theorem setRing_memq (r : Nat) (g : Ring) (d : Dev) : (setRing r g d).memq = d.memq := rfl
@[simp] theorem setRing_out (r : Nat) (g : Ring) (d : Dev) : (setRing r g d).out = d.out := rfl
@[simp] theorem setRing_sys (r : Nat) (g : Ring) (d : Dev) : (setRing r g d).sys = d.sys := rfl
@[simp] theorem setRing_cfg (r : Nat) (g : Ring) (d : Dev) : (setRing r g d).cfg = d.cfg := rfl
@[simp] theorem setRing_pwr (r : Nat) (g : Ring) (d : Dev) : (setRing r g d).pwr = d.pwr := rfl
@[simp] theorem setRing_evr (r : Nat) (g : Ring) (d : Dev) : (setRing r g d).evr = d.evr := rfl
@[simp] theorem setRing_tbu (r : Nat) (g : Ring) (d : Dev) : (setRing r g d).tbu = d.tbu := rfl
@[simp] theorem setRing_sch (r : Nat) (g : Ring) (d : Dev) : (setRing r g d).sch = d.sch := rfl
@[simp] theorem setRing_net (r : Nat) (g : Ring) (d : Dev) : (setRing r g d).net = d.net := rfl
@[simp] theorem setRing_cel (r : Nat) (g : Ring) (d : Dev) : (setRing r g d).cel = d.cel := rfl
@[simp] theorem setRing_wpu (r : Nat) (g : Ring) (d : Dev) : (setRing r g d).wpu = d.wpu := rfl
@[simp] theorem setRing_fbk (r : Nat) (g : Ring) (d : Dev) : (setRing r g d).fbk = d.fbk := rfl
@[simp] theorem setRing_mpg (r : Nat) (g : Ring) (d : Dev) : (setRing r g d).mpg = d.mpg := rfl
@[simp] theorem setRing_stp (r : Nat) (g : Ring) (d : Dev) : (setRing r g d).stp = d.stp := rfl
@[simp] theorem setRing_lpe (r : Nat) (g : Ring) (d : Dev) : (setRing r g d).lpe = d.lpe := rfl
@[simp] theorem setRing_acq (r : Nat) (g : Ring) (d : Dev) : (setRing r g d).acq = d.acq := rfl
@[simp] theorem setRing_adc (r : Nat) (g : Ring) (d : Dev) : (setRing r g d).adc = d.adc := rfl
@[simp] theorem setRing_twn (r : Nat) (g : Ring) (d : Dev) : (setRing r g d).twn = d.twn := rfl
@[simp] theorem setRing_flk (r : Nat) (g : Ring) (d : Dev) : (setRing r g d).flk = d.flk := rfl
@[simp] theorem setRing_can (r : Nat) (g : Ring) (d : Dev) : (setRing r g d).can = d.can := rfl
@[simp] theorem setRing_scn (r : Nat) (g : Ring) (d : Dev) : (setRing r g d).scn = d.scn := rfl
@[simp] theorem setRing_saf (r : Nat) (g : Ring) (d : Dev) : (setRing r g d).saf = d.saf := rfl
@[simp] theorem setRing_mfp (r : Nat) (g : Ring) (d : Dev) : (setRing r g d).mfp = d.mfp := rfl
@[simp] theorem rd_setRing (r : Nat) (g : Ring) (d : Dev) (at_ : Nat) : rd (setRing r g d) at_ = rd d at_ := by simp only [rd, setRing_regs]
@[simp] theorem getRing_setRing (r : Nat) (g : Ring) (d : Dev) : getRing (setRing r g d) r = g := by simp [getRing, setRing]
theorem getRing_setRing_other (r : Nat) (g : Ring) (d : Dev) {o : Nat} (h : o ≠ r) : getRing (setRing r g d) o = getRing d o := by simp [getRing, setRing, smGet_smPut_other _ _ h]

/-! ### `setItem` -/

@[simp] theorem setItem_regs (slot : Nat) (i : Item) (d : Dev) : (setItem slot i d).regs = d.regs := rfl
@[simp] theorem setItem_live (slot : Nat) (i : Item) (d : Dev) : (setItem slot i d).live = d.live := rfl
@[simp] theorem setItem_staged (slot : Nat) (i : Item) (d : Dev) : (setItem slot i d).staged = d.staged := rfl
@[simp] theorem setItem_half (slot : Nat) (i : Item) (d : Dev) : (setItem slot i d).half = d.half := rfl
@[simp] theorem setItem_latch (slot : Nat) (i : Item) (d : Dev) : (setItem slot i d).latch = d.latch := rfl
@[simp] theorem setItem_sets (slot : Nat) (i : Item) (d : Dev) : (setItem slot i d).sets = d.sets := rfl
@[simp] theorem setItem_clash (slot : Nat) (i : Item) (d : Dev) : (setItem slot i d).clash = d.clash := rfl
@[simp] theorem setItem_fns (slot : Nat) (i : Item) (d : Dev) : (setItem slot i d).fns = d.fns := rfl
@[simp] theorem setItem_fcmds (slot : Nat) (i : Item) (d : Dev) : (setItem slot i d).fcmds = d.fcmds := rfl
@[simp] theorem setItem_ffaults (slot : Nat) (i : Item) (d : Dev) : (setItem slot i d).ffaults = d.ffaults := rfl
@[simp] theorem setItem_fstops (slot : Nat) (i : Item) (d : Dev) : (setItem slot i d).fstops = d.fstops := rfl
@[simp] theorem setItem_qspi (slot : Nat) (i : Item) (d : Dev) : (setItem slot i d).qspi = d.qspi := rfl
@[simp] theorem setItem_tb (slot : Nat) (i : Item) (d : Dev) : (setItem slot i d).tb = d.tb := rfl
@[simp] theorem setItem_phase (slot : Nat) (i : Item) (d : Dev) : (setItem slot i d).phase = d.phase := rfl
@[simp] theorem setItem_tick (slot : Nat) (i : Item) (d : Dev) : (setItem slot i d).tick = d.tick := rfl
@[simp] theorem setItem_draws (slot : Nat) (i : Item) (d : Dev) : (setItem slot i d).draws = d.draws := rfl
@[simp] theorem setItem_memq (slot : Nat) (i : Item) (d : Dev) : (setItem slot i d).memq = d.memq := rfl
@[simp] theorem setItem_out (slot : Nat) (i : Item) (d : Dev) : (setItem slot i d).out = d.out := rfl
@[simp] theorem setItem_sys (slot : Nat) (i : Item) (d : Dev) : (setItem slot i d).sys = d.sys := rfl
@[simp] theorem setItem_cfg (slot : Nat) (i : Item) (d : Dev) : (setItem slot i d).cfg = d.cfg := rfl
@[simp] theorem setItem_pwr (slot : Nat) (i : Item) (d : Dev) : (setItem slot i d).pwr = d.pwr := rfl
@[simp] theorem setItem_evr (slot : Nat) (i : Item) (d : Dev) : (setItem slot i d).evr = d.evr := rfl
@[simp] theorem setItem_hif (slot : Nat) (i : Item) (d : Dev) : (setItem slot i d).hif = d.hif := rfl
@[simp] theorem setItem_tbu (slot : Nat) (i : Item) (d : Dev) : (setItem slot i d).tbu = d.tbu := rfl
@[simp] theorem setItem_net (slot : Nat) (i : Item) (d : Dev) : (setItem slot i d).net = d.net := rfl
@[simp] theorem setItem_cel (slot : Nat) (i : Item) (d : Dev) : (setItem slot i d).cel = d.cel := rfl
@[simp] theorem setItem_wpu (slot : Nat) (i : Item) (d : Dev) : (setItem slot i d).wpu = d.wpu := rfl
@[simp] theorem setItem_fbk (slot : Nat) (i : Item) (d : Dev) : (setItem slot i d).fbk = d.fbk := rfl
@[simp] theorem setItem_mpg (slot : Nat) (i : Item) (d : Dev) : (setItem slot i d).mpg = d.mpg := rfl
@[simp] theorem setItem_stp (slot : Nat) (i : Item) (d : Dev) : (setItem slot i d).stp = d.stp := rfl
@[simp] theorem setItem_lpe (slot : Nat) (i : Item) (d : Dev) : (setItem slot i d).lpe = d.lpe := rfl
@[simp] theorem setItem_acq (slot : Nat) (i : Item) (d : Dev) : (setItem slot i d).acq = d.acq := rfl
@[simp] theorem setItem_adc (slot : Nat) (i : Item) (d : Dev) : (setItem slot i d).adc = d.adc := rfl
@[simp] theorem setItem_twn (slot : Nat) (i : Item) (d : Dev) : (setItem slot i d).twn = d.twn := rfl
@[simp] theorem setItem_flk (slot : Nat) (i : Item) (d : Dev) : (setItem slot i d).flk = d.flk := rfl
@[simp] theorem setItem_can (slot : Nat) (i : Item) (d : Dev) : (setItem slot i d).can = d.can := rfl
@[simp] theorem setItem_scn (slot : Nat) (i : Item) (d : Dev) : (setItem slot i d).scn = d.scn := rfl
@[simp] theorem setItem_saf (slot : Nat) (i : Item) (d : Dev) : (setItem slot i d).saf = d.saf := rfl
@[simp] theorem setItem_mfp (slot : Nat) (i : Item) (d : Dev) : (setItem slot i d).mfp = d.mfp := rfl
@[simp] theorem rd_setItem (slot : Nat) (i : Item) (d : Dev) (at_ : Nat) : rd (setItem slot i d) at_ = rd d at_ := by simp only [rd, setItem_regs]

/-! ### `delItem` -/

@[simp] theorem delItem_regs (slot : Nat) (d : Dev) : (delItem slot d).regs = d.regs := rfl
@[simp] theorem delItem_live (slot : Nat) (d : Dev) : (delItem slot d).live = d.live := rfl
@[simp] theorem delItem_staged (slot : Nat) (d : Dev) : (delItem slot d).staged = d.staged := rfl
@[simp] theorem delItem_half (slot : Nat) (d : Dev) : (delItem slot d).half = d.half := rfl
@[simp] theorem delItem_latch (slot : Nat) (d : Dev) : (delItem slot d).latch = d.latch := rfl
@[simp] theorem delItem_sets (slot : Nat) (d : Dev) : (delItem slot d).sets = d.sets := rfl
@[simp] theorem delItem_clash (slot : Nat) (d : Dev) : (delItem slot d).clash = d.clash := rfl
@[simp] theorem delItem_fns (slot : Nat) (d : Dev) : (delItem slot d).fns = d.fns := rfl
@[simp] theorem delItem_fcmds (slot : Nat) (d : Dev) : (delItem slot d).fcmds = d.fcmds := rfl
@[simp] theorem delItem_ffaults (slot : Nat) (d : Dev) : (delItem slot d).ffaults = d.ffaults := rfl
@[simp] theorem delItem_fstops (slot : Nat) (d : Dev) : (delItem slot d).fstops = d.fstops := rfl
@[simp] theorem delItem_qspi (slot : Nat) (d : Dev) : (delItem slot d).qspi = d.qspi := rfl
@[simp] theorem delItem_tb (slot : Nat) (d : Dev) : (delItem slot d).tb = d.tb := rfl
@[simp] theorem delItem_phase (slot : Nat) (d : Dev) : (delItem slot d).phase = d.phase := rfl
@[simp] theorem delItem_tick (slot : Nat) (d : Dev) : (delItem slot d).tick = d.tick := rfl
@[simp] theorem delItem_draws (slot : Nat) (d : Dev) : (delItem slot d).draws = d.draws := rfl
@[simp] theorem delItem_memq (slot : Nat) (d : Dev) : (delItem slot d).memq = d.memq := rfl
@[simp] theorem delItem_out (slot : Nat) (d : Dev) : (delItem slot d).out = d.out := rfl
@[simp] theorem delItem_sys (slot : Nat) (d : Dev) : (delItem slot d).sys = d.sys := rfl
@[simp] theorem delItem_cfg (slot : Nat) (d : Dev) : (delItem slot d).cfg = d.cfg := rfl
@[simp] theorem delItem_pwr (slot : Nat) (d : Dev) : (delItem slot d).pwr = d.pwr := rfl
@[simp] theorem delItem_evr (slot : Nat) (d : Dev) : (delItem slot d).evr = d.evr := rfl
@[simp] theorem delItem_hif (slot : Nat) (d : Dev) : (delItem slot d).hif = d.hif := rfl
@[simp] theorem delItem_tbu (slot : Nat) (d : Dev) : (delItem slot d).tbu = d.tbu := rfl
@[simp] theorem delItem_net (slot : Nat) (d : Dev) : (delItem slot d).net = d.net := rfl
@[simp] theorem delItem_cel (slot : Nat) (d : Dev) : (delItem slot d).cel = d.cel := rfl
@[simp] theorem delItem_wpu (slot : Nat) (d : Dev) : (delItem slot d).wpu = d.wpu := rfl
@[simp] theorem delItem_fbk (slot : Nat) (d : Dev) : (delItem slot d).fbk = d.fbk := rfl
@[simp] theorem delItem_mpg (slot : Nat) (d : Dev) : (delItem slot d).mpg = d.mpg := rfl
@[simp] theorem delItem_stp (slot : Nat) (d : Dev) : (delItem slot d).stp = d.stp := rfl
@[simp] theorem delItem_lpe (slot : Nat) (d : Dev) : (delItem slot d).lpe = d.lpe := rfl
@[simp] theorem delItem_acq (slot : Nat) (d : Dev) : (delItem slot d).acq = d.acq := rfl
@[simp] theorem delItem_adc (slot : Nat) (d : Dev) : (delItem slot d).adc = d.adc := rfl
@[simp] theorem delItem_twn (slot : Nat) (d : Dev) : (delItem slot d).twn = d.twn := rfl
@[simp] theorem delItem_flk (slot : Nat) (d : Dev) : (delItem slot d).flk = d.flk := rfl
@[simp] theorem delItem_can (slot : Nat) (d : Dev) : (delItem slot d).can = d.can := rfl
@[simp] theorem delItem_scn (slot : Nat) (d : Dev) : (delItem slot d).scn = d.scn := rfl
@[simp] theorem delItem_saf (slot : Nat) (d : Dev) : (delItem slot d).saf = d.saf := rfl
@[simp] theorem delItem_mfp (slot : Nat) (d : Dev) : (delItem slot d).mfp = d.mfp := rfl
@[simp] theorem rd_delItem (slot : Nat) (d : Dev) (at_ : Nat) : rd (delItem slot d) at_ = rd d at_ := by simp only [rd, delItem_regs]
@[simp] theorem getItem_setItem (slot : Nat) (i : Item) (d : Dev) : getItem (setItem slot i d) slot = some i := by simp [getItem, setItem]
@[simp] theorem getItem_delItem (slot : Nat) (d : Dev) : getItem (delItem slot d) slot = none := by simp [getItem, delItem]

/-! ### `setCore` -/

@[simp] theorem setCore_regs (k : Nat) (c : Core) (d : Dev) : (setCore k c d).regs = d.regs := rfl
@[simp] theorem setCore_live (k : Nat) (c : Core) (d : Dev) : (setCore k c d).live = d.live := rfl
@[simp] theorem setCore_staged (k : Nat) (c : Core) (d : Dev) : (setCore k c d).staged = d.staged := rfl
@[simp] theorem setCore_half (k : Nat) (c : Core) (d : Dev) : (setCore k c d).half = d.half := rfl
@[simp] theorem setCore_latch (k : Nat) (c : Core) (d : Dev) : (setCore k c d).latch = d.latch := rfl
@[simp] theorem setCore_sets (k : Nat) (c : Core) (d : Dev) : (setCore k c d).sets = d.sets := rfl
@[simp] theorem setCore_clash (k : Nat) (c : Core) (d : Dev) : (setCore k c d).clash = d.clash := rfl
@[simp] theorem setCore_fns (k : Nat) (c : Core) (d : Dev) : (setCore k c d).fns = d.fns := rfl
@[simp] theorem setCore_fcmds (k : Nat) (c : Core) (d : Dev) : (setCore k c d).fcmds = d.fcmds := rfl
@[simp] theorem setCore_ffaults (k : Nat) (c : Core) (d : Dev) : (setCore k c d).ffaults = d.ffaults := rfl
@[simp] theorem setCore_fstops (k : Nat) (c : Core) (d : Dev) : (setCore k c d).fstops = d.fstops := rfl
@[simp] theorem setCore_qspi (k : Nat) (c : Core) (d : Dev) : (setCore k c d).qspi = d.qspi := rfl
@[simp] theorem setCore_tb (k : Nat) (c : Core) (d : Dev) : (setCore k c d).tb = d.tb := rfl
@[simp] theorem setCore_phase (k : Nat) (c : Core) (d : Dev) : (setCore k c d).phase = d.phase := rfl
@[simp] theorem setCore_tick (k : Nat) (c : Core) (d : Dev) : (setCore k c d).tick = d.tick := rfl
@[simp] theorem setCore_draws (k : Nat) (c : Core) (d : Dev) : (setCore k c d).draws = d.draws := rfl
@[simp] theorem setCore_memq (k : Nat) (c : Core) (d : Dev) : (setCore k c d).memq = d.memq := rfl
@[simp] theorem setCore_out (k : Nat) (c : Core) (d : Dev) : (setCore k c d).out = d.out := rfl
@[simp] theorem setCore_sys (k : Nat) (c : Core) (d : Dev) : (setCore k c d).sys = d.sys := rfl
@[simp] theorem setCore_cfg (k : Nat) (c : Core) (d : Dev) : (setCore k c d).cfg = d.cfg := rfl
@[simp] theorem setCore_pwr (k : Nat) (c : Core) (d : Dev) : (setCore k c d).pwr = d.pwr := rfl
@[simp] theorem setCore_evr (k : Nat) (c : Core) (d : Dev) : (setCore k c d).evr = d.evr := rfl
@[simp] theorem setCore_hif (k : Nat) (c : Core) (d : Dev) : (setCore k c d).hif = d.hif := rfl
@[simp] theorem setCore_tbu (k : Nat) (c : Core) (d : Dev) : (setCore k c d).tbu = d.tbu := rfl
@[simp] theorem setCore_net (k : Nat) (c : Core) (d : Dev) : (setCore k c d).net = d.net := rfl
@[simp] theorem setCore_cel (k : Nat) (c : Core) (d : Dev) : (setCore k c d).cel = d.cel := rfl
@[simp] theorem setCore_wpu (k : Nat) (c : Core) (d : Dev) : (setCore k c d).wpu = d.wpu := rfl
@[simp] theorem setCore_fbk (k : Nat) (c : Core) (d : Dev) : (setCore k c d).fbk = d.fbk := rfl
@[simp] theorem setCore_mpg (k : Nat) (c : Core) (d : Dev) : (setCore k c d).mpg = d.mpg := rfl
@[simp] theorem setCore_stp (k : Nat) (c : Core) (d : Dev) : (setCore k c d).stp = d.stp := rfl
@[simp] theorem setCore_lpe (k : Nat) (c : Core) (d : Dev) : (setCore k c d).lpe = d.lpe := rfl
@[simp] theorem setCore_acq (k : Nat) (c : Core) (d : Dev) : (setCore k c d).acq = d.acq := rfl
@[simp] theorem setCore_adc (k : Nat) (c : Core) (d : Dev) : (setCore k c d).adc = d.adc := rfl
@[simp] theorem setCore_twn (k : Nat) (c : Core) (d : Dev) : (setCore k c d).twn = d.twn := rfl
@[simp] theorem setCore_flk (k : Nat) (c : Core) (d : Dev) : (setCore k c d).flk = d.flk := rfl
@[simp] theorem setCore_can (k : Nat) (c : Core) (d : Dev) : (setCore k c d).can = d.can := rfl
@[simp] theorem setCore_scn (k : Nat) (c : Core) (d : Dev) : (setCore k c d).scn = d.scn := rfl
@[simp] theorem setCore_saf (k : Nat) (c : Core) (d : Dev) : (setCore k c d).saf = d.saf := rfl
@[simp] theorem setCore_mfp (k : Nat) (c : Core) (d : Dev) : (setCore k c d).mfp = d.mfp := rfl
@[simp] theorem rd_setCore (k : Nat) (c : Core) (d : Dev) (at_ : Nat) : rd (setCore k c d) at_ = rd d at_ := by simp only [rd, setCore_regs]
@[simp] theorem getCore_setCore (k : Nat) (c : Core) (d : Dev) : getCore (setCore k c d) k = c := by simp [getCore, setCore]
theorem getCore_setCore_other (k : Nat) (c : Core) (d : Dev) {o : Nat} (h : o ≠ k) : getCore (setCore k c d) o = getCore d o := by simp [getCore, setCore, smGet_smPut_other _ _ h]

/-! ### `setFlow` -/

@[simp] theorem setFlow_regs (f : Nat) (x : Flow) (d : Dev) : (setFlow f x d).regs = d.regs := rfl
@[simp] theorem setFlow_live (f : Nat) (x : Flow) (d : Dev) : (setFlow f x d).live = d.live := rfl
@[simp] theorem setFlow_staged (f : Nat) (x : Flow) (d : Dev) : (setFlow f x d).staged = d.staged := rfl
@[simp] theorem setFlow_half (f : Nat) (x : Flow) (d : Dev) : (setFlow f x d).half = d.half := rfl
@[simp] theorem setFlow_latch (f : Nat) (x : Flow) (d : Dev) : (setFlow f x d).latch = d.latch := rfl
@[simp] theorem setFlow_sets (f : Nat) (x : Flow) (d : Dev) : (setFlow f x d).sets = d.sets := rfl
@[simp] theorem setFlow_clash (f : Nat) (x : Flow) (d : Dev) : (setFlow f x d).clash = d.clash := rfl
@[simp] theorem setFlow_fns (f : Nat) (x : Flow) (d : Dev) : (setFlow f x d).fns = d.fns := rfl
@[simp] theorem setFlow_fcmds (f : Nat) (x : Flow) (d : Dev) : (setFlow f x d).fcmds = d.fcmds := rfl
@[simp] theorem setFlow_ffaults (f : Nat) (x : Flow) (d : Dev) : (setFlow f x d).ffaults = d.ffaults := rfl
@[simp] theorem setFlow_fstops (f : Nat) (x : Flow) (d : Dev) : (setFlow f x d).fstops = d.fstops := rfl
@[simp] theorem setFlow_qspi (f : Nat) (x : Flow) (d : Dev) : (setFlow f x d).qspi = d.qspi := rfl
@[simp] theorem setFlow_tb (f : Nat) (x : Flow) (d : Dev) : (setFlow f x d).tb = d.tb := rfl
@[simp] theorem setFlow_phase (f : Nat) (x : Flow) (d : Dev) : (setFlow f x d).phase = d.phase := rfl
@[simp] theorem setFlow_tick (f : Nat) (x : Flow) (d : Dev) : (setFlow f x d).tick = d.tick := rfl
@[simp] theorem setFlow_draws (f : Nat) (x : Flow) (d : Dev) : (setFlow f x d).draws = d.draws := rfl
@[simp] theorem setFlow_memq (f : Nat) (x : Flow) (d : Dev) : (setFlow f x d).memq = d.memq := rfl
@[simp] theorem setFlow_out (f : Nat) (x : Flow) (d : Dev) : (setFlow f x d).out = d.out := rfl
@[simp] theorem setFlow_sys (f : Nat) (x : Flow) (d : Dev) : (setFlow f x d).sys = d.sys := rfl
@[simp] theorem setFlow_cfg (f : Nat) (x : Flow) (d : Dev) : (setFlow f x d).cfg = d.cfg := rfl
@[simp] theorem setFlow_pwr (f : Nat) (x : Flow) (d : Dev) : (setFlow f x d).pwr = d.pwr := rfl
@[simp] theorem setFlow_evr (f : Nat) (x : Flow) (d : Dev) : (setFlow f x d).evr = d.evr := rfl
@[simp] theorem setFlow_hif (f : Nat) (x : Flow) (d : Dev) : (setFlow f x d).hif = d.hif := rfl
@[simp] theorem setFlow_tbu (f : Nat) (x : Flow) (d : Dev) : (setFlow f x d).tbu = d.tbu := rfl
@[simp] theorem setFlow_net (f : Nat) (x : Flow) (d : Dev) : (setFlow f x d).net = d.net := rfl
@[simp] theorem setFlow_cel (f : Nat) (x : Flow) (d : Dev) : (setFlow f x d).cel = d.cel := rfl
@[simp] theorem setFlow_wpu (f : Nat) (x : Flow) (d : Dev) : (setFlow f x d).wpu = d.wpu := rfl
@[simp] theorem setFlow_fbk (f : Nat) (x : Flow) (d : Dev) : (setFlow f x d).fbk = d.fbk := rfl
@[simp] theorem setFlow_mpg (f : Nat) (x : Flow) (d : Dev) : (setFlow f x d).mpg = d.mpg := rfl
@[simp] theorem setFlow_stp (f : Nat) (x : Flow) (d : Dev) : (setFlow f x d).stp = d.stp := rfl
@[simp] theorem setFlow_lpe (f : Nat) (x : Flow) (d : Dev) : (setFlow f x d).lpe = d.lpe := rfl
@[simp] theorem setFlow_acq (f : Nat) (x : Flow) (d : Dev) : (setFlow f x d).acq = d.acq := rfl
@[simp] theorem setFlow_adc (f : Nat) (x : Flow) (d : Dev) : (setFlow f x d).adc = d.adc := rfl
@[simp] theorem setFlow_twn (f : Nat) (x : Flow) (d : Dev) : (setFlow f x d).twn = d.twn := rfl
@[simp] theorem setFlow_flk (f : Nat) (x : Flow) (d : Dev) : (setFlow f x d).flk = d.flk := rfl
@[simp] theorem setFlow_can (f : Nat) (x : Flow) (d : Dev) : (setFlow f x d).can = d.can := rfl
@[simp] theorem setFlow_scn (f : Nat) (x : Flow) (d : Dev) : (setFlow f x d).scn = d.scn := rfl
@[simp] theorem setFlow_saf (f : Nat) (x : Flow) (d : Dev) : (setFlow f x d).saf = d.saf := rfl
@[simp] theorem setFlow_mfp (f : Nat) (x : Flow) (d : Dev) : (setFlow f x d).mfp = d.mfp := rfl
@[simp] theorem rd_setFlow (f : Nat) (x : Flow) (d : Dev) (at_ : Nat) : rd (setFlow f x d) at_ = rd d at_ := by simp only [rd, setFlow_regs]
@[simp] theorem getFlow_setFlow (f : Nat) (x : Flow) (d : Dev) : getFlow (setFlow f x d) f = x := by simp [getFlow, setFlow]
theorem getFlow_setFlow_other (f : Nat) (x : Flow) (d : Dev) {o : Nat} (h : o ≠ f) : getFlow (setFlow f x d) o = getFlow d o := by simp [getFlow, setFlow, smGet_smPut_other _ _ h]

/-! ### `setStp` -/

@[simp] theorem setStp_regs (j : Nat) (x : Stp) (d : Dev) : (setStp j x d).regs = d.regs := rfl
@[simp] theorem setStp_live (j : Nat) (x : Stp) (d : Dev) : (setStp j x d).live = d.live := rfl
@[simp] theorem setStp_staged (j : Nat) (x : Stp) (d : Dev) : (setStp j x d).staged = d.staged := rfl
@[simp] theorem setStp_half (j : Nat) (x : Stp) (d : Dev) : (setStp j x d).half = d.half := rfl
@[simp] theorem setStp_latch (j : Nat) (x : Stp) (d : Dev) : (setStp j x d).latch = d.latch := rfl
@[simp] theorem setStp_sets (j : Nat) (x : Stp) (d : Dev) : (setStp j x d).sets = d.sets := rfl
@[simp] theorem setStp_clash (j : Nat) (x : Stp) (d : Dev) : (setStp j x d).clash = d.clash := rfl
@[simp] theorem setStp_fns (j : Nat) (x : Stp) (d : Dev) : (setStp j x d).fns = d.fns := rfl
@[simp] theorem setStp_fcmds (j : Nat) (x : Stp) (d : Dev) : (setStp j x d).fcmds = d.fcmds := rfl
@[simp] theorem setStp_ffaults (j : Nat) (x : Stp) (d : Dev) : (setStp j x d).ffaults = d.ffaults := rfl
@[simp] theorem setStp_fstops (j : Nat) (x : Stp) (d : Dev) : (setStp j x d).fstops = d.fstops := rfl
@[simp] theorem setStp_qspi (j : Nat) (x : Stp) (d : Dev) : (setStp j x d).qspi = d.qspi := rfl
@[simp] theorem setStp_tb (j : Nat) (x : Stp) (d : Dev) : (setStp j x d).tb = d.tb := rfl
@[simp] theorem setStp_phase (j : Nat) (x : Stp) (d : Dev) : (setStp j x d).phase = d.phase := rfl
@[simp] theorem setStp_tick (j : Nat) (x : Stp) (d : Dev) : (setStp j x d).tick = d.tick := rfl
@[simp] theorem setStp_draws (j : Nat) (x : Stp) (d : Dev) : (setStp j x d).draws = d.draws := rfl
@[simp] theorem setStp_memq (j : Nat) (x : Stp) (d : Dev) : (setStp j x d).memq = d.memq := rfl
@[simp] theorem setStp_out (j : Nat) (x : Stp) (d : Dev) : (setStp j x d).out = d.out := rfl
@[simp] theorem setStp_sys (j : Nat) (x : Stp) (d : Dev) : (setStp j x d).sys = d.sys := rfl
@[simp] theorem setStp_cfg (j : Nat) (x : Stp) (d : Dev) : (setStp j x d).cfg = d.cfg := rfl
@[simp] theorem setStp_pwr (j : Nat) (x : Stp) (d : Dev) : (setStp j x d).pwr = d.pwr := rfl
@[simp] theorem setStp_evr (j : Nat) (x : Stp) (d : Dev) : (setStp j x d).evr = d.evr := rfl
@[simp] theorem setStp_hif (j : Nat) (x : Stp) (d : Dev) : (setStp j x d).hif = d.hif := rfl
@[simp] theorem setStp_tbu (j : Nat) (x : Stp) (d : Dev) : (setStp j x d).tbu = d.tbu := rfl
@[simp] theorem setStp_sch (j : Nat) (x : Stp) (d : Dev) : (setStp j x d).sch = d.sch := rfl
@[simp] theorem setStp_net (j : Nat) (x : Stp) (d : Dev) : (setStp j x d).net = d.net := rfl
@[simp] theorem setStp_cel (j : Nat) (x : Stp) (d : Dev) : (setStp j x d).cel = d.cel := rfl
@[simp] theorem setStp_wpu (j : Nat) (x : Stp) (d : Dev) : (setStp j x d).wpu = d.wpu := rfl
@[simp] theorem setStp_fbk (j : Nat) (x : Stp) (d : Dev) : (setStp j x d).fbk = d.fbk := rfl
@[simp] theorem setStp_mpg (j : Nat) (x : Stp) (d : Dev) : (setStp j x d).mpg = d.mpg := rfl
@[simp] theorem setStp_lpe (j : Nat) (x : Stp) (d : Dev) : (setStp j x d).lpe = d.lpe := rfl
@[simp] theorem setStp_acq (j : Nat) (x : Stp) (d : Dev) : (setStp j x d).acq = d.acq := rfl
@[simp] theorem setStp_adc (j : Nat) (x : Stp) (d : Dev) : (setStp j x d).adc = d.adc := rfl
@[simp] theorem setStp_twn (j : Nat) (x : Stp) (d : Dev) : (setStp j x d).twn = d.twn := rfl
@[simp] theorem setStp_flk (j : Nat) (x : Stp) (d : Dev) : (setStp j x d).flk = d.flk := rfl
@[simp] theorem setStp_can (j : Nat) (x : Stp) (d : Dev) : (setStp j x d).can = d.can := rfl
@[simp] theorem setStp_scn (j : Nat) (x : Stp) (d : Dev) : (setStp j x d).scn = d.scn := rfl
@[simp] theorem setStp_saf (j : Nat) (x : Stp) (d : Dev) : (setStp j x d).saf = d.saf := rfl
@[simp] theorem setStp_mfp (j : Nat) (x : Stp) (d : Dev) : (setStp j x d).mfp = d.mfp := rfl
@[simp] theorem rd_setStp (j : Nat) (x : Stp) (d : Dev) (at_ : Nat) : rd (setStp j x d) at_ = rd d at_ := by simp only [rd, setStp_regs]
@[simp] theorem getStp_setStp (j : Nat) (x : Stp) (d : Dev) : getStp (setStp j x d) j = x := by simp [getStp, setStp]
theorem getStp_setStp_other (j : Nat) (x : Stp) (d : Dev) {o : Nat} (h : o ≠ j) : getStp (setStp j x d) o = getStp d o := by simp [getStp, setStp, smGet_smPut_other _ _ h]

/-! ### `setPwm` -/

@[simp] theorem setPwm_regs (p : Nat) (x : Pwm) (d : Dev) : (setPwm p x d).regs = d.regs := rfl
@[simp] theorem setPwm_live (p : Nat) (x : Pwm) (d : Dev) : (setPwm p x d).live = d.live := rfl
@[simp] theorem setPwm_staged (p : Nat) (x : Pwm) (d : Dev) : (setPwm p x d).staged = d.staged := rfl
@[simp] theorem setPwm_half (p : Nat) (x : Pwm) (d : Dev) : (setPwm p x d).half = d.half := rfl
@[simp] theorem setPwm_latch (p : Nat) (x : Pwm) (d : Dev) : (setPwm p x d).latch = d.latch := rfl
@[simp] theorem setPwm_sets (p : Nat) (x : Pwm) (d : Dev) : (setPwm p x d).sets = d.sets := rfl
@[simp] theorem setPwm_clash (p : Nat) (x : Pwm) (d : Dev) : (setPwm p x d).clash = d.clash := rfl
@[simp] theorem setPwm_fns (p : Nat) (x : Pwm) (d : Dev) : (setPwm p x d).fns = d.fns := rfl
@[simp] theorem setPwm_fcmds (p : Nat) (x : Pwm) (d : Dev) : (setPwm p x d).fcmds = d.fcmds := rfl
@[simp] theorem setPwm_ffaults (p : Nat) (x : Pwm) (d : Dev) : (setPwm p x d).ffaults = d.ffaults := rfl
@[simp] theorem setPwm_fstops (p : Nat) (x : Pwm) (d : Dev) : (setPwm p x d).fstops = d.fstops := rfl
@[simp] theorem setPwm_qspi (p : Nat) (x : Pwm) (d : Dev) : (setPwm p x d).qspi = d.qspi := rfl
@[simp] theorem setPwm_tb (p : Nat) (x : Pwm) (d : Dev) : (setPwm p x d).tb = d.tb := rfl
@[simp] theorem setPwm_phase (p : Nat) (x : Pwm) (d : Dev) : (setPwm p x d).phase = d.phase := rfl
@[simp] theorem setPwm_tick (p : Nat) (x : Pwm) (d : Dev) : (setPwm p x d).tick = d.tick := rfl
@[simp] theorem setPwm_draws (p : Nat) (x : Pwm) (d : Dev) : (setPwm p x d).draws = d.draws := rfl
@[simp] theorem setPwm_memq (p : Nat) (x : Pwm) (d : Dev) : (setPwm p x d).memq = d.memq := rfl
@[simp] theorem setPwm_out (p : Nat) (x : Pwm) (d : Dev) : (setPwm p x d).out = d.out := rfl
@[simp] theorem setPwm_sys (p : Nat) (x : Pwm) (d : Dev) : (setPwm p x d).sys = d.sys := rfl
@[simp] theorem setPwm_cfg (p : Nat) (x : Pwm) (d : Dev) : (setPwm p x d).cfg = d.cfg := rfl
@[simp] theorem setPwm_pwr (p : Nat) (x : Pwm) (d : Dev) : (setPwm p x d).pwr = d.pwr := rfl
@[simp] theorem setPwm_evr (p : Nat) (x : Pwm) (d : Dev) : (setPwm p x d).evr = d.evr := rfl
@[simp] theorem setPwm_hif (p : Nat) (x : Pwm) (d : Dev) : (setPwm p x d).hif = d.hif := rfl
@[simp] theorem setPwm_tbu (p : Nat) (x : Pwm) (d : Dev) : (setPwm p x d).tbu = d.tbu := rfl
@[simp] theorem setPwm_sch (p : Nat) (x : Pwm) (d : Dev) : (setPwm p x d).sch = d.sch := rfl
@[simp] theorem setPwm_net (p : Nat) (x : Pwm) (d : Dev) : (setPwm p x d).net = d.net := rfl
@[simp] theorem setPwm_cel (p : Nat) (x : Pwm) (d : Dev) : (setPwm p x d).cel = d.cel := rfl
@[simp] theorem setPwm_wpu (p : Nat) (x : Pwm) (d : Dev) : (setPwm p x d).wpu = d.wpu := rfl
@[simp] theorem setPwm_fbk (p : Nat) (x : Pwm) (d : Dev) : (setPwm p x d).fbk = d.fbk := rfl
@[simp] theorem setPwm_mpg (p : Nat) (x : Pwm) (d : Dev) : (setPwm p x d).mpg = d.mpg := rfl
@[simp] theorem setPwm_lpe (p : Nat) (x : Pwm) (d : Dev) : (setPwm p x d).lpe = d.lpe := rfl
@[simp] theorem setPwm_acq (p : Nat) (x : Pwm) (d : Dev) : (setPwm p x d).acq = d.acq := rfl
@[simp] theorem setPwm_adc (p : Nat) (x : Pwm) (d : Dev) : (setPwm p x d).adc = d.adc := rfl
@[simp] theorem setPwm_twn (p : Nat) (x : Pwm) (d : Dev) : (setPwm p x d).twn = d.twn := rfl
@[simp] theorem setPwm_flk (p : Nat) (x : Pwm) (d : Dev) : (setPwm p x d).flk = d.flk := rfl
@[simp] theorem setPwm_can (p : Nat) (x : Pwm) (d : Dev) : (setPwm p x d).can = d.can := rfl
@[simp] theorem setPwm_scn (p : Nat) (x : Pwm) (d : Dev) : (setPwm p x d).scn = d.scn := rfl
@[simp] theorem setPwm_saf (p : Nat) (x : Pwm) (d : Dev) : (setPwm p x d).saf = d.saf := rfl
@[simp] theorem setPwm_mfp (p : Nat) (x : Pwm) (d : Dev) : (setPwm p x d).mfp = d.mfp := rfl
@[simp] theorem rd_setPwm (p : Nat) (x : Pwm) (d : Dev) (at_ : Nat) : rd (setPwm p x d) at_ = rd d at_ := by simp only [rd, setPwm_regs]
@[simp] theorem getPwm_setPwm (p : Nat) (x : Pwm) (d : Dev) : getPwm (setPwm p x d) p = x := by simp [getPwm, setPwm]
theorem getPwm_setPwm_other (p : Nat) (x : Pwm) (d : Dev) {o : Nat} (h : o ≠ p) : getPwm (setPwm p x d) o = getPwm d o := by simp [getPwm, setPwm, smGet_smPut_other _ _ h]

/-! ### `setPulse` -/

@[simp] theorem setPulse_regs (k : Nat) (x : Pulse) (d : Dev) : (setPulse k x d).regs = d.regs := rfl
@[simp] theorem setPulse_live (k : Nat) (x : Pulse) (d : Dev) : (setPulse k x d).live = d.live := rfl
@[simp] theorem setPulse_staged (k : Nat) (x : Pulse) (d : Dev) : (setPulse k x d).staged = d.staged := rfl
@[simp] theorem setPulse_half (k : Nat) (x : Pulse) (d : Dev) : (setPulse k x d).half = d.half := rfl
@[simp] theorem setPulse_latch (k : Nat) (x : Pulse) (d : Dev) : (setPulse k x d).latch = d.latch := rfl
@[simp] theorem setPulse_sets (k : Nat) (x : Pulse) (d : Dev) : (setPulse k x d).sets = d.sets := rfl
@[simp] theorem setPulse_clash (k : Nat) (x : Pulse) (d : Dev) : (setPulse k x d).clash = d.clash := rfl
@[simp] theorem setPulse_fns (k : Nat) (x : Pulse) (d : Dev) : (setPulse k x d).fns = d.fns := rfl
@[simp] theorem setPulse_fcmds (k : Nat) (x : Pulse) (d : Dev) : (setPulse k x d).fcmds = d.fcmds := rfl
@[simp] theorem setPulse_ffaults (k : Nat) (x : Pulse) (d : Dev) : (setPulse k x d).ffaults = d.ffaults := rfl
@[simp] theorem setPulse_fstops (k : Nat) (x : Pulse) (d : Dev) : (setPulse k x d).fstops = d.fstops := rfl
@[simp] theorem setPulse_qspi (k : Nat) (x : Pulse) (d : Dev) : (setPulse k x d).qspi = d.qspi := rfl
@[simp] theorem setPulse_tb (k : Nat) (x : Pulse) (d : Dev) : (setPulse k x d).tb = d.tb := rfl
@[simp] theorem setPulse_phase (k : Nat) (x : Pulse) (d : Dev) : (setPulse k x d).phase = d.phase := rfl
@[simp] theorem setPulse_tick (k : Nat) (x : Pulse) (d : Dev) : (setPulse k x d).tick = d.tick := rfl
@[simp] theorem setPulse_draws (k : Nat) (x : Pulse) (d : Dev) : (setPulse k x d).draws = d.draws := rfl
@[simp] theorem setPulse_memq (k : Nat) (x : Pulse) (d : Dev) : (setPulse k x d).memq = d.memq := rfl
@[simp] theorem setPulse_out (k : Nat) (x : Pulse) (d : Dev) : (setPulse k x d).out = d.out := rfl
@[simp] theorem setPulse_sys (k : Nat) (x : Pulse) (d : Dev) : (setPulse k x d).sys = d.sys := rfl
@[simp] theorem setPulse_cfg (k : Nat) (x : Pulse) (d : Dev) : (setPulse k x d).cfg = d.cfg := rfl
@[simp] theorem setPulse_pwr (k : Nat) (x : Pulse) (d : Dev) : (setPulse k x d).pwr = d.pwr := rfl
@[simp] theorem setPulse_evr (k : Nat) (x : Pulse) (d : Dev) : (setPulse k x d).evr = d.evr := rfl
@[simp] theorem setPulse_hif (k : Nat) (x : Pulse) (d : Dev) : (setPulse k x d).hif = d.hif := rfl
@[simp] theorem setPulse_sch (k : Nat) (x : Pulse) (d : Dev) : (setPulse k x d).sch = d.sch := rfl
@[simp] theorem setPulse_net (k : Nat) (x : Pulse) (d : Dev) : (setPulse k x d).net = d.net := rfl
@[simp] theorem setPulse_cel (k : Nat) (x : Pulse) (d : Dev) : (setPulse k x d).cel = d.cel := rfl
@[simp] theorem setPulse_wpu (k : Nat) (x : Pulse) (d : Dev) : (setPulse k x d).wpu = d.wpu := rfl
@[simp] theorem setPulse_fbk (k : Nat) (x : Pulse) (d : Dev) : (setPulse k x d).fbk = d.fbk := rfl
@[simp] theorem setPulse_mpg (k : Nat) (x : Pulse) (d : Dev) : (setPulse k x d).mpg = d.mpg := rfl
@[simp] theorem setPulse_stp (k : Nat) (x : Pulse) (d : Dev) : (setPulse k x d).stp = d.stp := rfl
@[simp] theorem setPulse_lpe (k : Nat) (x : Pulse) (d : Dev) : (setPulse k x d).lpe = d.lpe := rfl
@[simp] theorem setPulse_acq (k : Nat) (x : Pulse) (d : Dev) : (setPulse k x d).acq = d.acq := rfl
@[simp] theorem setPulse_adc (k : Nat) (x : Pulse) (d : Dev) : (setPulse k x d).adc = d.adc := rfl
@[simp] theorem setPulse_twn (k : Nat) (x : Pulse) (d : Dev) : (setPulse k x d).twn = d.twn := rfl
@[simp] theorem setPulse_flk (k : Nat) (x : Pulse) (d : Dev) : (setPulse k x d).flk = d.flk := rfl
@[simp] theorem setPulse_can (k : Nat) (x : Pulse) (d : Dev) : (setPulse k x d).can = d.can := rfl
@[simp] theorem setPulse_scn (k : Nat) (x : Pulse) (d : Dev) : (setPulse k x d).scn = d.scn := rfl
@[simp] theorem setPulse_saf (k : Nat) (x : Pulse) (d : Dev) : (setPulse k x d).saf = d.saf := rfl
@[simp] theorem setPulse_mfp (k : Nat) (x : Pulse) (d : Dev) : (setPulse k x d).mfp = d.mfp := rfl
@[simp] theorem rd_setPulse (k : Nat) (x : Pulse) (d : Dev) (at_ : Nat) : rd (setPulse k x d) at_ = rd d at_ := by simp only [rd, setPulse_regs]
@[simp] theorem getPulse_setPulse (k : Nat) (x : Pulse) (d : Dev) : getPulse (setPulse k x d) k = x := by simp [getPulse, setPulse]
theorem getPulse_setPulse_other (k : Nat) (x : Pulse) (d : Dev) {o : Nat} (h : o ≠ k) : getPulse (setPulse k x d) o = getPulse d o := by simp [getPulse, setPulse, smGet_smPut_other _ _ h]

/-! ### `setCap` -/

@[simp] theorem setCap_regs (k : Nat) (x : List CapEntry) (d : Dev) : (setCap k x d).regs = d.regs := rfl
@[simp] theorem setCap_live (k : Nat) (x : List CapEntry) (d : Dev) : (setCap k x d).live = d.live := rfl
@[simp] theorem setCap_staged (k : Nat) (x : List CapEntry) (d : Dev) : (setCap k x d).staged = d.staged := rfl
@[simp] theorem setCap_half (k : Nat) (x : List CapEntry) (d : Dev) : (setCap k x d).half = d.half := rfl
@[simp] theorem setCap_latch (k : Nat) (x : List CapEntry) (d : Dev) : (setCap k x d).latch = d.latch := rfl
@[simp] theorem setCap_sets (k : Nat) (x : List CapEntry) (d : Dev) : (setCap k x d).sets = d.sets := rfl
@[simp] theorem setCap_clash (k : Nat) (x : List CapEntry) (d : Dev) : (setCap k x d).clash = d.clash := rfl
@[simp] theorem setCap_fns (k : Nat) (x : List CapEntry) (d : Dev) : (setCap k x d).fns = d.fns := rfl
@[simp] theorem setCap_fcmds (k : Nat) (x : List CapEntry) (d : Dev) : (setCap k x d).fcmds = d.fcmds := rfl
@[simp] theorem setCap_ffaults (k : Nat) (x : List CapEntry) (d : Dev) : (setCap k x d).ffaults = d.ffaults := rfl
@[simp] theorem setCap_fstops (k : Nat) (x : List CapEntry) (d : Dev) : (setCap k x d).fstops = d.fstops := rfl
@[simp] theorem setCap_qspi (k : Nat) (x : List CapEntry) (d : Dev) : (setCap k x d).qspi = d.qspi := rfl
@[simp] theorem setCap_tb (k : Nat) (x : List CapEntry) (d : Dev) : (setCap k x d).tb = d.tb := rfl
@[simp] theorem setCap_phase (k : Nat) (x : List CapEntry) (d : Dev) : (setCap k x d).phase = d.phase := rfl
@[simp] theorem setCap_tick (k : Nat) (x : List CapEntry) (d : Dev) : (setCap k x d).tick = d.tick := rfl
@[simp] theorem setCap_draws (k : Nat) (x : List CapEntry) (d : Dev) : (setCap k x d).draws = d.draws := rfl
@[simp] theorem setCap_memq (k : Nat) (x : List CapEntry) (d : Dev) : (setCap k x d).memq = d.memq := rfl
@[simp] theorem setCap_out (k : Nat) (x : List CapEntry) (d : Dev) : (setCap k x d).out = d.out := rfl
@[simp] theorem setCap_sys (k : Nat) (x : List CapEntry) (d : Dev) : (setCap k x d).sys = d.sys := rfl
@[simp] theorem setCap_cfg (k : Nat) (x : List CapEntry) (d : Dev) : (setCap k x d).cfg = d.cfg := rfl
@[simp] theorem setCap_pwr (k : Nat) (x : List CapEntry) (d : Dev) : (setCap k x d).pwr = d.pwr := rfl
@[simp] theorem setCap_evr (k : Nat) (x : List CapEntry) (d : Dev) : (setCap k x d).evr = d.evr := rfl
@[simp] theorem setCap_hif (k : Nat) (x : List CapEntry) (d : Dev) : (setCap k x d).hif = d.hif := rfl
@[simp] theorem setCap_sch (k : Nat) (x : List CapEntry) (d : Dev) : (setCap k x d).sch = d.sch := rfl
@[simp] theorem setCap_net (k : Nat) (x : List CapEntry) (d : Dev) : (setCap k x d).net = d.net := rfl
@[simp] theorem setCap_cel (k : Nat) (x : List CapEntry) (d : Dev) : (setCap k x d).cel = d.cel := rfl
@[simp] theorem setCap_wpu (k : Nat) (x : List CapEntry) (d : Dev) : (setCap k x d).wpu = d.wpu := rfl
@[simp] theorem setCap_fbk (k : Nat) (x : List CapEntry) (d : Dev) : (setCap k x d).fbk = d.fbk := rfl
@[simp] theorem setCap_mpg (k : Nat) (x : List CapEntry) (d : Dev) : (setCap k x d).mpg = d.mpg := rfl
@[simp] theorem setCap_stp (k : Nat) (x : List CapEntry) (d : Dev) : (setCap k x d).stp = d.stp := rfl
@[simp] theorem setCap_lpe (k : Nat) (x : List CapEntry) (d : Dev) : (setCap k x d).lpe = d.lpe := rfl
@[simp] theorem setCap_acq (k : Nat) (x : List CapEntry) (d : Dev) : (setCap k x d).acq = d.acq := rfl
@[simp] theorem setCap_adc (k : Nat) (x : List CapEntry) (d : Dev) : (setCap k x d).adc = d.adc := rfl
@[simp] theorem setCap_twn (k : Nat) (x : List CapEntry) (d : Dev) : (setCap k x d).twn = d.twn := rfl
@[simp] theorem setCap_flk (k : Nat) (x : List CapEntry) (d : Dev) : (setCap k x d).flk = d.flk := rfl
@[simp] theorem setCap_can (k : Nat) (x : List CapEntry) (d : Dev) : (setCap k x d).can = d.can := rfl
@[simp] theorem setCap_scn (k : Nat) (x : List CapEntry) (d : Dev) : (setCap k x d).scn = d.scn := rfl
@[simp] theorem setCap_saf (k : Nat) (x : List CapEntry) (d : Dev) : (setCap k x d).saf = d.saf := rfl
@[simp] theorem setCap_mfp (k : Nat) (x : List CapEntry) (d : Dev) : (setCap k x d).mfp = d.mfp := rfl
@[simp] theorem rd_setCap (k : Nat) (x : List CapEntry) (d : Dev) (at_ : Nat) : rd (setCap k x d) at_ = rd d at_ := by simp only [rd, setCap_regs]
@[simp] theorem getCap_setCap (k : Nat) (x : List CapEntry) (d : Dev) : getCap (setCap k x d) k = x := by simp [getCap, setCap]
theorem getCap_setCap_other (k : Nat) (x : List CapEntry) (d : Dev) {o : Nat} (h : o ≠ k) : getCap (setCap k x d) o = getCap d o := by simp [getCap, setCap, smGet_smPut_other _ _ h]

/-! ### `setBar` -/

@[simp] theorem setBar_regs (b : Nat) (x : Bar) (d : Dev) : (setBar b x d).regs = d.regs := rfl
@[simp] theorem setBar_live (b : Nat) (x : Bar) (d : Dev) : (setBar b x d).live = d.live := rfl
@[simp] theorem setBar_staged (b : Nat) (x : Bar) (d : Dev) : (setBar b x d).staged = d.staged := rfl
@[simp] theorem setBar_half (b : Nat) (x : Bar) (d : Dev) : (setBar b x d).half = d.half := rfl
@[simp] theorem setBar_latch (b : Nat) (x : Bar) (d : Dev) : (setBar b x d).latch = d.latch := rfl
@[simp] theorem setBar_sets (b : Nat) (x : Bar) (d : Dev) : (setBar b x d).sets = d.sets := rfl
@[simp] theorem setBar_clash (b : Nat) (x : Bar) (d : Dev) : (setBar b x d).clash = d.clash := rfl
@[simp] theorem setBar_fns (b : Nat) (x : Bar) (d : Dev) : (setBar b x d).fns = d.fns := rfl
@[simp] theorem setBar_fcmds (b : Nat) (x : Bar) (d : Dev) : (setBar b x d).fcmds = d.fcmds := rfl
@[simp] theorem setBar_ffaults (b : Nat) (x : Bar) (d : Dev) : (setBar b x d).ffaults = d.ffaults := rfl
@[simp] theorem setBar_fstops (b : Nat) (x : Bar) (d : Dev) : (setBar b x d).fstops = d.fstops := rfl
@[simp] theorem setBar_qspi (b : Nat) (x : Bar) (d : Dev) : (setBar b x d).qspi = d.qspi := rfl
@[simp] theorem setBar_tb (b : Nat) (x : Bar) (d : Dev) : (setBar b x d).tb = d.tb := rfl
@[simp] theorem setBar_phase (b : Nat) (x : Bar) (d : Dev) : (setBar b x d).phase = d.phase := rfl
@[simp] theorem setBar_tick (b : Nat) (x : Bar) (d : Dev) : (setBar b x d).tick = d.tick := rfl
@[simp] theorem setBar_draws (b : Nat) (x : Bar) (d : Dev) : (setBar b x d).draws = d.draws := rfl
@[simp] theorem setBar_memq (b : Nat) (x : Bar) (d : Dev) : (setBar b x d).memq = d.memq := rfl
@[simp] theorem setBar_out (b : Nat) (x : Bar) (d : Dev) : (setBar b x d).out = d.out := rfl
@[simp] theorem setBar_sys (b : Nat) (x : Bar) (d : Dev) : (setBar b x d).sys = d.sys := rfl
@[simp] theorem setBar_cfg (b : Nat) (x : Bar) (d : Dev) : (setBar b x d).cfg = d.cfg := rfl
@[simp] theorem setBar_pwr (b : Nat) (x : Bar) (d : Dev) : (setBar b x d).pwr = d.pwr := rfl
@[simp] theorem setBar_evr (b : Nat) (x : Bar) (d : Dev) : (setBar b x d).evr = d.evr := rfl
@[simp] theorem setBar_hif (b : Nat) (x : Bar) (d : Dev) : (setBar b x d).hif = d.hif := rfl
@[simp] theorem setBar_tbu (b : Nat) (x : Bar) (d : Dev) : (setBar b x d).tbu = d.tbu := rfl
@[simp] theorem setBar_sch (b : Nat) (x : Bar) (d : Dev) : (setBar b x d).sch = d.sch := rfl
@[simp] theorem setBar_net (b : Nat) (x : Bar) (d : Dev) : (setBar b x d).net = d.net := rfl
@[simp] theorem setBar_cel (b : Nat) (x : Bar) (d : Dev) : (setBar b x d).cel = d.cel := rfl
@[simp] theorem setBar_fbk (b : Nat) (x : Bar) (d : Dev) : (setBar b x d).fbk = d.fbk := rfl
@[simp] theorem setBar_mpg (b : Nat) (x : Bar) (d : Dev) : (setBar b x d).mpg = d.mpg := rfl
@[simp] theorem setBar_stp (b : Nat) (x : Bar) (d : Dev) : (setBar b x d).stp = d.stp := rfl
@[simp] theorem setBar_lpe (b : Nat) (x : Bar) (d : Dev) : (setBar b x d).lpe = d.lpe := rfl
@[simp] theorem setBar_acq (b : Nat) (x : Bar) (d : Dev) : (setBar b x d).acq = d.acq := rfl
@[simp] theorem setBar_adc (b : Nat) (x : Bar) (d : Dev) : (setBar b x d).adc = d.adc := rfl
@[simp] theorem setBar_twn (b : Nat) (x : Bar) (d : Dev) : (setBar b x d).twn = d.twn := rfl
@[simp] theorem setBar_flk (b : Nat) (x : Bar) (d : Dev) : (setBar b x d).flk = d.flk := rfl
@[simp] theorem setBar_can (b : Nat) (x : Bar) (d : Dev) : (setBar b x d).can = d.can := rfl
@[simp] theorem setBar_scn (b : Nat) (x : Bar) (d : Dev) : (setBar b x d).scn = d.scn := rfl
@[simp] theorem setBar_saf (b : Nat) (x : Bar) (d : Dev) : (setBar b x d).saf = d.saf := rfl
@[simp] theorem setBar_mfp (b : Nat) (x : Bar) (d : Dev) : (setBar b x d).mfp = d.mfp := rfl
@[simp] theorem rd_setBar (b : Nat) (x : Bar) (d : Dev) (at_ : Nat) : rd (setBar b x d) at_ = rd d at_ := by simp only [rd, setBar_regs]
@[simp] theorem getBar_setBar (b : Nat) (x : Bar) (d : Dev) : getBar (setBar b x d) b = x := by simp [getBar, setBar]
theorem getBar_setBar_other (b : Nat) (x : Bar) (d : Dev) {o : Nat} (h : o ≠ b) : getBar (setBar b x d) o = getBar d o := by simp [getBar, setBar, smGet_smPut_other _ _ h]

/-! ### `setOut` -/

@[simp] theorem setOut_regs (k : Nat) (o : SafOut) (d : Dev) : (setOut k o d).regs = d.regs := rfl
@[simp] theorem setOut_live (k : Nat) (o : SafOut) (d : Dev) : (setOut k o d).live = d.live := rfl
@[simp] theorem setOut_staged (k : Nat) (o : SafOut) (d : Dev) : (setOut k o d).staged = d.staged := rfl
@[simp] theorem setOut_half (k : Nat) (o : SafOut) (d : Dev) : (setOut k o d).half = d.half := rfl
@[simp] theorem setOut_latch (k : Nat) (o : SafOut) (d : Dev) : (setOut k o d).latch = d.latch := rfl
@[simp] theorem setOut_sets (k : Nat) (o : SafOut) (d : Dev) : (setOut k o d).sets = d.sets := rfl
@[simp] theorem setOut_clash (k : Nat) (o : SafOut) (d : Dev) : (setOut k o d).clash = d.clash := rfl
@[simp] theorem setOut_fns (k : Nat) (o : SafOut) (d : Dev) : (setOut k o d).fns = d.fns := rfl
@[simp] theorem setOut_fcmds (k : Nat) (o : SafOut) (d : Dev) : (setOut k o d).fcmds = d.fcmds := rfl
@[simp] theorem setOut_ffaults (k : Nat) (o : SafOut) (d : Dev) : (setOut k o d).ffaults = d.ffaults := rfl
@[simp] theorem setOut_fstops (k : Nat) (o : SafOut) (d : Dev) : (setOut k o d).fstops = d.fstops := rfl
@[simp] theorem setOut_qspi (k : Nat) (o : SafOut) (d : Dev) : (setOut k o d).qspi = d.qspi := rfl
@[simp] theorem setOut_tb (k : Nat) (o : SafOut) (d : Dev) : (setOut k o d).tb = d.tb := rfl
@[simp] theorem setOut_phase (k : Nat) (o : SafOut) (d : Dev) : (setOut k o d).phase = d.phase := rfl
@[simp] theorem setOut_tick (k : Nat) (o : SafOut) (d : Dev) : (setOut k o d).tick = d.tick := rfl
@[simp] theorem setOut_draws (k : Nat) (o : SafOut) (d : Dev) : (setOut k o d).draws = d.draws := rfl
@[simp] theorem setOut_memq (k : Nat) (o : SafOut) (d : Dev) : (setOut k o d).memq = d.memq := rfl
@[simp] theorem setOut_out (k : Nat) (o : SafOut) (d : Dev) : (setOut k o d).out = d.out := rfl
@[simp] theorem setOut_sys (k : Nat) (o : SafOut) (d : Dev) : (setOut k o d).sys = d.sys := rfl
@[simp] theorem setOut_cfg (k : Nat) (o : SafOut) (d : Dev) : (setOut k o d).cfg = d.cfg := rfl
@[simp] theorem setOut_pwr (k : Nat) (o : SafOut) (d : Dev) : (setOut k o d).pwr = d.pwr := rfl
@[simp] theorem setOut_evr (k : Nat) (o : SafOut) (d : Dev) : (setOut k o d).evr = d.evr := rfl
@[simp] theorem setOut_hif (k : Nat) (o : SafOut) (d : Dev) : (setOut k o d).hif = d.hif := rfl
@[simp] theorem setOut_tbu (k : Nat) (o : SafOut) (d : Dev) : (setOut k o d).tbu = d.tbu := rfl
@[simp] theorem setOut_sch (k : Nat) (o : SafOut) (d : Dev) : (setOut k o d).sch = d.sch := rfl
@[simp] theorem setOut_net (k : Nat) (o : SafOut) (d : Dev) : (setOut k o d).net = d.net := rfl
@[simp] theorem setOut_cel (k : Nat) (o : SafOut) (d : Dev) : (setOut k o d).cel = d.cel := rfl
@[simp] theorem setOut_wpu (k : Nat) (o : SafOut) (d : Dev) : (setOut k o d).wpu = d.wpu := rfl
@[simp] theorem setOut_fbk (k : Nat) (o : SafOut) (d : Dev) : (setOut k o d).fbk = d.fbk := rfl
@[simp] theorem setOut_mpg (k : Nat) (o : SafOut) (d : Dev) : (setOut k o d).mpg = d.mpg := rfl
@[simp] theorem setOut_stp (k : Nat) (o : SafOut) (d : Dev) : (setOut k o d).stp = d.stp := rfl
@[simp] theorem setOut_lpe (k : Nat) (o : SafOut) (d : Dev) : (setOut k o d).lpe = d.lpe := rfl
@[simp] theorem setOut_acq (k : Nat) (o : SafOut) (d : Dev) : (setOut k o d).acq = d.acq := rfl
@[simp] theorem setOut_adc (k : Nat) (o : SafOut) (d : Dev) : (setOut k o d).adc = d.adc := rfl
@[simp] theorem setOut_twn (k : Nat) (o : SafOut) (d : Dev) : (setOut k o d).twn = d.twn := rfl
@[simp] theorem setOut_flk (k : Nat) (o : SafOut) (d : Dev) : (setOut k o d).flk = d.flk := rfl
@[simp] theorem setOut_can (k : Nat) (o : SafOut) (d : Dev) : (setOut k o d).can = d.can := rfl
@[simp] theorem setOut_scn (k : Nat) (o : SafOut) (d : Dev) : (setOut k o d).scn = d.scn := rfl
@[simp] theorem setOut_mfp (k : Nat) (o : SafOut) (d : Dev) : (setOut k o d).mfp = d.mfp := rfl
@[simp] theorem rd_setOut (k : Nat) (o : SafOut) (d : Dev) (at_ : Nat) : rd (setOut k o d) at_ = rd d at_ := by simp only [rd, setOut_regs]

/-! ### Fields of a register -/

/-- Noting a set of hardware changes nothing but the notes. -/
theorem noteSet_sets (off : Nat) (f : Fld) (n : Nat) (d : Dev) : ∃ l, noteSet off f n d = { d with sets := l } := by
  unfold noteSet; split <;> exact ⟨_, rfl⟩

@[simp] theorem rd_noteSet (off : Nat) (f : Fld) (n : Nat) (d : Dev) (at_ : Nat) : rd (noteSet off f n d) at_ = rd d at_ := by
  obtain ⟨l, h⟩ := noteSet_sets off f n d; rw [h]; rfl

@[simp] theorem wf_live (off : Nat) (f : Fld) (n : Nat) (d : Dev) : (wf off f n d).live = d.live := by obtain ⟨l, h⟩ := noteSet_sets off f n d; simp only [wf, h, wr_live]
@[simp] theorem wf_staged (off : Nat) (f : Fld) (n : Nat) (d : Dev) : (wf off f n d).staged = d.staged := by obtain ⟨l, h⟩ := noteSet_sets off f n d; simp only [wf, h, wr_staged]
@[simp] theorem wf_half (off : Nat) (f : Fld) (n : Nat) (d : Dev) : (wf off f n d).half = d.half := by obtain ⟨l, h⟩ := noteSet_sets off f n d; simp only [wf, h, wr_half]
@[simp] theorem wf_latch (off : Nat) (f : Fld) (n : Nat) (d : Dev) : (wf off f n d).latch = d.latch := by obtain ⟨l, h⟩ := noteSet_sets off f n d; simp only [wf, h, wr_latch]
@[simp] theorem wf_clash (off : Nat) (f : Fld) (n : Nat) (d : Dev) : (wf off f n d).clash = d.clash := by obtain ⟨l, h⟩ := noteSet_sets off f n d; simp only [wf, h, wr_clash]
@[simp] theorem wf_fns (off : Nat) (f : Fld) (n : Nat) (d : Dev) : (wf off f n d).fns = d.fns := by obtain ⟨l, h⟩ := noteSet_sets off f n d; simp only [wf, h, wr_fns]
@[simp] theorem wf_fcmds (off : Nat) (f : Fld) (n : Nat) (d : Dev) : (wf off f n d).fcmds = d.fcmds := by obtain ⟨l, h⟩ := noteSet_sets off f n d; simp only [wf, h, wr_fcmds]
@[simp] theorem wf_ffaults (off : Nat) (f : Fld) (n : Nat) (d : Dev) : (wf off f n d).ffaults = d.ffaults := by obtain ⟨l, h⟩ := noteSet_sets off f n d; simp only [wf, h, wr_ffaults]
@[simp] theorem wf_fstops (off : Nat) (f : Fld) (n : Nat) (d : Dev) : (wf off f n d).fstops = d.fstops := by obtain ⟨l, h⟩ := noteSet_sets off f n d; simp only [wf, h, wr_fstops]
@[simp] theorem wf_qspi (off : Nat) (f : Fld) (n : Nat) (d : Dev) : (wf off f n d).qspi = d.qspi := by obtain ⟨l, h⟩ := noteSet_sets off f n d; simp only [wf, h, wr_qspi]
@[simp] theorem wf_tb (off : Nat) (f : Fld) (n : Nat) (d : Dev) : (wf off f n d).tb = d.tb := by obtain ⟨l, h⟩ := noteSet_sets off f n d; simp only [wf, h, wr_tb]
@[simp] theorem wf_phase (off : Nat) (f : Fld) (n : Nat) (d : Dev) : (wf off f n d).phase = d.phase := by obtain ⟨l, h⟩ := noteSet_sets off f n d; simp only [wf, h, wr_phase]
@[simp] theorem wf_tick (off : Nat) (f : Fld) (n : Nat) (d : Dev) : (wf off f n d).tick = d.tick := by obtain ⟨l, h⟩ := noteSet_sets off f n d; simp only [wf, h, wr_tick]
@[simp] theorem wf_draws (off : Nat) (f : Fld) (n : Nat) (d : Dev) : (wf off f n d).draws = d.draws := by obtain ⟨l, h⟩ := noteSet_sets off f n d; simp only [wf, h, wr_draws]
@[simp] theorem wf_memq (off : Nat) (f : Fld) (n : Nat) (d : Dev) : (wf off f n d).memq = d.memq := by obtain ⟨l, h⟩ := noteSet_sets off f n d; simp only [wf, h, wr_memq]
@[simp] theorem wf_out (off : Nat) (f : Fld) (n : Nat) (d : Dev) : (wf off f n d).out = d.out := by obtain ⟨l, h⟩ := noteSet_sets off f n d; simp only [wf, h, wr_out]
@[simp] theorem wf_sys (off : Nat) (f : Fld) (n : Nat) (d : Dev) : (wf off f n d).sys = d.sys := by obtain ⟨l, h⟩ := noteSet_sets off f n d; simp only [wf, h, wr_sys]
@[simp] theorem wf_cfg (off : Nat) (f : Fld) (n : Nat) (d : Dev) : (wf off f n d).cfg = d.cfg := by obtain ⟨l, h⟩ := noteSet_sets off f n d; simp only [wf, h, wr_cfg]
@[simp] theorem wf_pwr (off : Nat) (f : Fld) (n : Nat) (d : Dev) : (wf off f n d).pwr = d.pwr := by obtain ⟨l, h⟩ := noteSet_sets off f n d; simp only [wf, h, wr_pwr]
@[simp] theorem wf_evr (off : Nat) (f : Fld) (n : Nat) (d : Dev) : (wf off f n d).evr = d.evr := by obtain ⟨l, h⟩ := noteSet_sets off f n d; simp only [wf, h, wr_evr]
@[simp] theorem wf_hif (off : Nat) (f : Fld) (n : Nat) (d : Dev) : (wf off f n d).hif = d.hif := by obtain ⟨l, h⟩ := noteSet_sets off f n d; simp only [wf, h, wr_hif]
@[simp] theorem wf_tbu (off : Nat) (f : Fld) (n : Nat) (d : Dev) : (wf off f n d).tbu = d.tbu := by obtain ⟨l, h⟩ := noteSet_sets off f n d; simp only [wf, h, wr_tbu]
@[simp] theorem wf_sch (off : Nat) (f : Fld) (n : Nat) (d : Dev) : (wf off f n d).sch = d.sch := by obtain ⟨l, h⟩ := noteSet_sets off f n d; simp only [wf, h, wr_sch]
@[simp] theorem wf_net (off : Nat) (f : Fld) (n : Nat) (d : Dev) : (wf off f n d).net = d.net := by obtain ⟨l, h⟩ := noteSet_sets off f n d; simp only [wf, h, wr_net]
@[simp] theorem wf_cel (off : Nat) (f : Fld) (n : Nat) (d : Dev) : (wf off f n d).cel = d.cel := by obtain ⟨l, h⟩ := noteSet_sets off f n d; simp only [wf, h, wr_cel]
@[simp] theorem wf_wpu (off : Nat) (f : Fld) (n : Nat) (d : Dev) : (wf off f n d).wpu = d.wpu := by obtain ⟨l, h⟩ := noteSet_sets off f n d; simp only [wf, h, wr_wpu]
@[simp] theorem wf_fbk (off : Nat) (f : Fld) (n : Nat) (d : Dev) : (wf off f n d).fbk = d.fbk := by obtain ⟨l, h⟩ := noteSet_sets off f n d; simp only [wf, h, wr_fbk]
@[simp] theorem wf_mpg (off : Nat) (f : Fld) (n : Nat) (d : Dev) : (wf off f n d).mpg = d.mpg := by obtain ⟨l, h⟩ := noteSet_sets off f n d; simp only [wf, h, wr_mpg]
@[simp] theorem wf_stp (off : Nat) (f : Fld) (n : Nat) (d : Dev) : (wf off f n d).stp = d.stp := by obtain ⟨l, h⟩ := noteSet_sets off f n d; simp only [wf, h, wr_stp]
@[simp] theorem wf_lpe (off : Nat) (f : Fld) (n : Nat) (d : Dev) : (wf off f n d).lpe = d.lpe := by obtain ⟨l, h⟩ := noteSet_sets off f n d; simp only [wf, h, wr_lpe]
@[simp] theorem wf_acq (off : Nat) (f : Fld) (n : Nat) (d : Dev) : (wf off f n d).acq = d.acq := by obtain ⟨l, h⟩ := noteSet_sets off f n d; simp only [wf, h, wr_acq]
@[simp] theorem wf_adc (off : Nat) (f : Fld) (n : Nat) (d : Dev) : (wf off f n d).adc = d.adc := by obtain ⟨l, h⟩ := noteSet_sets off f n d; simp only [wf, h, wr_adc]
@[simp] theorem wf_twn (off : Nat) (f : Fld) (n : Nat) (d : Dev) : (wf off f n d).twn = d.twn := by obtain ⟨l, h⟩ := noteSet_sets off f n d; simp only [wf, h, wr_twn]
@[simp] theorem wf_flk (off : Nat) (f : Fld) (n : Nat) (d : Dev) : (wf off f n d).flk = d.flk := by obtain ⟨l, h⟩ := noteSet_sets off f n d; simp only [wf, h, wr_flk]
@[simp] theorem wf_can (off : Nat) (f : Fld) (n : Nat) (d : Dev) : (wf off f n d).can = d.can := by obtain ⟨l, h⟩ := noteSet_sets off f n d; simp only [wf, h, wr_can]
@[simp] theorem wf_scn (off : Nat) (f : Fld) (n : Nat) (d : Dev) : (wf off f n d).scn = d.scn := by obtain ⟨l, h⟩ := noteSet_sets off f n d; simp only [wf, h, wr_scn]
@[simp] theorem wf_saf (off : Nat) (f : Fld) (n : Nat) (d : Dev) : (wf off f n d).saf = d.saf := by obtain ⟨l, h⟩ := noteSet_sets off f n d; simp only [wf, h, wr_saf]
@[simp] theorem wf_mfp (off : Nat) (f : Fld) (n : Nat) (d : Dev) : (wf off f n d).mfp = d.mfp := by obtain ⟨l, h⟩ := noteSet_sets off f n d; simp only [wf, h, wr_mfp]

@[simp] theorem wb_live (off : Nat) (f : Fld) (b : Bool) (d : Dev) : (wb off f b d).live = d.live := wf_live _ _ _ _
@[simp] theorem wb_staged (off : Nat) (f : Fld) (b : Bool) (d : Dev) : (wb off f b d).staged = d.staged := wf_staged _ _ _ _
@[simp] theorem wb_half (off : Nat) (f : Fld) (b : Bool) (d : Dev) : (wb off f b d).half = d.half := wf_half _ _ _ _
@[simp] theorem wb_latch (off : Nat) (f : Fld) (b : Bool) (d : Dev) : (wb off f b d).latch = d.latch := wf_latch _ _ _ _
@[simp] theorem wb_clash (off : Nat) (f : Fld) (b : Bool) (d : Dev) : (wb off f b d).clash = d.clash := wf_clash _ _ _ _
@[simp] theorem wb_fns (off : Nat) (f : Fld) (b : Bool) (d : Dev) : (wb off f b d).fns = d.fns := wf_fns _ _ _ _
@[simp] theorem wb_fcmds (off : Nat) (f : Fld) (b : Bool) (d : Dev) : (wb off f b d).fcmds = d.fcmds := wf_fcmds _ _ _ _
@[simp] theorem wb_ffaults (off : Nat) (f : Fld) (b : Bool) (d : Dev) : (wb off f b d).ffaults = d.ffaults := wf_ffaults _ _ _ _
@[simp] theorem wb_fstops (off : Nat) (f : Fld) (b : Bool) (d : Dev) : (wb off f b d).fstops = d.fstops := wf_fstops _ _ _ _
@[simp] theorem wb_qspi (off : Nat) (f : Fld) (b : Bool) (d : Dev) : (wb off f b d).qspi = d.qspi := wf_qspi _ _ _ _
@[simp] theorem wb_tb (off : Nat) (f : Fld) (b : Bool) (d : Dev) : (wb off f b d).tb = d.tb := wf_tb _ _ _ _
@[simp] theorem wb_phase (off : Nat) (f : Fld) (b : Bool) (d : Dev) : (wb off f b d).phase = d.phase := wf_phase _ _ _ _
@[simp] theorem wb_tick (off : Nat) (f : Fld) (b : Bool) (d : Dev) : (wb off f b d).tick = d.tick := wf_tick _ _ _ _
@[simp] theorem wb_draws (off : Nat) (f : Fld) (b : Bool) (d : Dev) : (wb off f b d).draws = d.draws := wf_draws _ _ _ _
@[simp] theorem wb_memq (off : Nat) (f : Fld) (b : Bool) (d : Dev) : (wb off f b d).memq = d.memq := wf_memq _ _ _ _
@[simp] theorem wb_out (off : Nat) (f : Fld) (b : Bool) (d : Dev) : (wb off f b d).out = d.out := wf_out _ _ _ _
@[simp] theorem wb_sys (off : Nat) (f : Fld) (b : Bool) (d : Dev) : (wb off f b d).sys = d.sys := wf_sys _ _ _ _
@[simp] theorem wb_cfg (off : Nat) (f : Fld) (b : Bool) (d : Dev) : (wb off f b d).cfg = d.cfg := wf_cfg _ _ _ _
@[simp] theorem wb_pwr (off : Nat) (f : Fld) (b : Bool) (d : Dev) : (wb off f b d).pwr = d.pwr := wf_pwr _ _ _ _
@[simp] theorem wb_evr (off : Nat) (f : Fld) (b : Bool) (d : Dev) : (wb off f b d).evr = d.evr := wf_evr _ _ _ _
@[simp] theorem wb_hif (off : Nat) (f : Fld) (b : Bool) (d : Dev) : (wb off f b d).hif = d.hif := wf_hif _ _ _ _
@[simp] theorem wb_tbu (off : Nat) (f : Fld) (b : Bool) (d : Dev) : (wb off f b d).tbu = d.tbu := wf_tbu _ _ _ _
@[simp] theorem wb_sch (off : Nat) (f : Fld) (b : Bool) (d : Dev) : (wb off f b d).sch = d.sch := wf_sch _ _ _ _
@[simp] theorem wb_net (off : Nat) (f : Fld) (b : Bool) (d : Dev) : (wb off f b d).net = d.net := wf_net _ _ _ _
@[simp] theorem wb_cel (off : Nat) (f : Fld) (b : Bool) (d : Dev) : (wb off f b d).cel = d.cel := wf_cel _ _ _ _
@[simp] theorem wb_wpu (off : Nat) (f : Fld) (b : Bool) (d : Dev) : (wb off f b d).wpu = d.wpu := wf_wpu _ _ _ _
@[simp] theorem wb_fbk (off : Nat) (f : Fld) (b : Bool) (d : Dev) : (wb off f b d).fbk = d.fbk := wf_fbk _ _ _ _
@[simp] theorem wb_mpg (off : Nat) (f : Fld) (b : Bool) (d : Dev) : (wb off f b d).mpg = d.mpg := wf_mpg _ _ _ _
@[simp] theorem wb_stp (off : Nat) (f : Fld) (b : Bool) (d : Dev) : (wb off f b d).stp = d.stp := wf_stp _ _ _ _
@[simp] theorem wb_lpe (off : Nat) (f : Fld) (b : Bool) (d : Dev) : (wb off f b d).lpe = d.lpe := wf_lpe _ _ _ _
@[simp] theorem wb_acq (off : Nat) (f : Fld) (b : Bool) (d : Dev) : (wb off f b d).acq = d.acq := wf_acq _ _ _ _
@[simp] theorem wb_adc (off : Nat) (f : Fld) (b : Bool) (d : Dev) : (wb off f b d).adc = d.adc := wf_adc _ _ _ _
@[simp] theorem wb_twn (off : Nat) (f : Fld) (b : Bool) (d : Dev) : (wb off f b d).twn = d.twn := wf_twn _ _ _ _
@[simp] theorem wb_flk (off : Nat) (f : Fld) (b : Bool) (d : Dev) : (wb off f b d).flk = d.flk := wf_flk _ _ _ _
@[simp] theorem wb_can (off : Nat) (f : Fld) (b : Bool) (d : Dev) : (wb off f b d).can = d.can := wf_can _ _ _ _
@[simp] theorem wb_scn (off : Nat) (f : Fld) (b : Bool) (d : Dev) : (wb off f b d).scn = d.scn := wf_scn _ _ _ _
@[simp] theorem wb_saf (off : Nat) (f : Fld) (b : Bool) (d : Dev) : (wb off f b d).saf = d.saf := wf_saf _ _ _ _
@[simp] theorem wb_mfp (off : Nat) (f : Fld) (b : Bool) (d : Dev) : (wb off f b d).mfp = d.mfp := wf_mfp _ _ _ _

@[simp] theorem bump_live (off : Nat) (f : Fld) (d : Dev) : (bump off f d).live = d.live := wf_live _ _ _ _
@[simp] theorem bump_staged (off : Nat) (f : Fld) (d : Dev) : (bump off f d).staged = d.staged := wf_staged _ _ _ _
@[simp] theorem bump_half (off : Nat) (f : Fld) (d : Dev) : (bump off f d).half = d.half := wf_half _ _ _ _
@[simp] theorem bump_latch (off : Nat) (f : Fld) (d : Dev) : (bump off f d).latch = d.latch := wf_latch _ _ _ _
@[simp] theorem bump_clash (off : Nat) (f : Fld) (d : Dev) : (bump off f d).clash = d.clash := wf_clash _ _ _ _
@[simp] theorem bump_fns (off : Nat) (f : Fld) (d : Dev) : (bump off f d).fns = d.fns := wf_fns _ _ _ _
@[simp] theorem bump_fcmds (off : Nat) (f : Fld) (d : Dev) : (bump off f d).fcmds = d.fcmds := wf_fcmds _ _ _ _
@[simp] theorem bump_ffaults (off : Nat) (f : Fld) (d : Dev) : (bump off f d).ffaults = d.ffaults := wf_ffaults _ _ _ _
@[simp] theorem bump_fstops (off : Nat) (f : Fld) (d : Dev) : (bump off f d).fstops = d.fstops := wf_fstops _ _ _ _
@[simp] theorem bump_qspi (off : Nat) (f : Fld) (d : Dev) : (bump off f d).qspi = d.qspi := wf_qspi _ _ _ _
@[simp] theorem bump_tb (off : Nat) (f : Fld) (d : Dev) : (bump off f d).tb = d.tb := wf_tb _ _ _ _
@[simp] theorem bump_phase (off : Nat) (f : Fld) (d : Dev) : (bump off f d).phase = d.phase := wf_phase _ _ _ _
@[simp] theorem bump_tick (off : Nat) (f : Fld) (d : Dev) : (bump off f d).tick = d.tick := wf_tick _ _ _ _
@[simp] theorem bump_draws (off : Nat) (f : Fld) (d : Dev) : (bump off f d).draws = d.draws := wf_draws _ _ _ _
@[simp] theorem bump_memq (off : Nat) (f : Fld) (d : Dev) : (bump off f d).memq = d.memq := wf_memq _ _ _ _
@[simp] theorem bump_out (off : Nat) (f : Fld) (d : Dev) : (bump off f d).out = d.out := wf_out _ _ _ _
@[simp] theorem bump_sys (off : Nat) (f : Fld) (d : Dev) : (bump off f d).sys = d.sys := wf_sys _ _ _ _
@[simp] theorem bump_cfg (off : Nat) (f : Fld) (d : Dev) : (bump off f d).cfg = d.cfg := wf_cfg _ _ _ _
@[simp] theorem bump_pwr (off : Nat) (f : Fld) (d : Dev) : (bump off f d).pwr = d.pwr := wf_pwr _ _ _ _
@[simp] theorem bump_evr (off : Nat) (f : Fld) (d : Dev) : (bump off f d).evr = d.evr := wf_evr _ _ _ _
@[simp] theorem bump_hif (off : Nat) (f : Fld) (d : Dev) : (bump off f d).hif = d.hif := wf_hif _ _ _ _
@[simp] theorem bump_tbu (off : Nat) (f : Fld) (d : Dev) : (bump off f d).tbu = d.tbu := wf_tbu _ _ _ _
@[simp] theorem bump_sch (off : Nat) (f : Fld) (d : Dev) : (bump off f d).sch = d.sch := wf_sch _ _ _ _
@[simp] theorem bump_net (off : Nat) (f : Fld) (d : Dev) : (bump off f d).net = d.net := wf_net _ _ _ _
@[simp] theorem bump_cel (off : Nat) (f : Fld) (d : Dev) : (bump off f d).cel = d.cel := wf_cel _ _ _ _
@[simp] theorem bump_wpu (off : Nat) (f : Fld) (d : Dev) : (bump off f d).wpu = d.wpu := wf_wpu _ _ _ _
@[simp] theorem bump_fbk (off : Nat) (f : Fld) (d : Dev) : (bump off f d).fbk = d.fbk := wf_fbk _ _ _ _
@[simp] theorem bump_mpg (off : Nat) (f : Fld) (d : Dev) : (bump off f d).mpg = d.mpg := wf_mpg _ _ _ _
@[simp] theorem bump_stp (off : Nat) (f : Fld) (d : Dev) : (bump off f d).stp = d.stp := wf_stp _ _ _ _
@[simp] theorem bump_lpe (off : Nat) (f : Fld) (d : Dev) : (bump off f d).lpe = d.lpe := wf_lpe _ _ _ _
@[simp] theorem bump_acq (off : Nat) (f : Fld) (d : Dev) : (bump off f d).acq = d.acq := wf_acq _ _ _ _
@[simp] theorem bump_adc (off : Nat) (f : Fld) (d : Dev) : (bump off f d).adc = d.adc := wf_adc _ _ _ _
@[simp] theorem bump_twn (off : Nat) (f : Fld) (d : Dev) : (bump off f d).twn = d.twn := wf_twn _ _ _ _
@[simp] theorem bump_flk (off : Nat) (f : Fld) (d : Dev) : (bump off f d).flk = d.flk := wf_flk _ _ _ _
@[simp] theorem bump_can (off : Nat) (f : Fld) (d : Dev) : (bump off f d).can = d.can := wf_can _ _ _ _
@[simp] theorem bump_scn (off : Nat) (f : Fld) (d : Dev) : (bump off f d).scn = d.scn := wf_scn _ _ _ _
@[simp] theorem bump_saf (off : Nat) (f : Fld) (d : Dev) : (bump off f d).saf = d.saf := wf_saf _ _ _ _
@[simp] theorem bump_mfp (off : Nat) (f : Fld) (d : Dev) : (bump off f d).mfp = d.mfp := wf_mfp _ _ _ _

@[simp] theorem bumpBy_live (off : Nat) (f : Fld) (n : Nat) (d : Dev) : (bumpBy off f n d).live = d.live := wf_live _ _ _ _
@[simp] theorem bumpBy_staged (off : Nat) (f : Fld) (n : Nat) (d : Dev) : (bumpBy off f n d).staged = d.staged := wf_staged _ _ _ _
@[simp] theorem bumpBy_half (off : Nat) (f : Fld) (n : Nat) (d : Dev) : (bumpBy off f n d).half = d.half := wf_half _ _ _ _
@[simp] theorem bumpBy_latch (off : Nat) (f : Fld) (n : Nat) (d : Dev) : (bumpBy off f n d).latch = d.latch := wf_latch _ _ _ _
@[simp] theorem bumpBy_clash (off : Nat) (f : Fld) (n : Nat) (d : Dev) : (bumpBy off f n d).clash = d.clash := wf_clash _ _ _ _
@[simp] theorem bumpBy_fns (off : Nat) (f : Fld) (n : Nat) (d : Dev) : (bumpBy off f n d).fns = d.fns := wf_fns _ _ _ _
@[simp] theorem bumpBy_fcmds (off : Nat) (f : Fld) (n : Nat) (d : Dev) : (bumpBy off f n d).fcmds = d.fcmds := wf_fcmds _ _ _ _
@[simp] theorem bumpBy_ffaults (off : Nat) (f : Fld) (n : Nat) (d : Dev) : (bumpBy off f n d).ffaults = d.ffaults := wf_ffaults _ _ _ _
@[simp] theorem bumpBy_fstops (off : Nat) (f : Fld) (n : Nat) (d : Dev) : (bumpBy off f n d).fstops = d.fstops := wf_fstops _ _ _ _
@[simp] theorem bumpBy_qspi (off : Nat) (f : Fld) (n : Nat) (d : Dev) : (bumpBy off f n d).qspi = d.qspi := wf_qspi _ _ _ _
@[simp] theorem bumpBy_tb (off : Nat) (f : Fld) (n : Nat) (d : Dev) : (bumpBy off f n d).tb = d.tb := wf_tb _ _ _ _
@[simp] theorem bumpBy_phase (off : Nat) (f : Fld) (n : Nat) (d : Dev) : (bumpBy off f n d).phase = d.phase := wf_phase _ _ _ _
@[simp] theorem bumpBy_tick (off : Nat) (f : Fld) (n : Nat) (d : Dev) : (bumpBy off f n d).tick = d.tick := wf_tick _ _ _ _
@[simp] theorem bumpBy_draws (off : Nat) (f : Fld) (n : Nat) (d : Dev) : (bumpBy off f n d).draws = d.draws := wf_draws _ _ _ _
@[simp] theorem bumpBy_memq (off : Nat) (f : Fld) (n : Nat) (d : Dev) : (bumpBy off f n d).memq = d.memq := wf_memq _ _ _ _
@[simp] theorem bumpBy_out (off : Nat) (f : Fld) (n : Nat) (d : Dev) : (bumpBy off f n d).out = d.out := wf_out _ _ _ _
@[simp] theorem bumpBy_sys (off : Nat) (f : Fld) (n : Nat) (d : Dev) : (bumpBy off f n d).sys = d.sys := wf_sys _ _ _ _
@[simp] theorem bumpBy_cfg (off : Nat) (f : Fld) (n : Nat) (d : Dev) : (bumpBy off f n d).cfg = d.cfg := wf_cfg _ _ _ _
@[simp] theorem bumpBy_pwr (off : Nat) (f : Fld) (n : Nat) (d : Dev) : (bumpBy off f n d).pwr = d.pwr := wf_pwr _ _ _ _
@[simp] theorem bumpBy_evr (off : Nat) (f : Fld) (n : Nat) (d : Dev) : (bumpBy off f n d).evr = d.evr := wf_evr _ _ _ _
@[simp] theorem bumpBy_hif (off : Nat) (f : Fld) (n : Nat) (d : Dev) : (bumpBy off f n d).hif = d.hif := wf_hif _ _ _ _
@[simp] theorem bumpBy_tbu (off : Nat) (f : Fld) (n : Nat) (d : Dev) : (bumpBy off f n d).tbu = d.tbu := wf_tbu _ _ _ _
@[simp] theorem bumpBy_sch (off : Nat) (f : Fld) (n : Nat) (d : Dev) : (bumpBy off f n d).sch = d.sch := wf_sch _ _ _ _
@[simp] theorem bumpBy_net (off : Nat) (f : Fld) (n : Nat) (d : Dev) : (bumpBy off f n d).net = d.net := wf_net _ _ _ _
@[simp] theorem bumpBy_cel (off : Nat) (f : Fld) (n : Nat) (d : Dev) : (bumpBy off f n d).cel = d.cel := wf_cel _ _ _ _
@[simp] theorem bumpBy_wpu (off : Nat) (f : Fld) (n : Nat) (d : Dev) : (bumpBy off f n d).wpu = d.wpu := wf_wpu _ _ _ _
@[simp] theorem bumpBy_fbk (off : Nat) (f : Fld) (n : Nat) (d : Dev) : (bumpBy off f n d).fbk = d.fbk := wf_fbk _ _ _ _
@[simp] theorem bumpBy_mpg (off : Nat) (f : Fld) (n : Nat) (d : Dev) : (bumpBy off f n d).mpg = d.mpg := wf_mpg _ _ _ _
@[simp] theorem bumpBy_stp (off : Nat) (f : Fld) (n : Nat) (d : Dev) : (bumpBy off f n d).stp = d.stp := wf_stp _ _ _ _
@[simp] theorem bumpBy_lpe (off : Nat) (f : Fld) (n : Nat) (d : Dev) : (bumpBy off f n d).lpe = d.lpe := wf_lpe _ _ _ _
@[simp] theorem bumpBy_acq (off : Nat) (f : Fld) (n : Nat) (d : Dev) : (bumpBy off f n d).acq = d.acq := wf_acq _ _ _ _
@[simp] theorem bumpBy_adc (off : Nat) (f : Fld) (n : Nat) (d : Dev) : (bumpBy off f n d).adc = d.adc := wf_adc _ _ _ _
@[simp] theorem bumpBy_twn (off : Nat) (f : Fld) (n : Nat) (d : Dev) : (bumpBy off f n d).twn = d.twn := wf_twn _ _ _ _
@[simp] theorem bumpBy_flk (off : Nat) (f : Fld) (n : Nat) (d : Dev) : (bumpBy off f n d).flk = d.flk := wf_flk _ _ _ _
@[simp] theorem bumpBy_can (off : Nat) (f : Fld) (n : Nat) (d : Dev) : (bumpBy off f n d).can = d.can := wf_can _ _ _ _
@[simp] theorem bumpBy_scn (off : Nat) (f : Fld) (n : Nat) (d : Dev) : (bumpBy off f n d).scn = d.scn := wf_scn _ _ _ _
@[simp] theorem bumpBy_saf (off : Nat) (f : Fld) (n : Nat) (d : Dev) : (bumpBy off f n d).saf = d.saf := wf_saf _ _ _ _
@[simp] theorem bumpBy_mfp (off : Nat) (f : Fld) (n : Nat) (d : Dev) : (bumpBy off f n d).mfp = d.mfp := wf_mfp _ _ _ _

end Sys2Proof.Machine
end

