-- ==== Sys2Proof/Laws/Regs.lean ====
section
/-! SUPPORT. Laws of the register map: a register is read back as it was written, a write to one register leaves the others alone;
what a whole write by a master comes to. -/
namespace Sys2Proof.Machine
open Sys2Proof Sys2Proof.Reg

@[simp] theorem rd_wr_same (d : Dev) (off : Nat) (v : Word) : rd (wr off v d) off = v := by
  by_cases h : v = resetVal off <;> simp [rd, wr, h]

theorem rd_wr_other (d : Dev) {off j : Nat} (v : Word) (h : j ≠ off) : rd (wr off v d) j = rd d j := by
  by_cases e : v = resetVal off <;> simp [rd, wr, e, smGet_smDel_other _ h, smGet_smPut_other _ _ h]

@[simp] theorem rd_wf_same (d : Dev) (off : Nat) (f : Fld) (n : Nat) : rd (wf off f n d) off = fset (rd d off) f n := rd_wr_same _ _ _

theorem rd_wf_other (d : Dev) {off j : Nat} (f : Fld) (n : Nat) (h : j ≠ off) : rd (wf off f n d) j = rd d j := by
  simp only [wf, rd_wr_other _ _ h, rd_noteSet]

theorem rf_wf_same (d : Dev) (off : Nat) (f : Fld) (n : Nat) (h : f.lo ≤ f.hi) (h32 : f.hi < 32) :
    rf (wf off f n d) off f = n % 2 ^ f.width := by simp only [rf, rd_wf_same, fget_fset _ _ _ h h32]

/-- `rd` depends on nothing but the register map. -/
theorem rd_congr {d e : Dev} (h : d.regs = e.regs) (off : Nat) : rd d off = rd e off := by simp only [rd, h]

theorem liveRaw_wrLive_same (d : Dev) (off : Nat) (v : Word) : liveRaw (wrLive off v d) off = v := by
  by_cases h : v = resetVal off <;> simp [liveRaw, wrLive, h]

theorem liveRaw_wrLive_other (d : Dev) {off j : Nat} (v : Word) (h : j ≠ off) : liveRaw (wrLive off v d) j = liveRaw d j := by
  by_cases e : v = resetVal off <;> simp [liveRaw, wrLive, e, smGet_smDel_other _ h, smGet_smPut_other _ _ h]

/-! ### What a whole write comes to -/

/-- A whole write to a register that exists and that no rule keeps from the master. -/
theorem regPut_row (mem : Memory) (m : Master) (off : Nat) (v : Word) (d : Dev) (r : RegDesc) (h4 : off % 4 = 0) (hlt : off < 0x80000)
    (hs : off < 0x38000 ∨ 0x3A000 ≤ off) (hw : off < 0x35000 ∨ 0x36000 ≤ off) (hk : shadowKeeps (touched m off d) m off v = false)
    (hr : findRow off = some r) (hu : (writeRow mem m off v r (touched m off d)).2 ≠ some .unmapped) :
    regPut mem m off v d = mirrored (touched m off d) off v (writeRow mem m off v r (touched m off d)).1 := by
  simp only [regPut, regWrite, Bool.not_true, Bool.false_or, Bool.not_false, Bool.true_and]
  rw [if_neg (by simp [h4]), if_neg (by omega), if_neg (by simp [hk]), if_neg (by omega)]
  simp only [hr]

/-- A register that its block takes as a whole. -/
theorem writeRow_whole (mem : Memory) (m : Master) (off : Nat) (v : Word) (r : RegDesc) (d d1 : Dev)
    (h : wholeWrite off v r d = some (d1, false)) : writeRow mem m off v r d = (d1, none) := by
  simp only [writeRow, h, Bool.false_eq_true, if_false]

/-- A register that takes a write field by field, with what the write starts. -/
theorem writeRow_fields (mem : Memory) (m : Master) (off : Nat) (v : Word) (r : RegDesc) (d d1 : Dev) (h : wholeWrite off v r d = none)
    (hp : putReg off v r d = (d1, false)) (ht : off ≠ TB_CTRL) :
    writeRow mem m off v r d = (regEffect mem m off v (rd d off) (slavePort d).isSome d1, none) := by
  simp only [writeRow, h, hp, Bool.false_eq_true, if_false, if_neg ht]

/-- Registers that hold no value of their own, at which a write does nothing but start what `regEffect` says: command registers
beside those that a block takes as a whole. -/
def commandReg (off : Nat) : Bool :=
  off % 4 == 0 && decide (off < 0x80000) && !(decide (0x38000 ≤ off) && decide (off < 0x3A000)) &&
  !(decide (0x35000 ≤ off) && decide (off < 0x36000)) &&
  (match findRow off with | some r => r.fields.all (fun f => f.acc == .ro || f.acc == .wo) | none => false) &&
  (fnAt off).isNone && !(decide (0x5000 ≤ off) && decide (off < 0x6000) && (decide (off % 0x40 < 0x14) || decide (off % 0x40 = 0x20))) &&
  off != TB_TICK_CFG && off != TB_ADDEND_LO && off != TB_ADDEND_HI && off != TB_CTRL && !(decide (0x8100 ≤ off) && decide (off < 0x8180)) &&
  !canWhole off && !(decide (0x2D200 ≤ off) && decide (off < 0x2D214)) &&
  !(decide (0x2E000 ≤ off) && decide (off < 0x30000) && off % 0x400 == 0x14) &&
  !(decide (0x34100 ≤ off) && decide (off < 0x34300)) && !(decide (0x3E000 ≤ off) && decide (off < 0x3E480)) &&
  (highOf off).isNone && (lowOf off).isNone && !isStaged off

theorem putFields_keeps (d : Dev) (off : Nat) (old v : Word) (fs : List FieldDesc) (b : Bool)
    (h : fs.all (fun f => f.acc == .ro || f.acc == .wo) = true) : fs.foldl (putField d off v) (old, b) = (old, b) := by
  induction fs with
  | nil => rfl
  | cons f t ih =>
    simp only [List.all_cons, Bool.and_eq_true] at h
    have hf : putField d off v (old, b) f = (old, b) := by
      rcases hacc : f.acc <;> simp [hacc, putField] at h ⊢
    simp only [List.foldl_cons, hf, ih h.2]

/-- What a write to a command register comes to. -/
theorem regPut_command (mem : Memory) (m : Master) (off : Nat) (v : Word) (d : Dev) (h : commandReg off = true)
    (hk : shadowKeeps (touched m off d) m off v = false) :
    regPut mem m off v d = mirrored (touched m off d) off v
      (regEffect mem m off v (rd (touched m off d) off) (slavePort (touched m off d)).isSome (touched m off d)) := by
  simp only [commandReg, Bool.and_eq_true, Bool.not_eq_true', Bool.and_eq_false_iff, Bool.or_eq_false_iff, beq_iff_eq, bne_iff_ne, ne_eq,
    decide_eq_true_eq, decide_eq_false_iff_not, Option.isNone_iff_eq_none, beq_eq_false_iff_ne] at h
  obtain ⟨⟨⟨⟨⟨⟨⟨⟨⟨⟨⟨⟨⟨⟨⟨⟨⟨⟨⟨h4, hlt⟩, hs⟩, hw⟩, hrow⟩, hfn⟩, hring⟩, htc⟩, hal⟩, hah⟩, htb⟩, hpul⟩, hcan⟩, htd⟩, hacq⟩, hfor⟩, hpin⟩, hhi⟩, hlo⟩, hst⟩ := h
  cases hr : findRow off with
  | none => simp [hr] at hrow
  | some r =>
    simp only [hr] at hrow
    have hput : putReg off v r (touched m off d) = (touched m off d, false) := by
      simp only [putReg, hhi, putFields, putFields_keeps _ _ _ _ _ _ hrow, Option.isSome_none, Bool.false_and, Bool.false_eq_true, if_false, if_true, hlo, hst]
    have hwhole : wholeWrite off v r (touched m off d) = none := by
      have hrk : ringKeeps (touched m off d) off = false := by
        simp only [ringKeeps]
        split
        · next hx => 
          rcases hring with hring | hring
          · omega
          · rw [if_neg hring.1, if_neg hring.2]
        · rfl
      simp only [wholeWrite, hfn, hrk, Bool.false_eq_true, if_false, htc, false_and, hal, hah, or_self, hcan]
      rw [if_neg (by omega), if_neg (by omega), if_neg (by omega), if_neg (by omega), if_neg (by omega)]
    have hrow := writeRow_fields mem m off v r _ _ hwhole hput htb
    rw [regPut_row mem m off v d r h4 hlt (by omega) (by omega) hk hr (by rw [hrow]; simp), hrow]

end Sys2Proof.Machine
end

