-- ==== Sys2Proof/Laws/Run.lean ====
section
/-! SUPPORT. Laws of what every command has in common: what waits comes about, memory takes what was asked for. -/
namespace Sys2Proof.Machine
open Sys2Proof

/-- A loop whose body changes nothing changes nothing. -/
theorem forEach_same {α : Type} (xs : List α) (f : α → Dev → Dev) (d : Dev) (h : ∀ x ∈ xs, f x d = d) : forEach xs f d = d := by
  induction xs with
  | nil => rfl
  | cons x t ih =>
    simp only [forEach, List.foldl_cons] at ih ⊢
    rw [h x (by simp)]
    exact ih fun y hy => h y (by simp [hy])

theorem forUpTo_same (n : Nat) (f : Nat → Dev → Dev) (d : Dev) (h : ∀ i, i < n → f i d = d) : forUpTo n f d = d :=
  forEach_same _ _ _ fun i hi => h i (List.mem_range.1 hi)

theorem same_look (d : Dev) (l : List Nat) (h : d.wpu.look = l) : { d with wpu := { d.wpu with look := l } } = d := by subst h; rfl

theorem same_recs (d : Dev) (l : List BarRec) (h : d.wpu.recs = l) : { d with wpu := { d.wpu with recs := l } } = d := by subst h; rfl

theorem same_wrRefused (d : Dev) (b : Bool) (h : d.hif.wrRefused = b) : { d with hif := { d.hif with wrRefused := b } } = d := by
  subst h; rfl

/-- A ring whose next descriptor is none that is refused at once stays as it is. -/
theorem ringPump_same (r : Nat) (d : Dev) (h : ∀ e, startable d r = some e → descRefused (ringSource d r) e.desc = none) :
    ringPump r d = d := by
  simp only [ringPump]
  cases (getRing d r).q.length with
  | zero => rfl
  | succ n =>
    simp only [pumpBad]
    split
    · rfl
    · next e he => simp only [h e he]

/-- In a device in which nothing waits nothing comes about. -/
theorem settle_quiet (mem : Memory) (d : Dev) (q : Quiet d) : settle mem d = d := by
  have h1 : (if clocked d then scnSync d else d) = d := by simp [scnSync, scnSyncTo, q.scan]
  have h2 : acqBarRecs (looks d) = d := by
    have a : looks d = d := by simp only [looks, q.looks, forEach, List.foldl_nil, same_look _ _ q.looks]
    rw [a]
    simp only [acqBarRecs, q.barRecs, forEach, List.foldl_nil, same_recs _ _ q.barRecs]
  have hs : acqSettle d = d := forUpTo_same _ _ _ fun u hu => by simp [q.acqWaits u hu]
  have h3 : issueReleases mem 20000 d = d := by simp [issueReleases, q.releases]
  have hw : schWaits d = d := by
    simp only [schWaits]
    rw [if_neg]; simpa [List.any_eq_false] using q.spawns
  have h4 : acqRings d = d := forUpTo_same _ _ _ fun u hu => by simp [q.acqRecs u hu]
  have h5 : forUpTo 4 (fun k d => canDrain ((getCan d k).fifo.length) k d) d = d :=
    forUpTo_same _ _ _ fun k hk => by simp [q.canRecs k hk, canDrain]
  have h6 : eddyDrain (d.sch.eddy.length) d = d := by simp [q.eddy, eddyDrain]
  have h7 : fencesSettle d = d := forEach_same _ _ _ fun r _ => by
    rw [forEach_same (getRing d r).q _ d fun e he => by simp [fenceStep, q.waits r e he]]
    exact ringPump_same r d fun e he => q.refused r e he
  have h8 : cfgWaits d = d := forEach_same _ _ _ fun r _ => forEach_same _ _ _ fun e he => by
    simp [cfgWaitStep, q.waits r e he]
  have h9 : evrCapture readValue d = d := by simp [evrCapture, q.triggers, q.clear]
  simp only [settle, h1, h2, hs, h3, hw, h4, h5, h6, h7, h8, h9]

/-- Memory keeps its canonical form through what a device asks for. -/
theorem wf_applyMem (ops : List MemOp) (m : Memory) (h : Memory.wf m = true) : Memory.wf (applyMem ops m) = true := by
  induction ops generalizing m with
  | nil => exact h
  | cons o t ih =>
    simp only [applyMem, List.foldl_cons] at ih ⊢
    cases o with
    | write a bs => exact ih _ (wf_memWriteN _ _ _ h)
    | clearSram => exact ih _ (wf_memClearSram _ h)

@[simp] theorem after_pending (s : State) (d : Dev) : (s.after d).pending = s.pending := by simp only [State.after]
@[simp] theorem after_memq (s : State) (d : Dev) : (s.after d).dev.memq = [] := by simp only [State.after]
@[simp] theorem after_wrRefused (s : State) (d : Dev) : (s.after d).dev.hif.wrRefused = false := by simp only [State.after]

theorem after_wf (s : State) (d : Dev) (h : Memory.wf s.mem = true) : Memory.wf (s.after d).mem = true := by
  simp only [State.after]; exact wf_applyMem _ _ h

/-- Whatever a command does to its device, the invariant holds after it. -/
theorem after_inv (s : State) (d : Dev) (h : s.Inv) : (s.after d).Inv :=
  ⟨after_wf s d h.memory, after_memq s d, after_wrRefused s d⟩

/-- A quiet device is what the command made of it. -/
theorem after_quiet (s : State) (d : Dev) (q : Quiet d) :
    s.after d = { s with dev := { d with memq := [], hif := { d.hif with wrRefused := false } }, mem := applyMem d.memq s.mem } := by
  simp only [State.after, settle_quiet s.mem d q]

/-- A command that the host's answers do not concern starts with no set of hardware noted for its clock (R16). -/
theorem hostHears_true (d : Dev) (h : d.hif.wrRefused = false) : hostHears true d = { d with sets := [], clash := [] } := by
  simp only [hostHears, Bool.not_true]
  exact congrArg (fun e : Dev => { e with sets := [], clash := [] }) (same_wrRefused d false h)

@[simp] theorem clocked_hostHears (acc : Bool) (d : Dev) : clocked (hostHears acc d) = clocked d := rfl

@[simp] theorem awake_hostHears (acc : Bool) (d : Dev) : awake (hostHears acc d) = awake d := rfl

@[simp] theorem rd_hostHears (acc : Bool) (d : Dev) (off : Nat) : rd (hostHears acc d) off = rd d off := rfl

theorem runHost_true (f : Memory → Dev → Dev) (s : State) (h : s.Inv) :
    s.runHost true f = s.after (f s.mem { s.dev with sets := [], clash := [] }) := by
  simp only [State.runHost, hostHears_true _ h.noRefusal]

end Sys2Proof.Machine
end

