-- ==== Sys2Proof/WellFormed.lean ====
section
/-! DEFINITION. Which commands are well formed: their operands lie in the ranges that the spec gives them. Ranges that an operand's
type shows are not repeated. -/
namespace Sys2Proof
open Sys2Proof.Machine

/-- A received Celivo frame comes with the command of its class; one of no row (a SETPOINT, a CLASS that R193 discards) with any. -/
def celClass (cls : Nat) (f : CelFrame) : Bool := decide (f.cls < 16) && (f.cls == cls || f.cls == 0 || f.cls == 4 || decide (8 < f.cls))

/-- The ranges of a command's operands. -/
def Instr.wf : Instr → Bool
  | .registerWrite _ off _ _ => decide (off < 0x100000)
  | .readClear _ off => (findRow off).any (fun r => r.fields.any (fun f => f.acc == .rc))
  | .lowWordRead _ off => (highOf off).isSome
  | .sysSyncRead _ => true
  | .memoryAccess m _ q ⟨_, w, pads⟩ => (q.len == 1 || q.len == 2 || q.len == 4 || (q.len == 8 && m == .host)) && (w == .map || m == .host) && pads.all (fun p => decide (p.1 < 288))
  | .fenceInstruction _ pred succ => decide (pred < 16) && decide (succ < 16)
  | .fenceTso _ => true
  | .fenceI _ => true
  | .tickStart => true
  | .computeStart _ => true
  | .commitInstant => true
  | .mfpPinWrite _ _ _ => true
  | .vddioLevelChange _ _ _ => true
  | .perstNAssert _ => true
  | .powerOnReset _ _ => true
  | .supplySupervisorTrip _ => true
  | .resetPin _ => true
  | .cold _ _ => true
  | .warm _ _ => true
  | .softwareResetStart => true
  | .oscillatorLock _ => true
  | .unitReady _ _ _ => true
  | .enable _ x => isFn x
  | .disable _ x => isFn x
  | .clearFault _ x => isFn x
  | .load _ => true
  | .arm _ => true
  | .disarm _ => true
  | .disarmNow _ => true
  | .store _ => true
  | .loadMram _ => true
  | .loadQspi _ => true
  | .eraseStore _ => true
  | .draftSync _ => true
  | .imageLoadEnd => true
  | .armChecksEnd => true
  | .storeComplete => true
  | .eraseStoreComplete => true
  | .draftSyncComplete => true
  | .bootAction => true
  | .request _ _ => true
  | .swapCancel _ _ => true
  | .swapChecksEnd => true
  | .swapTimeout => true
  | .flr => true
  | .linkLost _ => true
  | .busMasterEnableChange _ _ _ _ => true
  | .sqTail _ _ _ => true
  | .cqHead _ _ _ => true
  | .descriptorFetch _ _ _ => true
  | .nop _ _ => true
  | .regWriteList _ _ _ => true
  | .regReadList _ _ _ => true
  | .memWrite _ _ _ => true
  | .memRead _ _ _ => true
  | .fence _ _ => true
  | .cfgCmd _ _ => true
  | .workSubmit _ _ _ => true
  | .rxBuffer _ _ => true
  | .ethTx _ _ _ => true
  | .partialBufferFlush _ _ => true
  | .mgmtFrameReceive bytes _ _ => decide (14 ≤ bytes.length)
  | .coalescingTimeout _ => true
  | .msixVectorUnmask _ _ => true
  | .ringEnable _ _ _ => true
  | .ringDisable _ _ _ => true
  | .ringResume _ _ _ => true
  | .ringReset _ _ _ => true
  | .sqHeadWrite _ _ _ => true
  | .ringConfigWrite _ off _ => decide (0x5000 ≤ off ∧ off < 0x6000) && decide (off % 0x40 < 0x14)
  | .step _ _ => true
  | .tickPeriodWrite _ _ => true
  | .addendWrite _ _ _ => true
  | .sync _ _ _ _ => true
  | .syncTimeout => true
  | .followUp _ _ _ _ => true
  | .delayReq _ _ _ _ => true
  | .delayResp _ _ _ _ => true
  | .pdelayReq _ _ _ _ => true
  | .pdelayResp _ _ _ _ => true
  | .pdelayRespFollowUp _ _ _ _ => true
  | .syncIntervalExpiry _ _ => true
  | .pdelayIntervalExpiry _ _ => true
  | .frameIngress _ f _ => decide (f.dst < 2 ^ 48) && decide (f.src < 2 ^ 48) && f.tag.all (fun t => decide (t < 65536))
  | .macAgeing => true
  | .gateEntryChange _ => true
  | .masterPos f _ => celClass 1 f
  | .lineState f _ => celClass 2 f
  | .stopReq f _ => celClass 3 f
  | .release f _ => celClass 3 f
  | .driveStatus f _ => celClass 5 f
  | .joinReq f _ => celClass 6 f
  | .joinOffer f _ => celClass 7 f
  | .joinAck f _ => celClass 8 f
  | .stationLost _ => true
  | .issue _ _ => true
  | .releaseOwn _ _ => true
  | .forceReleaseAll _ _ => true
  | .stopReqRepeat reqId => decide (reqId < 65536)
  | .driveLost _ => true
  | .join _ _ => true
  | .forceJoin _ _ => true
  | .leave _ _ => true
  | .autojoin => true
  | .joinReqTimeout => true
  | .joinAckTimeout joiner => decide (joiner < 65536)
  | .joinAtReached => true
  | .encoderStandstill _ _ => true
  | .useA _ _ => true
  | .useB _ _ => true
  | .positionEventReached _ _ => true
  | .printBarFire _ _ => true
  | .firePulseEnd _ => true
  | .apply _ _ => true
  | .cancel _ _ => true
  | .delayLineCalibration _ => true
  | .quadratureEdge _ _ _ _ => true
  | .hallTransition _ _ _ => true
  | .indexQualified _ _ _ => true
  | .armHome _ _ => true
  | .cancelHome _ _ => true
  | .setCount _ _ => true
  | .ssiFrameStart _ _ => true
  | .ssiFrameEnd _ _ _ _ => true
  | .emuStep _ => true
  | .continueMotion _ _ => true
  | .halt _ _ => true
  | .setPos _ _ => true
  | .streamStale _ => true
  | .stepPulse _ => true
  | .offPhaseEnd _ _ => true
  | .setEpos _ _ _ => true
  | .pwmReload _ => true
  | .cmpWrite _ _ _ => true
  | .pwmFaultInput _ _ _ => true
  | .resetSup _ _ _ => true
  | .trigger _ _ _ => true
  | .rearm _ _ _ => true
  | .traceConfigWrite _ off _ => decide (0x28200 ≤ off ∧ off < 0x28400) && (off % 0x20 == 0 || off % 0x20 == 4)
  | .sarConversionStart _ _ => true
  | .sarConversionComplete _ _ _ _ => true
  | .pwmTriggerInstant _ _ => true
  | .start _ _ _ => true
  | .sdResult _ _ _ _ => true
  | .referenceError _ _ => true
  | .referenceRecovery _ _ => true
  | .testDacWrite _ _ _ => true
  | .cal _ _ => true
  | .calibrationComplete => true
  | .windowBound _ _ _ _ => true
  | .acqTimerExpiry _ _ _ => true
  | .force _ _ _ => true
  | .acqRearm _ _ _ => true
  | .run _ _ _ => true
  | .stop _ _ _ => true
  | .rptrWrite _ _ _ => true
  | .machineTimerInterrupt _ => true
  | .machineSoftwareInterrupt _ _ _ => true
  | .coreRelease _ _ _ => true
  | .coreHalt _ _ _ => true
  | .abortItem _ _ _ => true
  | .lockstepMismatch _ _ _ => true
  | .submit _ _ _ _ => true
  | .schCancel _ _ _ => true
  | .operandPost _ _ => true
  | .postKey _ _ => true
  | .operandAgeExpiry => true
  | .releasePoint _ => true
  | .dispatch _ _ => true
  | .curRead _ _ => true
  | .done _ _ _ _ => true
  | .relqDataWrite _ _ _ => true
  | .flowResume _ _ _ _ => true
  | .flowFlush _ _ _ _ => true
  | .budgetWindowEnd _ => true
  | .scanCycleStart _ => true
  | .snapshotWriteComplete => true
  | .forceWrite _ _ _ _ => true
  | .scanWindowWrite _ off _ => decide (0x35000 ≤ off ∧ off < 0x36000) && off % 4 == 0
  | .fieldLinkFrameStart _ => true
  | .upstreamBlock _ _ _ _ => true
  | .frameClose _ => true
  | .lineBreak _ _ => true
  | .clear _ _ _ => true
  | .resend _ _ _ => true
  | .canCtrlWrite _ _ _ => true
  | .canFrameReceive _ id _ _ _ data _ _ => decide (id < 2 ^ 31) && decide (data.length ≤ 64)
  | .canStartOfFrame _ _ => true
  | .txOk _ _ _ _ _ => true
  | .canErrorFrame _ _ _ _ _ _ => true
  | .busOff _ _ => true
  | .busOffRecoveryEnd _ _ => true
  | .req _ _ _ => true
  | .canCancel _ _ _ => true
  | .bor _ _ => true
  | .channelAEvaluation _ => true
  | .channelBEvaluation _ => true
  | .squallWindowEnd => true
  | .standstillHoldEnd => true
  | .outputTest _ _ => true
  | .safetySupplyFault => true
  | .channelDead _ => true
  | .hello _ => true
  | .state tick _ _ _ => decide (tick < 2 ^ 32)
  | .write off _ tick => decide (off < 0x80000) && decide (tick < 2 ^ 32)
  | .fault _ => true
  | .handoverFrame tick token => decide (tick < 2 ^ 32) && decide (token < 256)
  | .handoverAck tick => decide (tick < 2 ^ 32)
  | .syncFrame _ => true
  | .scanCrc _ _ => true
  | .lanesLost _ => true
  | .laneLoss _ _ => true
  | .twnHandover _ => true
  | .resync _ => true
  | .pwrRequest _ _ => true
  | .exit _ _ => true
  | .lowPowerEntry _ => true
  | .wakeIn _ _ => true
  | .alarm _ => true
  | .temperatureReading ts => ts.length == 8
  | .thermalShutdownRelease ts => ts.length == 8
  | .operatingTimeSave => true
  | .recordWrite _ => true
  | .manual _ _ => true
  | .rdSeqWrite _ _ => true
  | .evrClear _ => true
  | .setAuth _ => true
  | .eraseComplete => true
  | .tbPulseEdge _ => true
  | .tbPulseEnd _ => true
  | .captureEdge _ _ _ => true
  | .tsHiRead _ _ => true
  | .refEdge _ => true
  | .deadTimeEnd _ _ => true
  | .linkUp _ _ => true
  | .perstNDeassert _ => true
  | .portLinkChange _ _ _ => true
  | .symbolLock _ _ => true

end Sys2Proof
end

