-- ==== Sys2Proof/Tests/Slice0.lean ====
section
/-! SUPPORT. Tests: ill-formed commands are refused, small steps from small states, and for every statement a state and operands that
meet its hypotheses. The expected values come from the rules that the comments name. -/
namespace Sys2Proof.Tests
open Sys2Proof Sys2Proof.Machine Sys2Proof.Reg
set_option Elab.async false

/-- The machine after reset with every unit ready: TB time runs from 0. -/
def base : State := { State.reset with dev := wr SYS_READY 0x7FFFFF#32 State.reset.dev }

/-- That machine with its device changed. -/
def on (f : Dev → Dev) : State := { base with dev := f base.dev }

/-- The device after a command that goes on; the device before for one that stops. -/
def run (c : Instr) (s : State) : Dev := match exec c s with | .next t => t.dev | _ => s.dev

/-! ### Well-formed commands -/

theorem test_ill_formed : [
    Instr.registerWrite ⟨.host, false⟩ 0x100000 0 true, .readClear ⟨.host, false⟩ 0x10, .lowWordRead .host 0x10, .memoryAccess .host 0x20000000 (.read 3) ⟨.good, .map, []⟩,
    .memoryAccess .debug 0 (.read 4) ⟨.good, .bar2, []⟩, .memoryAccess (.core 0) 0 (.read 8) ⟨.good, .map, []⟩, .memoryAccess .host 0 (.read 4) ⟨.good, .map, [(288, none, 0)]⟩, .joinAck { (default : CelFrame) with cls := 7 } 0,
    .fenceInstruction 0 16 0, .fenceInstruction 0 0 16, .enable .host 0x38, .disable .host 0x509, .clearFault .host 0x528,
    .mgmtFrameReceive [0, 1, 2] true 0, .ringConfigWrite .host 0x4FFC 0, .ringConfigWrite .host 0x5014 0,
    .frameIngress 0 ⟨2 ^ 48, 0, none, 0, [], true⟩ 0, .frameIngress 0 ⟨0, 2 ^ 48, none, 0, [], true⟩ 0,
    .frameIngress 0 ⟨0, 0, some 65536, 0, [], true⟩ 0,
    .stopReqRepeat 65536, .joinAckTimeout 65536, .traceConfigWrite .host 0x28400 0, .traceConfigWrite .host 0x28208 0,
    .scanWindowWrite .host 0x36000 0, .scanWindowWrite .host 0x35002 0, .canFrameReceive 0 (2 ^ 31) 0 0 0 [] 0 true,
    .canFrameReceive 0 0 0 0 0 (List.replicate 65 0) 0 true, .state (2 ^ 32) 0 true [], .write 0x80000 0 0, .write 0 0 (2 ^ 32), .masterPos { (default : CelFrame) with cls := 16 } 0,
    .handoverFrame (2 ^ 32) 0, .handoverFrame 0 256, .handoverAck (2 ^ 32), .temperatureReading [0], .thermalShutdownRelease [0]].all
    (fun c => !c.wf) = true := by decide +kernel

theorem test_well_formed : [
    Instr.registerWrite ⟨.host, true⟩ 0xFFFFC 0 true, .memoryAccess .host 0x20000000 (.read 8) ⟨.good, .map, []⟩, .readClear ⟨.host, true⟩ (CAN_CNT 0), .lowWordRead .host TB_TIME_LO, .memoryAccess .host 0x20000000 (.read 4) ⟨.good, .config, [(287, none, 0)]⟩,
    .joinAck { (default : CelFrame) with cls := 8 } 0, .joinAck { (default : CelFrame) with cls := 4 } 0, .masterPos { (default : CelFrame) with cls := 15 } 0,
    .fenceInstruction 0 15 15, .enable .host 0x37, .disable .host 0x508, .clearFault .host 0x527,
    .mgmtFrameReceive (List.replicate 14 0) true 0, .ringConfigWrite .host 0x5FD0 0, .frameIngress 2 ⟨2 ^ 48 - 1, 2 ^ 48 - 1, some 65535, 0, [], true⟩ 0,
    .stopReqRepeat 65535, .joinAckTimeout 65535, .traceConfigWrite .host 0x283E4 0, .scanWindowWrite .host 0x35FFC 0,
    .canFrameReceive 0 (2 ^ 31 - 1) 0 0 0 (List.replicate 64 0) 0 true, .state (2 ^ 32 - 1) 0 true [], .write 0x7FFFC 0 0,
    .handoverFrame 0 255, .handoverAck 0, .temperatureReading (List.replicate 8 0)].all Instr.wf = true := by decide +kernel

/-! ### What the statements of steps, queue and memory suppose -/

theorem test_base_acts : clocked base.dev = true ∧ awake base.dev = true ∧ tbRuns base.dev = true ∧ base.pending = [] ∧
    [Master.host, .debug, .boot, .core 15].all (fun m => masterActs m base.dev) = true := by decide +kernel

theorem test_base_inv : base.Inv := ⟨by decide, by decide, by decide⟩

/-- Every hypothesis `Lets` of a statement about a write is met: from reset no device is a shadow. -/
theorem test_lets (m : Master) (off : Nat) (v : Word) (acc : Bool) : Lets m off v acc base := by
  have hr : reached m off acc base = hostHears acc base.dev := by
    have hg : (hostHears acc base.dev).pwr.state = .gale := rfl
    cases m <;> simp [reached, touched, hostTouches, hg]
  have ht : twnIncluded (hostHears acc base.dev) = false := by cases acc <;> decide +kernel
  refine ⟨?_, by simp only [shadowKeeps, hr, ht, Bool.false_and]⟩
  cases m <;> rfl

theorem test_a_step_answers : ∃ t, Machine.step State.reset = .next t := ⟨_, rfl⟩

theorem test_memory_access_finds_memory : placeOf base.dev .host 0x80000 4 ≠ .none ∧ placeOf base.dev (.core 0) 0x20000000 1 ≠ .none := by decide +kernel

theorem test_writes_outside (b : Nat) (bs : List Byte) (h : MemOp.write b bs ∈ [MemOp.write 4 [1, 2]]) :
    (3 < b ∨ b + bs.length ≤ 3) ∧ (6 < b ∨ b + bs.length ≤ 6) := by
  simp only [List.mem_singleton, MemOp.write.injEq] at h
  obtain ⟨rfl, rfl⟩ := h
  decide

theorem test_quiet : Quiet base.dev where
  scan := rfl
  looks := rfl
  barRecs := rfl
  releases := rfl
  spawns := fun _ h => by cases h
  acqWaits := fun _ _ => rfl
  acqRecs := fun _ _ => rfl
  canRecs := fun _ _ => rfl
  eddy := rfl
  triggers := rfl
  clear := rfl
  waits := fun _ _ h => by cases h
  refused := fun r _ h => by
    have hn : startable base.dev r = none := by
      unfold startable
      split <;> rfl
    rw [hn] at h
    cases h

/-! ### Registers and memory -/

theorem test_every_access_code : [(SYS_RST_CTRL, Acc.wo), (SYS_READY, .ro), (CAN_CTRL 0, .rw), (CAN_STAT 0, .w1c), (CAN_CNT 0, .rc), (FLK_PORT_CFG 0, .rwl),
    (NET_PORT_CFG 0, .rwd)].all (fun e => match findRow e.1 with | some r => r.fields.any (fun f => f.acc == e.2) | none => false) = true := by
  decide +kernel

theorem test_refused_writes : findRow 0x34FFC = none ∧ 0x34FFC % 4 = 0 ∧ shadowKeeps (reached .host 0x34FFC true base) .host 0x34FFC 0 = false ∧
    rb base.dev SYS_ACCESS_ADDR SYS_ACCESS_ADDR_VALID = false ∧
    rb (accessErr .unmapped .host 0x34FFC base.dev) SYS_ACCESS_ADDR SYS_ACCESS_ADDR_VALID = true := by decide +kernel

/-- R13, R16: an unmapped write by the host is captured with its offset. -/
theorem test_unmapped_write : rd (run (.registerWrite ⟨.host, false⟩ 0x34FFC 5 true) base) SYS_ACCESS_ERR = 1#32 ∨
    rb (run (.registerWrite ⟨.host, false⟩ 0x34FFC 5 true) base) SYS_ACCESS_ADDR SYS_ACCESS_ADDR_VALID = true := by decide +kernel

theorem test_plain_register : 0x30010 % 4 = 0 ∧ (findRow SCH_POST_VAL).isSome = true ∧
    (∀ r, findRow SCH_POST_VAL = some r → wholeWrite SCH_POST_VAL 7 r (reached .host SCH_POST_VAL true base) = none ∧
      (putFields (reached .host SCH_POST_VAL true base) SCH_POST_VAL (rd (reached .host SCH_POST_VAL true base) SCH_POST_VAL) 7 r).2 = false) ∧
    highOf SCH_POST_VAL = none ∧ lowOf SCH_POST_VAL = none ∧ isStaged SCH_POST_VAL = false ∧ SCH_POST_VAL ≠ TB_CTRL ∧ SCH_POST_VAL < 0x35000 ∧
    (∀ mem m v d old b, regEffect mem m SCH_POST_VAL v old b d = d) := by
  refine ⟨by decide, by decide +kernel, ?_, by decide +kernel, by decide +kernel, by decide +kernel, by decide, by decide, fun _ _ _ _ _ _ => rfl⟩
  intro r hr
  have : r = (findRow SCH_POST_VAL).getD default := by rw [hr]; rfl
  subst this
  exact ⟨by decide +kernel, by decide +kernel⟩

/-- R14: RW takes the value written. -/
theorem test_register_write : rd (run (.registerWrite ⟨.host, false⟩ SCH_POST_VAL 7 true) base) SCH_POST_VAL = 7#32 := by decide +kernel

theorem test_low_word : highOf TB_SET_LO = some TB_SET_HI ∧ (findRow TB_SET_LO).isSome = true ∧ (findRow TB_SET_HI).isSome = true ∧
    setMask ((findRow TB_SET_LO).getD default) ≠ 0 ∧ highOf TB_SET_HI = none ∧
    (putFields base.dev TB_SET_LO (rd base.dev TB_SET_LO) 5 ((findRow TB_SET_LO).getD default)).2 = false := by decide +kernel

theorem test_reads : highOf TB_TIME_LO = some TB_TIME_HI ∧ smGet (reached .host TB_TIME_LO true base).latch (latchKey .host TB_TIME_LO) = none ∧
    rcMask (CAN_CNT 0) ≠ 0 ∧ highOf (CAN_CNT 0) = none ∧ ¬ (0x8200 ≤ CAN_CNT 0 ∧ CAN_CNT 0 < 0x8280) := by decide +kernel

theorem test_memory : placeOf base.dev .host 0xFFFFC 4 = .mem 0x2007FFFC ∧ placeOf base.dev .host 0x100000 1 = .none ∧ touchesChecker base.dev 0x20000000 4 = false ∧
    (∀ i, i < 4 → isCounter (0x20000000 + i) = false) ∧ closedMram 0x20000000 4 = false ∧ hasEcc 0x20000000 = true ∧
    placeOf base.dev (.core 3) 0x60000000 4 = .mem 0x60000000 ∧ closedMram 0x60000000 4 = true ∧
    placeOf base.dev (.core 3) 0x50000000 4 = .none := by decide +kernel

/-- R44: what a core stores in shared SRAM it reads again. -/
theorem test_memory_write : (match exec (.memoryAccess (.core 0) 0x20000010 (.write [1, 2]) ⟨.good, .map, []⟩) base with
    | .next t => memReadN t.mem 0x20000010 2 | _ => []) = [1, 2] := by decide +kernel

/-! ### Functions, resets, readiness, pins -/

/-- The base device with function x in a state. -/
def fnOn (x : Nat) (st : FnState) (d : Dev) : Dev := setFn x { getFn d x with included := true, state := st } d

theorem test_fn_numbers : isFn 0 = true ∧ isFn 0x37 = true ∧ isFn 0x40 = true ∧ isFn 0xD3 = true ∧ isFn 0xE0 = true ∧ isFn 0x508 = true ∧
    isFn 0x510 = true ∧ isFn 0x517 = true ∧ isFn 0x51C = true ∧ isFn 0x520 = true ∧ isFn 0x527 = true := by decide

theorem test_fn_states : [FnState.off, .ready, .armed, .running, .stopping, .faulted].all
    (fun st => (getFn (fnOn 0x524 st base.dev) 0x524).state == st && !enableBarred (fnOn 0x524 st base.dev)) = true ∧
    fnCause (fnOn 0x524 .faulted base.dev) 0x524 0 = false ∧
    fnCause (setFn 0x40 { (default : Fn) with included := true, state := .faulted, fault := 2 } base.dev) 0x40 2 = true := by decide +kernel

/-- R98: the last command written before a COMMIT instant is the one that waits for it. -/
theorem test_last_command_counts :
    (run (.disable .host 0x524) { base with dev := run (.enable .host 0x524) base }).fcmds = [(0x524, .disable)] := by decide +kernel

theorem test_resets_requested : awake base.dev = true ∧
    (run (.cold .host 0x5A17) base).sys.rstReq = some .cold ∧ (run (.warm .host 0x5A17) base).sys.rstReq = some .warm ∧
    (run (.cold .host 0x5A16) base).sys.rstReq = none := by decide +kernel

theorem test_kept_registers : (∀ w, keptWord SCH_POST_VAL w = none) ∧ keptSaf SCH_POST_VAL 0 = none ∧
    (∀ w, keptWord PWR_ALARM_LO w = some w) ∧ (∀ w, keptWord 0x38000 w = none) ∧ keptSaf 0x38000 0 = some 0 ∧
    (∀ w, keptWord 0x38020 w = none) ∧ keptSaf 0x38020 0 = some 0 ∧ keptSaf 0x38024 0 = none :=
  ⟨fun _ => rfl, rfl, fun _ => rfl, fun _ => rfl, rfl, fun _ => rfl, rfl, rfl⟩

theorem test_readiness : base.dev.pwr.state = .gale ∧ base.dev.pwr.keeperOn = false ∧ tbRuns State.reset.dev = false ∧
    bitOf (rd (clockToNs 5 (hostHears true State.reset.dev)) SYS_READY) 22 = false ∧
    bitOf (rd (clockToNs 5 (hostHears true base.dev)) SYS_READY) 22 = true := by decide +kernel

/-- R94: the readiness of TB starts TB time at 0. -/
theorem test_tb_ready : tbRuns (run (.unitReady 1 true 77) State.reset) = true ∧ (run (.unitReady 1 true 77) State.reset).tb = 0 := by decide +kernel

theorem test_link : base.dev.sys.perstLow = false ∧ base.dev.pwr.entry = none ∧ (run (.perstNAssert 1) base).sys.perstLow = true := by decide +kernel

theorem test_pins : pinLocked (reached .host (MFP_PIN 287) true base) 287 0 = false ∧ pinFsel (reached .host (MFP_PIN 287) true base) 287 = 0 ∧
    fget (1#32) MFP_PIN_FSEL ≠ 0 ∧ pinSig 287 (fget (1#32) MFP_PIN_FSEL) = none ∧ pinLocked (reached .host (MFP_PIN 287) true base) 287 1 = false := by
  decide +kernel

/-- The base device with bank 8 at the level 1 that its EXP expects. -/
def bank8 : Dev := wf MFP_BANK_STAT ⟨17, 16⟩ 1 (wr MFP_BANK_CFG 0x10000#32 base.dev)

theorem test_banks : bankExp bank8 8 = 1 ∧ bankLevel bank8 8 = 1 ∧ bankExp base.dev 0 = 0 := by decide +kernel

/-! ### Configuration -/

/-- The base device in a state of the configuration, with a job. -/
def cfgIn (st : CfgState) (j : Option Job) : State := on (fun d => { d with cfg := { d.cfg with state := st, job := j } })

theorem test_cfg_runs : rb base.dev SYS_READY SYS_READY_CFG = true ∧
    [(1, CfgState.empty), (6, .empty), (7, .loaded), (2, .loaded), (3, .armed), (4, .armed), (5, .loaded), (8, .empty), (9, .armed), (9, .loaded)].all
      (fun e => cfgAllowed e.1 e.2) = true ∧ (cfgIn .armed none).dev.cfg.swap = none ∧ (cfgIn .armed none).dev.cfg.state ≠ .arming ∧
    cfgAllowed 2 .empty = false ∧ cfgOverrides 1 .loaded = false ∧ (cfgIn .loaded (some .eraseStore)).dev.cfg.job ≠ none ∧
    (cfgIn .arming (some .armChecks)).dev.cfg.state = .arming := by decide +kernel

/-- A small image by R103, R104: a header, one MEMORY section with four bytes, the CRCs. -/
def imgHead : List Byte :=
  leBytes 4 imgMagic ++ leBytes 2 1 ++ leBytes 2 64 ++ leBytes 4 88 ++ leBytes 4 0 ++ leBytes 4 0 ++ leBytes 4 7 ++ leBytes 4 0 ++ leBytes 2 1 ++ leBytes 30 0

def imgBody : List Byte :=
  imgHead ++ leBytes 4 (crc32 imgHead) ++ leBytes 2 3 ++ leBytes 2 0 ++ leBytes 4 0x20001000 ++ leBytes 4 4 ++ leBytes 4 0 ++ [1, 2, 3, 4]

def image : List Byte := imgBody ++ leBytes 4 (crc32 imgBody)

/-- The machine with that image in shared SRAM where CFG_IMG_ADDR points at reset. -/
def withImage : State := { base with mem := memWriteN [] 0x20000000 image }

theorem test_images : imgAt withImage.dev = some (.sram 0x20000000) ∧ imgAt (wr CFG_IMG_ADDR 0x1000#32 base.dev) = none ∧
    (stageOne withImage.mem withImage.dev false (.sram 0x20000000)).code = 0 ∧ (stageOne withImage.mem withImage.dev false (.sram 0x20000000)).image = image ∧
    (stageOne [] withImage.dev false (.sram 0x20000000)).code = 2 ∧ imgSections image = .good [⟨3, 0x20001000, [1, 2, 3, 4]⟩] := by decide +kernel

theorem test_load_jobs : (cfgIn .loading (some (.load .empty false ⟨0, 0xFFFF, image, 0⟩))).dev.cfg.job = some (.load .empty false ⟨0, 0xFFFF, image, 0⟩) ∧
    (cfgIn .empty (some (.store image))).dev.cfg.job = some (.store image) ∧ (cfgIn .empty (some .eraseStore)).dev.cfg.job = some .eraseStore ∧
    (cfgIn .loaded (some (.draftSync [0]))).dev.cfg.job = some (.draftSync [0]) := ⟨rfl, rfl, rfl, rfl⟩

/-- R107, R104: LOAD and its end write the section's bytes, and the configuration is LOADED with the image's ID. -/
theorem test_load : (match exec (.load .host) withImage with
    | .next s => (match exec .imageLoadEnd s with
      | .next t => (t.dev.cfg.state, memReadN t.mem 0x20001000 4, rd t.dev CFG_IMAGE_ID)
      | _ => (.empty, [], 0))
    | _ => (.empty, [], 0)) = (.loaded, [1, 2, 3, 4], 7#32) := by decide +kernel

/-- The machine ARMING with its checks running, without any function and with a scan function that has no program. -/
def arming : State := cfgIn .arming (some .armChecks)
def armingScan : State := { arming with dev := fnOn 0x508 .ready arming.dev }

theorem test_arm_checks_pass : arming.dev.cfg.job = some .armChecks ∧ clocked arming.dev = true ∧
    (runChecks (hostHears true arming.dev) true (hostHears true arming.dev)).2 = none := by decide +kernel

theorem test_arm_checks_fail :
    (runChecks (hostHears true armingScan.dev) true (hostHears true armingScan.dev)).2 = some (0x12, 0x34000) := by decide +kernel

theorem test_boot : base.dev.cfg.bootPending = true ∧ base.dev.cfg.job = none ∧ rb base.dev SYS_READY SYS_READY_CFG = true ∧ clocked base.dev = true ∧
    [0, 1, 2, 3].all (fun b => (on (fun d => { d with sys := { d.sys with bootsel := b } })).dev.sys.bootsel % 4 == b) = true := by decide +kernel

/-- The machine ARMED with a PENDING swap in position mode since tick 0, TIMEOUT 1. -/
def swapOn : State := on (fun d => { d with tb := 2000000 * nsUnits, cfg := { d.cfg with state := .armed, swap := some { web := true, mask := 15, master := 0, timeout := 1, pt := 0, tickA := 0 } } })

theorem test_swap_pending : clocked swapOn.dev = true ∧ (swapOn.dev.cfg.swap).map (fun q => (q.checked, q.web, q.timeout)) = some (false, true, 1) ∧
    0 + 1 ≤ tickNum swapOn.dev ∧ syncRuns swapOn.dev = false ∧ swapOn.dev.cfg.swap ≠ none := by decide +kernel

theorem test_swap_checks_pass : (runChecks (swapView 15 (hostHears true swapOn.dev)) false (hostHears true swapOn.dev)).2 = none := by decide +kernel

theorem test_swap_checks_fail :
    (runChecks (swapView 15 (hostHears true (fnOn 0x508 .ready swapOn.dev))) false (hostHears true (fnOn 0x508 .ready swapOn.dev))).2 =
      some (0x12, 0x34000) := by decide +kernel

theorem test_swaps : (cfgIn .armed none).dev.cfg.swap = none ∧ syncRuns (cfgIn .armed none).dev = false ∧ (cfgIn .loaded none).dev.cfg.state ≠ .armed ∧
    syncRuns (cfgIn .armed (some (.draftSync [0]))).dev = true := by decide +kernel

/-! ### Further hypotheses of the statements on registers, memory, functions, resets, pins -/

/-- The field f of the register at an offset. -/
def fieldAt (off lo : Nat) : FieldDesc := (((findRow off).getD default).fields.find? (fun f => f.lo == lo)).getD default

/-- A device that is ARMED with function x. -/
def armedWith (x : Nat) (d : Dev) : Dev := fnOn x .armed { d with cfg := { d.cfg with state := .armed } }

theorem test_locked_fields : fieldLocked base.dev (FLK_PORT_CFG 0) (fieldAt (FLK_PORT_CFG 0) 0) = false ∧
    heldField (armedWith (fnFlk 0) base.dev) (FLK_PORT_CFG 0) (fieldAt (FLK_PORT_CFG 0) 0) = true ∧
    heldField base.dev (CAN_CTRL 0) (fieldAt (CAN_CTRL 0) 0) = false ∧ findRow (FLK_PORT_CFG 0) ≠ none ∧
    fget 1#32 ⟨0, 0⟩ ≠ fget (rd base.dev (FLK_PORT_CFG 0)) ⟨0, 0⟩ := by decide +kernel

/-- The shadow of a pair. -/
def shadow : State := on (fun d => setRole 2 (fnOn fnTwn .running d))

theorem test_shadow_keeps : shadowKeeps (reachedAt false .host (MPG_TARGET_LO 0) shadow) .host (MPG_TARGET_LO 0) 5 = true ∧ MPG_TARGET_LO 0 < 0x38000 ∧
    MPG_TARGET_LO 0 % 4 = 0 := by decide +kernel

theorem test_pair_words : takesWrite base.dev TB_SET_LO ((findRow TB_SET_LO).getD default) = true ∧ lowOf TB_SET_HI = some TB_SET_LO ∧
    takesWrite base.dev TB_SET_HI ((findRow TB_SET_HI).getD default) = true ∧
    takesWrite (armedWith (fnChan 0) base.dev) 0x10104 ((findRow 0x10104).getD default) = false ∧ highOf 0x10104 = some 0x10108 ∧
    lowOf 0x10108 = some 0x10104 ∧ highOf 0x10108 = none ∧ setMask ((findRow 0x10104).getD default) ≠ 0 := by decide +kernel

theorem test_clash : smGet (({ base.dev with clash := [(CAN_CNT 0, (0, 1))] } : Dev)).clash (CAN_CNT 0) = some (0, 1) ∧
    (((findRow (CAN_CNT 0)).getD default).fields.any (fun f => f.acc == .rc)) = true ∧ smGet base.dev.latch (latchKey .host TB_TIME_HI) = none := by decide +kernel

theorem test_places : placeOf base.dev .host 0x10 4 = .reg 0x10 ∧ placeOf base.dev (.core 1) 0x40000010 1 = .reg 0x10 ∧
    placeOf base.dev (.core 0) 0x2007FFFF 1 = .mem 0x2007FFFF ∧
    placeOf base.dev (.core 3) 0x60000000 1 = .mem 0x60000000 ∧ closedMram 0x60000000 1 = true ∧ hasEcc 0x20000000 = true ∧
    placeOf base.dev (.core 1) 0x40080000 4 = .closed 0x80000 := by decide +kernel

theorem test_checker_tcm : isCheckerTcm (wf (SCH_CORE_CFG 0) SCH_CORE_CFG_LOCK 1 base.dev) 0x10020000 = true ∧
    isCheckerTcm base.dev 0x10020000 = false := by decide +kernel

theorem test_fn_starts : [FnState.off, .ready, .armed, .running, .stopping, .faulted].all (fun st =>
      let d := fnOn 0x524 st base.dev
      (getFn d 0x524).state == st && (fnStartFault d 0x524).isNone && !fnStopNone d 0x524) = true ∧
    enableBarred (cfgIn .disarming (some (.disarm true))).dev = true ∧ fnStartFault (fnOn 0xD0 .armed base.dev) 0xD0 = none ∧
    (fnStartFault (fnOn 0xD0 .armed (wf (WPU_CH_CFG 0) WPU_CH_CFG_SRC_A 1 base.dev)) 0xD0).isSome = true := by decide +kernel

/-- The base machine held in reset, or with a reset requested. -/
def heldIn : State := on (fun d => { d with pwr := { d.pwr with state := .held, railLow := true } })
def asked (k : SoftReset) : State := on (fun d => { d with sys := { d.sys with rstReq := some k } })

theorem test_reset_states : heldIn.dev.pwr.state = .held ∧ base.dev.pwr.state ≠ .held ∧ awake (asked .cold).dev = true ∧ (asked .cold).dev.sys.rstReq = some .cold ∧
    (asked .warm).dev.sys.rstReq = some .warm ∧ base.dev.sys.rstReq = none ∧ coreOff heldIn.dev = true ∧
    0x8000 ≤ TB_SET_LO ∧ TB_SET_LO < 0xC000 ∧ rwdMask TB_SET_LO = 0 := by decide +kernel

theorem test_held_inv : heldIn.Inv ∧ (asked .cold).Inv ∧ (asked .warm).Inv := ⟨⟨by decide, by decide, by decide⟩, ⟨by decide, by decide, by decide⟩, ⟨by decide, by decide, by decide⟩⟩

theorem test_warm_words : (∀ w, keptWord SCH_POST_VAL w = none) ∧ (∀ w, warmWord SCH_POST_VAL w = none) ∧ SCH_POST_VAL ≠ SYS_READY :=
  ⟨fun _ => rfl, fun _ => rfl, by decide⟩

/-- R62, R70: a power-on reset that holds, and the end of the hold. -/
theorem test_held_reset : (run (.powerOnReset ⟨2, true⟩ false) base).pwr.state = .held ∧
    (run (.powerOnReset ⟨2, false⟩ false) heldIn).pwr.state = .gale ∧ (run (.powerOnReset ⟨2, false⟩ false) heldIn).sys.bootsel = 2 := by decide +kernel

/-- Low-power states with a wake that waits, the coarse time keeper on, an entry that waits, and D3hot. -/
def lulled : State := on (fun d => { d with pwr := { d.pwr with state := .lull, heldWake := some 7 } })
def keeper : State := { State.reset with dev := { State.reset.dev with pwr := { State.reset.dev.pwr with keeperOn := true, keeper := 5 } } }
def entering : State := on (fun d => { d with pwr := { d.pwr with entry := some .lull } })
def d3hot : State := on (fun d => { d with hif := { d.hif with space := { d.hif.space with d3hot := true } } })
def perst : State := on (fun d => { d with sys := { d.sys with perstLow := true } })

theorem test_ready_states : lulled.dev.pwr.heldWake = some (7 : Fin 8).val ∧ lulled.dev.pwr.state = .lull ∧ keeper.dev.pwr.state = .gale ∧
    keeper.dev.pwr.keeperOn = true ∧ base.dev.pwr.keeperOn = false ∧ bitOf (rd (clockToNs 5 (hostHears true keeper.dev)) SYS_READY) 1 = false := by decide +kernel

theorem test_endpoint_states : perst.dev.sys.perstLow = true ∧ base.dev.sys.perstLow = false ∧ entering.dev.pwr.entry = some .lull ∧
    base.dev.pwr.entry ≠ some .lull ∧ base.dev.pwr.entry ≠ some .calm ∧ d3hot.dev.hif.space.d3hot = true ∧ base.dev.hif.space.d3hot = false ∧ awake d3hot.dev = true ∧
    (3 : Fin 4).val ≠ 0 := by decide +kernel

/-- R125: the host reads Device ID and Vendor ID. -/
theorem test_identity : ((run (.memoryAccess .host 0 (.read 4) ⟨.good, .config, []⟩) base).out).head? =
    some (.window .config 0 [0x7A, 0x1D, 0x00, 0x96]) := by decide +kernel

/-- R127: a part of a word of BAR2 is refused. -/
theorem test_bar2_byte : rd (run (.memoryAccess .host 0 (.write [1]) ⟨.good, .bar2, []⟩) base) SYS_ACCESS_ERR ≠ 0#32 := by decide +kernel

/-- R74: pins 144 and 145 select the two outputs of the PWM pair 0, and the functions of the pins 128 and 0 in alternate 3 are not one signal; two
pins of one index select one signal. -/
theorem test_pin_conflict : pinSig 144 2 ≠ none ∧ pinSig 144 2 ≠ pinSig 145 2 ∧ pinSig 0 2 ≠ none ∧
    pinLocked (armedWith (fnPwm 0) (wf (MFP_PIN 144) MFP_PIN_FSEL 2 base.dev)) 144 0 = true := by decide +kernel

/-- Bank 4 at its level, with the PWM pair 0 ARMED on its first pin of alternate 2. -/
def bank4 : Dev := armedWith (fnPwm 0) (wf (MFP_PIN 144) MFP_PIN_FSEL 2 (wf MFP_BANK_STAT ⟨9, 8⟩ 1 (wr MFP_BANK_CFG 0x100#32 base.dev)))

theorem test_bank_lost : bankExp bank4 4 = 1 ∧ bankLevel bank4 4 = 1 ∧ levelAfter 1 1589 = 3 ∧ fnPwm 0 ∈ bankFns bank4 4 ∧ armedFn bank4 (fnPwm 0) = true ∧
    (getFn bank4 (fnPwm 0)).state = .armed ∧ levelHolds 1 2010 = true ∧ levelHolds 0 529 = true ∧ levelHolds 3 3600 = true ∧
    (1 : Fin 4).val = 1 := by decide +kernel

/-- R86, R527: the loss of a bank's supply holds its pins and gives the fault. -/
theorem test_vddio : 128 ∈ (run (.vddioLevelChange 4 0 9) { base with dev := bank4 }).mfp.held ∧
    faultWaits (run (.vddioLevelChange 4 0 9) { base with dev := bank4 }) (fnPwm 0) = true := by decide +kernel

/-- An image by R103, R104 with a form word, a size, an ID mask, flags and sections; its two CRCs hold. -/
def imgOf (form total mask flags : Nat) (secs : List Byte) : List Byte :=
  let h := leBytes 4 imgMagic ++ leBytes 2 form ++ leBytes 2 64 ++ leBytes 4 total ++ leBytes 4 0 ++ leBytes 4 mask ++ leBytes 4 7 ++ leBytes 4 flags ++ leBytes 2 1 ++ leBytes 30 0
  let b := h ++ leBytes 4 (crc32 h) ++ secs
  b ++ leBytes 4 (crc32 b)

/-- A section that goes to SRAM, one that no rule allows. -/
def secOk : List Byte := leBytes 2 3 ++ leBytes 2 0 ++ leBytes 4 0x20001000 ++ leBytes 4 4 ++ leBytes 4 0 ++ [1, 2, 3, 4]
def secBad : List Byte := leBytes 2 9 ++ leBytes 2 0 ++ leBytes 4 0x20001000 ++ leBytes 4 4 ++ leBytes 4 0 ++ [1, 2, 3, 4]

/-- The code of stage one for an image in SRAM. -/
def codeOf (armed : Bool) (i : List Byte) : Nat := (stageOne (memWriteN [] 0x20000000 i) base.dev armed (.sram 0x20000000)).code

theorem test_stage_one : codeOf false (imgOf 1 88 0 0 secOk) = 0 ∧ codeOf false (imgOf 2 88 0 0 secOk) = 3 ∧ codeOf false (imgOf 1 90 0 0 secOk) = 4 ∧
    codeOf false (imgOf 1 88 0xFFFFFFFF 0 secOk) = 5 ∧ codeOf true (imgOf 1 88 0 0 secOk) = 0x11 ∧ codeOf true (imgOf 1 88 0 2 secOk) ≠ 0x11 ∧
    codeOf false (imgOf 1 92 0 0 secOk) = 7 ∧ codeOf false ((imgOf 1 88 0 0 secOk).set 8 1) = 6 ∧ codeOf false [] = 2 ∧
    codeOf false (imgOf 1 88 0 0 secBad) ≠ 0 ∧ imgToDraft (imgOf 1 88 0 2 secOk) = true ∧ imgToDraft (imgOf 1 88 0 0 secOk) = false ∧
    imgAutoarm (imgOf 1 88 0 1 secOk) = true ∧ imgAutoarm (imgOf 1 88 0 0 secOk) = false := by decide +kernel

theorem test_stage_two : (loadSections [] false 0 [⟨3, 0x20001000, [1, 2, 3, 4]⟩] base.dev).2 = none ∧
    ((loadSections [] false 0 [⟨2, 0x34FFC, [1, 2, 3, 4]⟩] base.dev).2).isSome = true ∧
    imgSections (imgOf 1 88 0 0 secBad) ≠ .good [] ∧ (match imgSections (imgOf 1 88 0 0 secBad) with | .bad _ _ => true | _ => false) = true := by decide +kernel

/-- A PENDING swap in tick mode for tick 5, checked or not. -/
def tickSwap (chk : Bool) : Dev := { swapOn.dev with cfg := { swapOn.dev.cfg with swap := some { web := false, mask := 15, master := 0, timeout := 0, pt := 5, tickA := 0, checked := chk } } }
/-- The position-mode swap, checked, where its master channel stands. -/
def webSwap (chk : Bool) : Dev := fnOn 0xD0 .running { swapOn.dev with cfg := { swapOn.dev.cfg with swap := some { web := true, mask := 15, master := 0, timeout := 1, pt := 0, tickA := 0, checked := chk } } }

theorem test_swap_ticks : ((tickSwap true).cfg.swap).map (fun q => (q.web, q.checked, q.pt == 5)) = some (false, true, true) ∧
    chanRuns (webSwap true) 0 = true ∧ (0 : Int) ≤ (getChan (webSwap true) 0).pos / 4294967296 ∧
    ((webSwap false).cfg.swap).map (·.checked) = some false ∧ ((webSwap true).cfg.swap).map (fun q => decide (1 ≤ q.tickA + q.timeout)) = some true ∧
    ((webSwap true).cfg.swap).map (fun q => decide (q.tickA + q.timeout < 2)) = some true ∧
    classOf (MPG_TARGET_LO 0) ≤ 3 ∧ classOf 0x11004 < 3 ∧ [0, 1, 2].contains (classOf 0x11004) = true ∧ [1].contains (classOf SCH_POST_VAL) = false := by decide +kernel

/-- R119, R121: the checked swap of tick 5 takes place at tick 5 and not before; a cancelled one ends with code 4. -/
theorem test_swap_happens : (swapTick 5 (tickSwap true)).cfg.swap = none ∧ rf (swapTick 5 (tickSwap true)) CFG_SWAP_STAT CFG_SWAP_STAT_STATE = 2 ∧
    swapTick 4 (tickSwap true) = tickSwap true ∧ rf (swapTick 6 (tickSwap true)) CFG_SWAP_STAT CFG_SWAP_STAT_CODE = 2 ∧
    rf (run (.swapCancel .host 0) { base with dev := tickSwap true }) CFG_SWAP_STAT CFG_SWAP_STAT_CODE = 4 := by decide +kernel

/-! ### Rings -/

/-- A descriptor with an opcode, a length and a stamp, and the device with ring 0 RUNNING on a link that is up, for a producer, with
what it fetched. -/
def fdesc (op len stamp : Nat) : FDesc :=
  { idx := 0, stamp := stamp, desc := ⟨op, 0, 7, len, if op = 0 ∨ op = 5 ∨ op = 6 then 0 else 0x1000, if op = 3 ∨ op = 4 then 0x20000100 else 0, 0,
    if op = 2 then 0x2000 else 0⟩ }

def ringOn (src : Nat) (q : List FDesc) : Dev :=
  setRing 0 { q := q } (setRingState 0 ringRunning (wf (HIF_RING_CFG 0) HIF_RING_CFG_SIZE_LOG2 4 (wf (HIF_RING_CFG 0) HIF_RING_CFG_SOURCE src
    (wf HIF_LINK HIF_LINK_UP 1 (wf HIF_LINK HIF_LINK_BME 1 base.dev)))))

/-- Opcode, source and length of the descriptors that a ring starts in the tests. -/
def starts : List (Nat × Nat × Nat) :=
  [(0, 0, 0), (1, 0, 8), (2, 0, 4), (3, 0, 4), (4, 0, 4), (5, 0, 0), (6, 0, 0), (7, 0, 32), (0x10, 3, 256), (0x11, 3, 60)]

theorem test_can_start : starts.all (fun e => decide (ringPump 0 (ringOn e.2.1 [fdesc e.1 e.2.2 0]) = ringOn e.2.1 [fdesc e.1 e.2.2 0] ∧
    startable (ringOn e.2.1 [fdesc e.1 e.2.2 0]) 0 = some (fdesc e.1 e.2.2 0))) = true := by decide +kernel

theorem test_ring_states : ringState base.dev 0 = ringDisabled ∧ ringState (ringOn 0 []) 0 = ringRunning ∧
    ringState (setRingState 0 ringHalted base.dev) 0 = ringHalted ∧ ringConfigOk base.dev 0 = false ∧
    ringConfigOk (setRingState 0 ringDisabled (ringOn 0 [])) 0 = true := by decide +kernel

theorem test_can_fetch : canFetch (wf (HIF_RING_DBV 0) HIF_RING_DBV_SQ_TAIL 1 (ringOn 0 [])) 0 = true := by decide +kernel

/-- The descriptor of a work item of plane 1 without operands. -/
def workDesc : List Byte := leBytes 4 0x80000 ++ List.replicate 28 0

theorem test_descriptor_data :
    (pairUp (words32 (leBytes 4 SCH_POST_VAL ++ leBytes 4 7))).any (fun p => decide (0x80000 ≤ p.1)) = false ∧
    (words32 (leBytes 4 SCH_POST_VAL)).any (fun o => decide (0x80000 ≤ o)) = false ∧ touchesChecker (ringOn 0 []) 0x20000100 4 = false ∧
    (ringOn 0 []).cfg.job = none ∧ (submitItem (List.replicate 32 0) (ringOn 0 [])).2.toOption = none ∧
    (submitItem workDesc (ringOn 0 [])).2.toOption.isSome = true := by decide +kernel

/-- R143: a REG_WRITE_LIST writes its register and completes. -/
theorem test_write_list : rd (run (.regWriteList 0 (.data (leBytes 4 SCH_POST_VAL ++ leBytes 4 7)) true) { base with dev := ringOn 0 [fdesc 1 8 0] }) SCH_POST_VAL =
    7#32 := by decide +kernel

/-- A completed descriptor whose entry waits for room. -/
def waits : Dev := ringOn 0 [{ fdesc 0 0 0 with done := some ⟨0, 0, 0, 0, 0⟩ }]

theorem test_entry_waits : mayIssue waits = true ∧ cqFull waits 0 = false ∧ ringState waits 0 ≠ ringPaused ∧
    (nextEntry waits 0 (getRing waits 0).q).map (fun e => e.done.isSome) = some true ∧ waits.hif.wrRefused = false := by decide +kernel

/-- The NET ring with a posted buffer of 64 bytes of which 4 are filled, a timeout that runs, and an entry not signalled. -/
def posted : Dev :=
  let b : FDesc := { fdesc 0x10 64 0 with posted := true, fill := 4 }
  setRing 0 { q := [b], unsig := 1 } (wf (HIF_RING_COAL 0) HIF_RING_COAL_FLUSH_US 10 (ringOn 3 [b]))

theorem test_net_ring : streamRing (clockToNs 5 (hostHears true base.dev)) 3 0 = none ∧ streamRing (clockToNs 5 (hostHears true posted)) 3 0 = some 0 ∧
    (fillBuffer (clockToNs 5 (hostHears true posted)) 0).isSome = true ∧
    streamRing (clockToNs 5 (hostHears true (ringOn 3 []))) 3 0 = some 0 ∧ fillBuffer (clockToNs 5 (hostHears true (ringOn 3 []))) 0 = none ∧
    (fillBuffer posted 0).map (·.fill) = some 4 ∧ rf posted (HIF_RING_COAL 0) HIF_RING_COAL_FLUSH_US ≠ 0 ∧ (getRing posted 0).unsig ≠ 0 ∧
    (match fillBuffer (clockToNs 5 (hostHears true posted)) 0 with
     | some e => ((getRing (fillBytes 0 e [1, 2] (clockToNs 5 (hostHears true posted))) 0).q.find? (fun x => x.stamp == e.stamp)).isSome
     | none => false) = true := by decide +kernel

/-! ### Ticks, power, temperature, records -/

/-- The base device in a phase of a tick. -/
def inPhase (p : Phase) : Dev := { base.dev with phase := p, tick := 5, tb := 5000000 * nsUnits }

theorem test_phases : tbRuns (inPhase .sample) = true ∧ awake (inPhase .compute) = true ∧ (inPhase .commit).phase ≠ .sample ∧ (inPhase .commit).phase ≠ .compute ∧
    tbRuns State.reset.dev = false ∧ (inPhase .sample).phase = .sample := by decide +kernel

/-- A device with a staged high word. -/
def stagedDev : Dev := (regWrite [] .host true true (MPG_TARGET_HI 0) 3 (regWrite [] .host true true (MPG_TARGET_LO 0) 2 base.dev).1).1

theorem test_staged : MPG_TARGET_HI 0 ∈ stagedDev.staged ∧ lowOf (MPG_TARGET_HI 0) = some (MPG_TARGET_LO 0) ∧ SCH_POST_VAL ∉ stagedDev.staged ∧
    lowOf (MPG_TARGET_HI 0) ≠ some SCH_POST_VAL := by decide +kernel

/-- The base device in a power state, with an entry in progress and some settings. -/
def inPower (p : PwrState) (e : Option PwrState) : Dev :=
  wf PWR_WAKE_CFG PWR_WAKE_CFG_WAKE_IN_EN 1 (wf PWR_WAKE_CFG PWR_WAKE_CFG_ALARM_EN 1 { base.dev with pwr := { base.dev.pwr with state := p, entry := e } })

theorem test_power : (inPower .breeze none).pwr.storedBells = [] ∧ awake (inPower .gale (some .breeze)) = true ∧
    (inPower .gale (some .breeze)).evr.wait = [] ∧ (inPower .gale (some .breeze)).evr.queue = [] ∧ (inPower .gale (some .breeze)).evr.clr = none ∧
    (inPower .gale (some .breeze)).evr.clrRec = none ∧ rb (inPower .gale (some .lull)) HIF_LINK HIF_LINK_UP = false ∧
    (inPower .gale (some .calm)).pwr.entry ≠ none ∧ rb (inPower .calm none) PWR_WAKE_CFG PWR_WAKE_CFG_WAKE_IN_EN = true ∧
    (inPower .calm none).pwr.keeperOn = false ∧ (inPower .calm none).pwr.heldWake = none ∧ rb (inPower .lull none) PWR_WAKE_CFG PWR_WAKE_CFG_ALARM_EN = true ∧
    rb base.dev PWR_WAKE_CFG PWR_WAKE_CFG_WAKE_IN_EN = false ∧ awake (inPower .calm none) = false ∧
    (Machine.trigger 0x07 0x01 [] base.dev).evr.wait ≠ [] := by decide +kernel

/-- R508, R510: a request that no rule refuses is accepted, one without a wake source is not. -/
theorem test_power_entry : (run (.pwrRequest .host 0x3C960010#32) { base with dev := inPower .gale none }).pwr.entry = some .breeze ∧
    (run (.pwrRequest .host 0x3C960010#32) base).pwr.entry = none ∧ rf (run (.pwrRequest .host 0x3C960010#32) base) PWR_STAT PWR_STAT_REJ_CODE = 5 := by
  decide +kernel

/-- The limits of the sensors are 16ths of a degree times 8 in the configuration: WARN 100 °C, CRIT 110 °C. -/
def therm : Dev := wf PWR_THERM_CFG PWR_THERM_CFG_WARN 100 (wf PWR_THERM_CFG PWR_THERM_CFG_CRIT 110 base.dev)

theorem test_therm : (rf therm PWR_THERM_CFG PWR_THERM_CFG_WARN * 8 : Nat) = 800 ∧ (rf therm PWR_THERM_CFG PWR_THERM_CFG_CRIT * 8 : Nat) = 880 ∧
    rb therm PWR_THERM_STAT PWR_THERM_STAT_WARN = false ∧ rb therm PWR_THERM_STAT PWR_THERM_STAT_CRIT = false ∧
    rb (wf PWR_THERM_STAT PWR_THERM_STAT_WARN 1 therm) PWR_THERM_STAT PWR_THERM_STAT_WARN = true ∧
    [799, 800, 759, 1200].map (fun t => (hottestOf (List.replicate 8 t)).1) = [0, 0, 0, 0] := by decide +kernel

/-- R517: the WARN limit is reached. -/
theorem test_warn : rb (run (.temperatureReading (List.replicate 8 800)) { base with dev := therm }) PWR_THERM_STAT PWR_THERM_STAT_WARN = true ∧
    rb (run (.temperatureReading (List.replicate 8 799)) { base with dev := therm }) PWR_THERM_STAT PWR_THERM_STAT_WARN = false := by decide +kernel

theorem test_shutdown : (run (.thermalShutdownRelease (List.replicate 8 1039)) { base with dev := inPower .shutdown none }).pwr.state = .gale ∧
    (run (.thermalShutdownRelease (List.replicate 8 1040)) { base with dev := inPower .shutdown none }).pwr.state = .shutdown := by decide +kernel

/-- A recorder with one record to write and one in the store. -/
def recorder : Dev := { base.dev with evr := { base.dev.evr with queue := [List.replicate 30 1], store := [5#32 :: List.replicate 31 2] } }

theorem test_recorder : rb recorder SYS_READY SYS_READY_EVR = true ∧ recorder.evr.queue = [List.replicate 30 1] ∧
    rb State.reset.dev SYS_READY SYS_READY_EVR = false ∧ base.dev.evr.queue = [] ∧
    (recorder.evr.store.find? (fun r => r.head? == some 5#32)).isSome = true ∧ (∀ r ∈ recorder.evr.store, r.head? ≠ some 6#32) := by decide +kernel

/-- R523: EVR_RD_SEQ shows the record with that SEQ. -/
theorem test_read_record : rd (run (.rdSeqWrite .host 5) { base with dev := recorder }) (EVR_WIN 1) = 2#32 := by decide +kernel

/-! ### Timebase, PTP, pulses, captures -/

/-- A device whose configuration is ARMED with a function that owns the time base. -/
def owned : Dev := fnOn 0x524 .armed { base.dev with cfg := { base.dev.cfg with state := .armed } }

theorem test_time : tbOwnerArmed base.dev = false ∧ tbRuns base.dev = true ∧ tbOwnerArmed owned = true := by decide +kernel

/-- R168, R170: STEP loads the time at the first edge of TBCLK after its acceptance. -/
theorem test_step :
    let d := run (.step .host 0) (on (fun d => wr TB_SET_LO 9 d))
    d.tb = 0 ∧ (clockTo (d.tb + 1) d).tb = 9 * nsUnits := by decide +kernel

theorem test_servo : (rf base.dev TB_SERVO_CFG TB_SERVO_CFG_LOCK_NS * 65536 = 1310720) ∧
    rb (servoMeasure (4 * 1310720 + 1) (wf TB_STAT TB_STAT_LOCKED 1 base.dev)) TB_STAT TB_STAT_LOCKED = false ∧
    rb (servoMeasure 1310720 { base.dev with tbu := { base.dev.tbu with good := 7 } }) TB_STAT TB_STAT_LOCKED = true ∧
    rb (wf TB_CTRL TB_CTRL_AUTO_STEP 1 base.dev) TB_CTRL TB_CTRL_AUTO_STEP = true := by decide +kernel

/-! ### Further hypotheses of the statements on rings -/

/-- A FENCE that waits for its scope, with or without LIVE, behind a descriptor that is or is not complete. -/
def fenceAt (live ends : Bool) : FDesc × Dev :=
  let e : FDesc := { fdesc 5 0 9 with wait := .scope, started := true, desc := { (fdesc 5 0 9).desc with param0 := if live then 2 else 0 } }
  (e, ringOn 0 [{ fdesc 0 0 1 with done := if ends then some ⟨0, 0, 0, 0, 0⟩ else none }, e])

theorem test_fences : [true, false].all (fun l => fenceMet (fenceAt l true).2 0 (fenceAt l true).1 && !fenceMet (fenceAt l false).2 0 (fenceAt l false).1 &&
    (fenceAt l true).1.wait == .scope && ((fenceAt l true).1.desc.param0 / 2 % 2 == 1) == l) = true ∧ (fdesc 5 0 9).wait ≠ .scope := by decide +kernel

/-- R153, R154: a FENCE whose scope is met completes, with LIVE it waits for the next COMMIT instant. -/
theorem test_fence_live : ((getRing (fenceStep 0 (fenceAt false true).1 (fenceAt false true).2) 0).q.any (fun e => e.stamp == 9 && e.wait == .nothing && e.done.isNone)) = false ∧
    ((getRing (fenceStep 0 (fenceAt true true).1 (fenceAt true true).2) 0).q.any (fun e => e.stamp == 9 && e.done.isNone)) = true := by decide +kernel

theorem test_no_fetch_no_start : canFetch base.dev 0 = false ∧ ringPump 0 (ringOn 0 []) = ringOn 0 [] ∧ startable (ringOn 0 []) 0 = none := by decide +kernel

theorem test_list_offsets : (pairUp (words32 (leBytes 4 0x80000 ++ leBytes 4 7))).any (fun p => decide (0x80000 ≤ p.1)) = true ∧
    (words32 (leBytes 4 0x80000)).any (fun o => decide (0x80000 ≤ o)) = true ∧ [0x40000].find? regEcc = some 0x40000 ∧ [0x10].find? regEcc = none ∧
    hasEcc 0x20000100 = true ∧ hasEcc 0x60000000 = false := by decide +kernel

/-- A CFG_CMD behind which a command already runs. -/
def cfgBusy : Dev := let d := ringOn 0 [{ fdesc 6 0 0 with desc := { (fdesc 6 0 0).desc with param0 := 1 } }]; { d with cfg := { d.cfg with job := some .eraseStore } }

theorem test_cfg_busy : ringPump 0 cfgBusy = cfgBusy ∧ (startable cfgBusy 0).map (fun e => (e.desc.opcode, e.desc.param0 % 16)) = some (6, 1) ∧ cfgBusy.cfg.job ≠ none ∧
    cfgOverrides 1 cfgBusy.cfg.state = false ∧ rb cfgBusy SYS_READY SYS_READY_CFG = true := by decide +kernel

theorem test_entries : mayIssue waits = true ∧ mayIssue base.dev = false ∧ ({ waits with hif := { waits.hif with wrRefused := true } } : Dev).hif.wrRefused = true ∧
    ringSource waits 0 ≠ 3 ∧ ringOrdered (wf (HIF_RING_CFG 0) HIF_RING_CFG_ORDERED 1 waits) 0 = true ∧ nextEntry (ringOn 0 []) 0 [] = none := by decide +kernel

theorem test_bells : masterActs .host base.dev = true ∧ masterActs .host (inPower .breeze none) = true ∧ (inPower .breeze none).pwr.state = .breeze ∧
    masterActs .host (inPower .calm none) = false ∧ rb base.dev PWR_WAKE_CFG PWR_WAKE_CFG_DOORBELL_EN = false ∧
    rb (wf PWR_WAKE_CFG PWR_WAKE_CFG_DOORBELL_EN 1 base.dev) PWR_WAKE_CFG PWR_WAKE_CFG_DOORBELL_EN = true ∧ ringState (setRingState 63 ringHalted base.dev) 63 = ringHalted ∧
    ((0x5FD0 - 0x5000) / 0x40 = 63) ∧ ringState (setRingState 63 ringPaused base.dev) ((0x5FD0 - 0x5000) / 0x40) ≠ ringDisabled := by decide +kernel

/-- R136: a doorbell out of range halts a RUNNING ring with BAD_DOORBELL. -/
theorem test_bad_doorbell : ringState (run (.sqTail 0 16 true) { base with dev := ringOn 0 [] }) 0 = ringHalted ∧
    rf (run (.sqTail 0 15 true) { base with dev := ringOn 0 [] }) (HIF_RING_DBV 0) HIF_RING_DBV_SQ_TAIL = 15 := by decide +kernel

theorem test_coalescing : (max 1 (rf (ringOn 0 []) (HIF_RING_COAL 0) HIF_RING_COAL_COUNT) ≤ (getRing (ringOn 0 []) 0).unsig + 1) ∧
    ¬ (max 1 (rf (wf (HIF_RING_COAL 0) HIF_RING_COAL_COUNT 3 (wf (HIF_RING_COAL 0) HIF_RING_COAL_TIME_US 9 (ringOn 0 []))) (HIF_RING_COAL 0) HIF_RING_COAL_COUNT) ≤
      (getRing (ringOn 0 []) 0).unsig + 1) ∧ (getRing base.dev 0).unsig = 0 ∧ fillBuffer base.dev 0 = none ∧ rf base.dev (HIF_RING_COAL 0) HIF_RING_COAL_FLUSH_US = 0 := by decide +kernel

theorem test_events : rb base.dev HIF_EVT_STAT ⟨5, 5⟩ = false ∧ rb (wf HIF_EVT_STAT ⟨5, 5⟩ 1 base.dev) HIF_EVT_STAT ⟨5, 5⟩ = true ∧
    (let d : Dev := wf (HIF_MSIX_CTRL 255) HIF_MSIX_CTRL_MASK 0 { ringOn 0 [] with hif := { (ringOn 0 []).hif with msixEnable := true } }
     d.hif.msixEnable = true ∧ d.hif.msixFnMask = false ∧ rb d (HIF_MSIX_CTRL 255) HIF_MSIX_CTRL_MASK = false ∧ rb d HIF_LINK HIF_LINK_BME = true ∧
     rb d HIF_LINK HIF_LINK_UP = true ∧ d.hif.space.d3hot = false) := by decide +kernel

theorem test_tick_state : (inPhase .sample).tbu.stepTo = none ∧ (inPhase .sample).tbu.oldPeriod = none ∧ tbRuns (inPhase .commit) = true ∧ awake (inPhase .commit) = true ∧
    effAddend (inPhase .commit) ≠ 0 ∧ (inPhase .none).phase = .none := by decide +kernel

/-- The base device after the COMMIT instant of tick 5. -/
def tick5 : State := on (fun d => { d with phase := .commit, tick := 5, tb := 92252 * nsUnits })

/-- R28, R32: with P = 15,625 ns and an edge of TBCLK every 4 ns, the instants of tick 6 come at 93,750, 95,000 and 107,875 ns or the edge after. -/
theorem test_tick_start : (run .tickStart tick5).tb = 93752 * nsUnits := by decide +kernel

theorem test_compute_start : (run (.computeStart ⟨[], 0, []⟩) tick5).tb = 95000 * nsUnits := by decide +kernel

theorem test_power_states : (cfgIn .armed none).dev.cfg.state = .armed ∧ rf (wf SAF_STAT ⟨15, 8⟩ 1 base.dev) SAF_STAT ⟨15, 8⟩ ≠ 0 ∧
    ringState (setRingState 5 ringDraining base.dev) 5 = ringDraining ∧ ringSource (ringOn 0 [fdesc 0 0 0]) 0 = 0 ∧ (fdesc 0 0 0).done = none ∧
    rf (inPower .gale none) SAF_STAT ⟨15, 8⟩ = 0 ∧ (List.range 64).all (fun r => ringState (inPower .gale none) r == ringDisabled) = true ∧
    entryRefused (inPower .gale none) 3 = 0 ∧ entryRefused (inPower .breeze none) 1 = 7 ∧ entryRefused base.dev 1 = 5 ∧
    rf (wf HIF_LINK HIF_LINK_PM 4 base.dev) HIF_LINK HIF_LINK_PM = 4 ∧ ({ base.dev.evr with queue := [[]] } : EvrUnit).queue ≠ [] ∧ (inPower .lull none).pwr.state = .lull ∧
    rb (inPower .breeze none) PWR_WAKE_CFG PWR_WAKE_CFG_ALARM_EN = true := by decide +kernel

/-- R510: LULL is entered once the recorder is idle and the link off. -/
theorem test_entry : (run (.lowPowerEntry false) { base with dev := inPower .gale (some .lull) }).pwr.state = .lull ∧
    (run (.lowPowerEntry false) { base with dev := wf HIF_LINK HIF_LINK_UP 1 (inPower .gale (some .lull)) }).pwr.state = .gale ∧
    (run (.lowPowerEntry true) { base with dev := wf HIF_LINK HIF_LINK_UP 1 (inPower .gale (some .lull)) }).pwr.state = .lull := by decide +kernel

/-- R517: the third reading of 150 °C shuts the device down. -/
theorem test_third_hot : (run (.temperatureReading (List.replicate 8 1200)) (on (fun d => { d with pwr := { d.pwr with hotRuns := [2] } }))).pwr.state = .shutdown ∧
    (run (.temperatureReading (List.replicate 8 1200)) (on (fun d => { d with pwr := { d.pwr with hotRuns := [1] } }))).pwr.state = .gale ∧
    (run (.temperatureReading (List.replicate 8 1199)) (on (fun d => { d with pwr := { d.pwr with hotRuns := [2] } }))).pwr.state = .gale := by decide +kernel

/-- A recorder whose queue is full, and one in which a CLEAR waits. -/
def fullQueue : Dev := { base.dev with evr := { base.dev.evr with queue := List.replicate 31 [] } }
def clearing : Dev := { base.dev with evr := { base.dev.evr with clrRec := some (List.replicate 30 0) } }

theorem test_recorder_states : 31 ≤ fullQueue.evr.wait.length + fullQueue.evr.queue.length ∧ base.dev.evr.wait.length + base.dev.evr.queue.length < 31 ∧
    clearing.evr.clrRec = some (List.replicate 30 0) ∧ ({ base.dev.evr with clr := some default } : EvrUnit).clr ≠ none ∧
    base.dev.evr.auth = none ∧ ({ base.dev.evr with auth := some 5 } : EvrUnit).auth ≠ none ∧
    (Machine.trigger 0x07 0x01 [] fullQueue).evr.lost = 1 := by decide +kernel

/-! ### PTP, pulses, captures -/

/-- The base device as an ordinary clock whose port 0 is up in a PTP state, with or without peer delay and two-step messages. -/
def ptpOn (st : Nat) (p2p two : Bool) : Dev :=
  wb (NET_PORT_CFG 0) NET_PORT_CFG_TWO_STEP two (wb (NET_PORT_CFG 0) NET_PORT_CFG_P2P p2p (wf (NET_PORT_CFG 0) NET_PORT_CFG_PTP_STATE st
    (wf (NET_PORT_CFG 0) NET_PORT_CFG_LINK 1 (wf (NET_PORT_CFG 0) NET_PORT_CFG_EN 1 (wf NET_PTP_CFG NET_PTP_CFG_ROLE 1 base.dev)))))

/-- A message of clock 9, port 1, with sequence 3, for this device's port 1. -/
def ptpMsg : PtpMsg := ⟨false, 0, 0, false, 0, 9, 1, 3, 1000, ownClock base.dev, 1, []⟩

/-- The base device's port 0 in a PTP state with a two-step Sync, a Delay_Req and a Pdelay_Req in progress. -/
def ptpBusy (st : Nat) (p2p : Bool) : Dev :=
  setPort 0 { getPort (ptpOn st p2p false) 0 with wait := some (ptpMsg, 5), t3 := some 7, reqSeq := 3, pT1 := [(false, 7)], pSeq := 3, pWait := some (ptpMsg, 5) }
    (ptpOn st p2p false)

theorem test_ptp : (let d := clockToNs 5 (hostHears true (ptpBusy 3 false))
    let x := getPort d 0
    x.wait.isSome && ptpTakes d 0 ptpMsg && ptpState d 0 == 3 && x.t3.isSome && ptpMsg.reqClock == ownClock d &&
    ptpMsg.reqPort == 0 + 1 && ptpMsg.seq == x.reqSeq) = true ∧
    (let d := clockToNs 5 (hostHears true (ptpBusy 2 true))
     let x := getPort d 0
     (pdelayT1 d 0 false).isSome && x.pWait.isSome && ptpTakes d 0 ptpMsg && isP2p d 0 && ptpMsg.reqClock == ownClock d && ptpMsg.seq == x.pSeq) = true ∧
    (getPort (clockToNs 5 (hostHears true base.dev)) 0).wait = none ∧ pdelayT1 (clockToNs 5 (hostHears true base.dev)) 0 false = none ∧
    (getPort (clockToNs 5 (hostHears true base.dev)) 0).t3 = none := by decide +kernel

theorem test_ptp_intervals : (let d := clockToNs 5 (hostHears true (ptpOn 2 true false))
    (ptpRole d == 1 || ptpRole d == 2) && portUp d 0 && ptpState d 0 == 2 && !isTwoStep d 0 && isP2p d 0) = true ∧
    isTwoStep (clockToNs 5 (hostHears true (ptpOn 2 true true))) 0 = true ∧ portUp (clockToNs 5 (hostHears true base.dev)) 0 = false := by decide +kernel

/-- A RUNNING pulse output with a periodic schedule at its edge j = 0, low or high, and a RUNNING capture. -/
def pulseOn (periodic high : Bool) (caps : Nat) : Dev :=
  setCap 0 (List.replicate caps ⟨1, true⟩) (wf (MFP_PIN 252) MFP_PIN_FSEL 2 (wf (TB_CAP_CTRL 0) TB_CAP_CTRL_RISE 1 (fnOn (fnCap 0) .running (fnOn (fnPulse 0) .running
    (setPulse 0 { sched := some ⟨periodic, false, 0, 10, 1000, 100, some 0⟩, high := high, fallAt := 100 } base.dev)))))

theorem test_pulses : (getPulse (pulseOn true false 0) 0).sched = some ⟨true, false, 0, 10, 1000, 100, some 0⟩ ∧
    fnIs (hostHears true (pulseOn true false 0)) (fnPulse 0) .running = true ∧ (getPulse base.dev 0).sched = none ∧
    (getPulse (pulseOn false true 0) 0).high = true ∧ (getPulse (pulseOn false false 0) 0).high = false ∧
    fnIs (pulseOn true true 8) (fnCap 0) .running = true ∧ (getCap (pulseOn true true 8) 0).length = 8 ∧ (getCap (pulseOn true true 7) 0).length = 7 ∧
    rb (pulseOn true true 7) (TB_CAP_CTRL 0) TB_CAP_CTRL_RISE = true := by decide +kernel

/-- R179: the eighth entry is stored, the ninth edge counts in OVERFLOW. -/
theorem test_captures : (getCap (run (.captureEdge 0 true ⟨50, 100⟩) { base with dev := pulseOn true true 7 }) 0).length = 8 ∧
    (getCap (run (.captureEdge 0 true ⟨50, 100⟩) { base with dev := pulseOn true true 8 }) 0).length = 8 ∧
    rf (run (.captureEdge 0 true ⟨50, 100⟩) { base with dev := pulseOn true true 8 }) (TB_CAP_STAT 0) TB_CAP_STAT_OVERFLOW = 1 := by decide +kernel

/-! ### Switch and line -/

/-- The base device with ports 0 and 1 up, and an address learnt at port 1. -/
def switchOn : Dev :=
  let e := wf (NET_PORT_CFG 1) NET_PORT_CFG_LINK 1 (wf (NET_PORT_CFG 1) NET_PORT_CFG_EN 1 (ptpOn 0 false false))
  { e with net := { e.net with fdb := [(4, 1, 0)] } }

/-- A frame between two stations. -/
def ethFrame : EthFrame := ⟨4, 2, none, 0x0800, [], true⟩

theorem test_switch : (let d := clockToNs 5 (hostHears true switchOn)
    let l := learn 2 0 d
    portUp d 0 && !portBlocked l 0 && !ptpEnds l 0 ethFrame && !(rf l NET_PTP_CFG NET_PTP_CFG_ROLE == 3) && learntPort d 4 == some 1 && learntPort d 3 == none &&
    decide ((d.net.fdb.filter (fun e => e.1 != 2)).length < 1024)) = true ∧
    portUp base.dev 0 = false ∧ portBlocked (wf (NET_PORT_CFG 0) NET_PORT_CFG_BLOCK 1 base.dev) 0 = true ∧ switchOn.net.fdb = [(4, 1, 0)] ∧ base.dev.net.fdb = [] ∧
    (2 / 1099511627776 % 2 = 0) ∧ (gateNow base.dev 0).en = false ∧ 4 ≠ celivoGroup ∧ 4 ≠ ownMac switchOn ∧
    (gateNow (setPort 0 { getPort switchOn 0 with old := some ({ en := true, cyc := 0, entries := [0x000001FF#32] }, 1) } switchOn) 0).en = true := by
  decide +kernel

theorem test_switch_transparent : (let d := wf NET_PTP_CFG NET_PTP_CFG_ROLE 3 switchOn
    rf (learn 2 0 d) NET_PTP_CFG NET_PTP_CFG_ROLE = 3 ∧ ptpEnds (learn 2 0 d) 0 ethFrame = false) := by decide +kernel

/-- The base device with Celivo on, DEV_ID 1, and a watch on station 2 in a state of JOINED; its JSTATE. -/
def celOn1 (watch j : Nat) : Dev :=
  setJstate j (setWatch watch 0 (wr (NET_WATCH 0) (wordWatch) (wf NET_NODE NET_NODE_DEV_ID 1 (wf NET_CELIVO_CFG NET_CELIVO_CFG_EN 1 base.dev))))
where
  wordWatch : Word := fset (fset (fset 0 NET_WATCH_EN 1) NET_WATCH_DEV_ID 2) NET_WATCH_SPONSOR 1

/-- A frame of station 2 with epoch 7. -/
def celFrame (cls : Nat) (payload : List Byte) : CelFrame := ⟨5, true, celEtype base.dev, 1, cls, 0, 2, 0, 0, 0, payload.length, 7, payload⟩

/-- The same device with station 2's epoch recorded, and with an older epoch. -/
def celKnown (e j : Nat) : Dev := recordEpoch 2 e (celOn1 1 j)

theorem test_cel_accept : celOn base.dev = false ∧ celOn (celOn1 1 4) = true ∧ formatOk (celOn1 1 4) (celFrame 1 (List.replicate 48 0)) = true ∧
    formatOk (celOn1 1 4) (celFrame 1 []) = false ∧ devId (celOn1 1 4) = 1 ∧ smGet (celOn1 1 4).cel.epochs 2 = none ∧
    smGet (celKnown 7 4).cel.epochs 2 = some 7 ∧ smGet (celKnown 6 4).cel.epochs 2 = some 6 ∧
    (modCel (fun c => { c with offers := [{ sponsor := 3, joiner := 2, newEpoch := 7, joinAt := 0 }] }) (celKnown 6 4)).cel.offers.any
      (fun o => o.joiner == 2 && o.newEpoch == 7 && tickAfter 0 o.joinAt) = true := by decide +kernel

/-- Payloads: MASTER_POS, LINE_STATE and STOP_REQ by their first bytes, DRIVE_STATUS, JOIN_REQ, JOIN_OFFER, JOIN_ACK. -/
def pays : List (Nat × List Byte) :=
  [(1, List.replicate 48 0), (2, List.replicate 48 0), (3, List.replicate 64 0), (5, List.replicate 64 0), (6, List.replicate 16 0), (7, List.replicate 64 0),
   (8, List.replicate 16 0)]

theorem test_cel_classes : pays.all (fun e => (celPre (celFrame e.1 e.2) (clockToNs 5 (hostHears true (celKnown 7 4)))).2) = true ∧
    pays.all (fun e => !(celPre (celFrame e.1 e.2) (clockToNs 5 (hostHears true base.dev))).2) = true := by decide +kernel

/-- A stream that was heard at the instant 5, a drive that was heard too. -/
def celHeard : Dev := modCel (fun c => { c with
  streams := [(0, ⟨2, 7, 0, 5, 0, 0, 0, false, false⟩)], drives := [(driveKey 5 2 0, { epoch := 7, seq := 0, validAt := 5 })] }) (celKnown 7 4)

theorem test_cel_streams : (smGet celHeard.cel.streams 0).map (·.validAt) = some 5 ∧ (smGet celHeard.cel.drives (driveKey 5 2 0)).map (·.validAt) = some 5 ∧
    pay (List.replicate 48 0) 8 8 = 0 ∧ pay (List.replicate 8 0 ++ [0, 0, 0, 0, 0, 0, 0, 6]) 8 8 = 6 ∧ smGet (celKnown 7 4).cel.streams 0 = none ∧
    smGet (celKnown 7 4).cel.drives (driveKey 5 2 0) = none ∧ (parseStop (celFrame 3 (0x80 :: List.replicate 63 0))).kind = 0x80 ∧
    (parseStop (celFrame 3 (1 :: List.replicate 63 0))).kind = 1 ∧ (parseStop (celFrame 3 (0x80 :: List.replicate 63 0))).origin ≠ 1 := by decide +kernel

/-- A stop request for every device. -/
def stopReq (q : Nat) : StopReq := ⟨2, 7, q, 1, 0, 0, 0, 0, 0, 0, []⟩

/-- The base device with requests in force, and with one that waits. -/
def stopped (n : Nat) : Dev := modCel (fun c => { c with stops := (List.range n).map stopReq }) base.dev

theorem test_stops : stopMatches base.dev 0 0 = true ∧ stopMatches base.dev 4 0 = false ∧ stopKey (stopReq 1) ∉ base.dev.cel.seen ∧ base.dev.cel.pend = [] ∧
    (stopped 15).cel.stops.length < 16 ∧ 16 ≤ (stopped 16).cel.stops.length ∧ stopKey (stopReq 99) ∉ (stopped 16).cel.seen ∧
    stopKey (stopReq 1) ∈ (stopAct (.put (stopReq 1)) base.dev).cel.seen ∧
    (∀ e ∈ (stopAccept (stopReq 1) base.dev).cel.pend, (stopAccept (stopReq 1) base.dev).tb < e.2 + 500 * nsUnits) ∧
    base.dev.cel.issued.find? (fun i => i.r.req == 1) = none ∧
    ((modCel (fun c => { c with issued := [{ r := stopReq 1 }] }) base.dev).cel.issued.find? (fun i => i.r.req == 1)).isSome = true := by decide +kernel

/-- R198: a request acts 500 ns after its acceptance, not before. -/
theorem test_stop_acts : (celStops (clockToNs 500 (stopAccept (stopReq 1) base.dev))).cel.stops = [stopReq 1] ∧
    (celStops (clockToNs 496 (stopAccept (stopReq 1) base.dev))).cel.stops = [] := by decide +kernel

theorem test_joins : rb (wf NET_CELIVO_CFG2 NET_CELIVO_CFG2_AUTOJOIN 1 base.dev) NET_CELIVO_CFG2 NET_CELIVO_CFG2_AUTOJOIN = true ∧
    rb base.dev NET_CELIVO_CFG2 NET_CELIVO_CFG2_AUTOJOIN = false ∧ jstate base.dev = 0 ∧ jstate (celOn1 1 3) = 3 ∧ base.dev.cel.made = [] ∧
    base.dev.cel.taken = none ∧ tickAfter (tickNum { base.dev with tb := 9 * tickP base.dev }) (5 + 4294967292) = true ∧ tickAfter 5 5 = true := by decide +kernel

/-! ### Further hypotheses of the statements on time, PTP, pulses, captures -/

/-- A device whose STEP, or whose new period, waits for the next edge. -/
def stepWaits : Dev := { base.dev with tbu := { base.dev.tbu with stepTo := some 5 } }
def periodWaits : Dev := { base.dev with tbu := { base.dev.tbu with oldPeriod := some 1 } }

theorem test_edges : stepWaits.tbu.stepTo = some 5 ∧ periodWaits.tbu.stepTo = none ∧ periodWaits.tbu.oldPeriod = some 1 ∧ base.dev.tbu.stepTo = none ∧
    base.dev.tbu.oldPeriod = none ∧ tbRuns base.dev = true ∧ awake base.dev = true ∧ slavePort base.dev = none ∧ (slavePort (ptpOn 3 false false)).isSome = true := by decide +kernel

/-- R171, R172: a measurement of 20 µs steps TB time where AUTO_STEP allows it. -/
theorem test_auto_step : rb (wf TB_CTRL TB_CTRL_AUTO_STEP 1 base.dev) TB_CTRL TB_CTRL_AUTO_STEP = true ∧ 655360000 < ((1310720000 : Int)).natAbs ∧
    tbOwnerArmed (wf TB_CTRL TB_CTRL_AUTO_STEP 1 base.dev) = false ∧
    (servoMeasure 1310720000 { (wf TB_CTRL TB_CTRL_AUTO_STEP 1 base.dev) with tb := 50000 * nsUnits }).tb = 30000 * nsUnits := by decide +kernel

theorem test_ptp_parts : portUp (ptpOn 3 false false) 0 = true ∧ isP2p (ptpOn 2 true false) 0 = true ∧ isP2p (ptpOn 2 false false) 0 = false ∧
    slavePort (ptpOn 3 false false) = some 0 ∧ (ptpMsg.twoStep = false) ∧ ({ ptpMsg with twoStep := true } : PtpMsg).twoStep = true ∧
    gateOpen (ptpOn 2 false false) 0 6 (.ptp 0 ptpMsg 0) = true ∧ (getPort (ptpOn 2 false false) 0).queue = [] ∧
    gateOpen (setPort 0 { getPort (ptpOn 2 false false) 0 with old := some ({ en := true, cyc := 0, entries := [0x00000100#32] }, 1) } (ptpOn 2 false false)) 0 6
      (.ptp 0 ptpMsg 0) = false ∧ (5 ≠ 0 ∧ 5 ≠ 1 ∧ 5 ≠ 2 ∧ 5 ≠ 3) := by decide +kernel

/-- R185: a MASTER port sends its Sync, with its next sequence number. -/
theorem test_sync_sent : (getPort (run (.syncIntervalExpiry 0 5) { base with dev := ptpOn 2 false false }) 0).syncSeq = 1 ∧
    ((run (.syncIntervalExpiry 0 5) { base with dev := ptpOn 2 false false }).out.any (fun o => match o with | .ptp 0 0 _ => true | _ => false)) = true := by
  decide +kernel

theorem test_capture_pins : pinConn (pulseOn true true 7) 252 = some (.cap 0) ∧ pinConn base.dev 252 ≠ some (.cap 0) ∧
    0 * nsUnits < rf (wf (MFP_PIN 252) MFP_PIN_FILT 9 base.dev) (MFP_PIN 252) MFP_PIN_FILT * effAddend (wf (MFP_PIN 252) MFP_PIN_FILT 9 base.dev) ∧
    ((pulseOn true false 0) |> (fun d => { d with tbu := d.tbu }) |> (fun d => (getPulse d 0).sched.map (·.web))) = some false ∧
    masterActs .host base.dev = true ∧ masterActs .host (inPower .calm none) = false := by decide +kernel

/-- R81: a level that the pin's filter does not pass is not captured. -/
theorem test_capture_filtered : (getCap (run (.captureEdge 0 true ⟨50, 8⟩) { base with dev := wf (MFP_PIN 252) MFP_PIN_FILT 3 (pulseOn true true 1) }) 0).length = 1 ∧
    (getCap (run (.captureEdge 0 true ⟨50, 12⟩) { base with dev := wf (MFP_PIN 252) MFP_PIN_FILT 3 (pulseOn true true 1) }) 0).length = 2 := by decide +kernel

/-! ### Further hypotheses of the statements on the switch and the line -/

theorem test_egress : (List.range 3).filter (portLine switchOn) ≠ [] ∧ celivoGroup ≠ 4 ∧ ownMac switchOn ≠ celivoGroup ∧ learntPort switchOn 4 = some 1 ∧
    learntPort switchOn 9 = none ∧ (2 / 1099511627776 % 2 = 0) ∧ (1099511627776 / 1099511627776 % 2 = 1) ∧ portUp switchOn 1 = true ∧
    gateOpen switchOn 1 0 (.frame ethFrame false none) = true ∧ (getPort switchOn 1).queue = [] ∧ (∀ x ∈ switchOn.net.fdb, (0 : Nat) ≤ x.2.2) := by decide +kernel

/-- R180: a frame to an address that was learnt at port 1 leaves there alone. -/
theorem test_forward : (run (.frameIngress 0 ethFrame 5) { base with dev := switchOn }).out.head? = some (.ethFrame 1 ethFrame) := by decide +kernel

theorem test_cel_steps : (1 % 4096 = devId (celOn1 1 4)) ∧ ((celFrame 1 []).flags % 2 = 0) ∧ ¬ ((celFrame 1 []).srcId % 4096 = devId (celOn1 1 4)) ∧
    formatOk (celOn1 1 4) { celFrame 9 (List.replicate 48 0) with cls := 9 } = false ∧ formatOk (celOn1 1 4) (celFrame 4 (List.replicate 32 0)) = true ∧
    (celPre (celFrame 4 (List.replicate 32 0)) (celKnown 7 4)).2 = true ∧ smGet (celKnown 7 4).cel.drives (driveKey 4 2 0) = none ∧
    (smGet (modCel (fun c => { c with drives := [(driveKey 4 2 0, { epoch := 7, seq := 0, validAt := 5 })] }) (celKnown 7 4)).cel.drives (driveKey 4 2 0)).map (·.validAt) =
      some 5 := by decide +kernel

/-- R193: a frame of a CLASS that no row has counts in FORMAT. -/
theorem test_cel_class_9 : rf (run (.masterPos (celFrame 9 (List.replicate 48 0)) 5) { base with dev := celKnown 7 4 }) NET_CELIVO_ERR NET_CELIVO_ERR_FORMAT = 1 := by
  decide +kernel

theorem test_cel_roles : jstate (celKnown 7 4) = 4 ∧ (watchesOf (celKnown 7 4) 2).any (fun w => rb (celKnown 7 4) (NET_WATCH w) NET_WATCH_SPONSOR) = true ∧
    watchState (celKnown 7 4) 0 = 1 ∧ (pay (List.replicate 8 0 ++ [0, 1] ++ List.replicate 54 0) 8 2 % 4096 = devId (celOn1 1 2)) ∧ jstate (celOn1 1 2) = 2 ∧
    pay [1] 0 1 = 1 ∧ pay [3] 0 1 = 3 ∧ pay [0] 0 1 = 0 ∧ pay [2] 0 1 ≠ 0 ∧ 2 ≠ devId (celKnown 7 4) := by decide +kernel

/-- Requests in the issuer's list, one standing; a request that waits; the overflow stop with and without a category that holds. -/
def issuing (stands : Bool) : Dev := modCel (fun c => { c with issued := [{ r := stopReq 1, stands := stands }] }) base.dev
def waitingStop : Dev := modCel (fun c => { c with pend := [(.put (stopReq 1), 0)] }) base.dev
def overflown (safe : Bool) : Dev := modCel (fun c => { c with ovf := some (1, safe) }) base.dev

theorem test_stop_lists : ((issuing true).cel.issued.find? (fun i => (i.r.epoch == 7 && i.r.req == 1) && i.stands)).isSome = true ∧
    (issuing false).cel.issued.all (fun i => !i.stands) = true ∧ (StopEvt.put (stopReq 1), 0) ∈ waitingStop.cel.pend ∧
    (waitingStop.cel.pend.filter (fun e => decide (e.2 + 500 * nsUnits ≤ { waitingStop with tb := 500 * nsUnits }.tb))) ≠ [] ∧
    (waitingStop.cel.pend.filter (fun e => decide (e.2 + 500 * nsUnits ≤ waitingStop.tb))) = [] ∧ (overflown true).cel.ovf = some (1, true) ∧
    (overflown false).cel.ovf ≠ some (1, true) ∧ (stopReq 1).scope = 0 ∧ ownHier base.dev / 1024 = 0 ∧
    stopReq 1 ∈ (stopped 2).cel.stops ∧ (stopReq 1).origin = 0 := by decide +kernel

/-- R200: RELEASE_OWN lifts the request that stands. -/
theorem test_release_own : (run (.releaseOwn .host 0) { base with dev := issuing true }).cel.pend.length = 1 ∧
    (run (.releaseOwn .host 0) { base with dev := issuing false }).cel.pend = [] := by decide +kernel

/-- An offer made that was not acknowledged, an offer taken. -/
def offered : Dev :=
  let x : CelUnit := (celOn1 1 3).cel
  let y : CelUnit := { x with made := [{ joiner := 2, joinAt := 4, newEpoch := 1 }], offers := [{ sponsor := 1, joiner := 2, newEpoch := 1, joinAt := 4, mac := 0 }] }
  { celOn1 1 3 with cel := { y with taken := some { sponsor := 3, joiner := 1, newEpoch := 1, joinAt := 0, mac := 0 } } }

theorem test_offers : (offered.cel.made.find? (fun x => x.joiner == 2 && !x.acked && tickAfter (tickNum { offered with tb := 9 * tickP offered }) (x.joinAt + 4294967292))).isSome = true ∧
    offered.cel.taken.map (·.joinAt) = some 0 ∧ offered.cel.offers.any (fun o => o.joiner == 2) = true ∧ offered.cel.offers.any (fun o => o.joiner == 5) = false ∧
    ({ offered.cel with forceJoin := true } : CelUnit).forceJoin = true ∧ offered.cel.forceJoin = false ∧ jstate offered = 3 := by decide +kernel

/-- R206: at JOIN_AT the device is JOINED. -/
theorem test_join_at : jstate (run .joinAtReached { base with dev := offered }) = 4 := by decide +kernel

/-! ### Web phase unit, feedback -/

/-- A RUNNING channel 0 whose generator is at position p (2^-32 nm) with a speed of 1 nm per ns, and a RUNNING bar 0 whose next position
is x, whose last fire had its leading edge at `lead`. -/
def webOn (p x : Int) (lead : Option Nat) : Dev :=
  setBar 0 { x := x, lead := lead, width := 100 } (setChan 0 { carried := true, gen := { pos := p, vel := 4294967296, since := base.dev.tb } }
    (fnOn (fnChan 0) .running (fnOn (fnBar 0) .running base.dev)))

/-- What an evaluation of the bar finds: is it near, in time, too late, too close to the fire before? -/
def webFinds (d : Dev) : Bool × Bool × Bool :=
  let x := getBar d 0
  let o := chanOut d (barChan d 0) d.tb
  let tf := barTf x o.1 o.2.1
  let step := ((max tf 0).toNat + 62) / 125
  (decide (0 < o.2.1 ∧ x.x - o.1 ≤ o.2.1 * 2004 ∧ (tf < -4000 ∨ step < 32)), decide (tf < -4000),
    match x.lead with | some l => decide (nowPs d + step * 125 < l + minGap x) | none => false)

theorem test_web : (fnIs (webOn 0 0 none) (fnBar 0) .running && chanRuns (webOn 0 0 none) (barChan (webOn 0 0 none) 0)) = true ∧
    webFinds (webOn 0 0 none) = (true, false, false) ∧ webFinds (webOn 0 0 (some 0)) = (true, false, true) ∧
    webFinds (webOn (5 * 4294967296) 0 none) = (true, true, false) ∧ (webFinds (webOn 0 (4294967296 * 4000) none)).1 = false ∧
    (webFinds (webOn 0 (4294967296 * 4) none)).1 = false ∧ (webFinds (webOn 0 (4294967296 * 3) none)).1 = true ∧
    latePending { (getBar (webOn 0 0 (some 1000)) 0) with lastLate := true } 0 = true ∧ stopInForce (stopped 1) = true ∧
    fnIs base.dev (fnBar 0) .running = false := by decide +kernel

/-- R232: the fire is counted. -/
theorem test_fire : rd (run (.printBarFire 0 0) { base with dev := webOn 0 0 none }) (WPU_BAR_FIRES 0) = 1#32 := by decide +kernel

/-- Channel 0 on encoder 0 that has not come to its standstill, an item on its positions, a pulse that is under way. -/
def webSrc : Dev :=
  setBar 0 { pulses := [(0, 0)] } (setChan 0 { encA := { still := false } } (wf (WPU_CH_CFG 0) WPU_CH_CFG_SRC_A 1 base.dev))

theorem test_web_sources : (getChan webSrc 0).encA.still = false ∧ srcKind webSrc 0 false = 1 ∧ srcKind base.dev 0 false ≠ 1 ∧ (getBar webSrc 0).pulses = [(0, 0)] ∧
    0 ≤ webSrc.tb * 1000 / nsUnits ∧ fnIs webSrc (fnBar 0) .stopping = false ∧ (getBar base.dev 0).pulses = [] ∧
    (∀ k, k < 4 → pulseFollows (clockToNs 5 (hostHears true base.dev)) k 0 = false) ∧ itemsAt 0 (clockToNs 5 (hostHears true base.dev)) = [] := by decide +kernel

/-- A waiting item whose release point is a position of channel 0 that has been reached. -/
def posItem (st : ItemSt) : Item := { parseItem workDesc with st := st, relMode := 2, master := 0, release := 0 }
def withItem (i : Item) : Dev := setItem 3 i (fnOn (fnChan 0) .running base.dev)

theorem test_position_items : itemsAt 0 (clockToNs 5 (hostHears true (withItem (posItem .waiting)))) = [3] := by decide +kernel

/-- Interface 0 in a mode. -/
def fbkIn (mode : Nat) (x : Fbk) : Dev := setFbk 0 x (wf (FBK_CFG 0) FBK_CFG_MODE mode base.dev)

theorem test_fbk : fbkSamples base.dev 0 = true ∧ fbkSamples State.reset.dev 0 = false ∧ fbkMode (fbkIn 0 {}) 0 < 2 ∧ fbkMode (fbkIn 2 {}) 0 = 2 ∧
    fbkMode (fbkIn 3 {}) 0 = 3 ∧ [0, 2, 3, 1].map quadIdx = [0, 1, 2, 3] := by decide +kernel

theorem test_fbk_lines : (List.range 4).all (fun a => (List.range 4).any (fun b => quadIdx b == (quadIdx a + 1) % 4)) = true ∧
    (∃ z, indexCond (fbkIn 0 { z := z, lines := 3, qual := false }) 0 = true) ∧
    (∃ z, indexCond (fbkIn 0 { z := z, lines := 0, qual := true }) 0 = false) := by
  refine ⟨by decide +kernel, ?_, ⟨false, by decide +kernel⟩⟩
  exact ⟨true, by decide +kernel⟩

/-- An SSI interface that runs, between frames and in one. -/
def ssiOn (busy : Bool) : Dev := fnOn 0 .running (fbkIn 3 { busy := busy })

theorem test_ssi : fbkMode (ssiOn false) 0 = 3 ∧ (getFn (ssiOn false) 0).state = .running ∧ (rawFbk (ssiOn false) 0).busy = false ∧
    (rawFbk (ssiOn true) 0).busy = true ∧ fbkIsMaster (ssiOn true) 0 = false ∧
    fbkIsMaster (fnOn (fnChan 0) .running webSrc) 0 = true := by decide +kernel

/-- Interface 0 connected to its three pads (R74). -/
def fbkPins (d : Dev) : Dev := wf (MFP_PIN 0) MFP_PIN_FSEL 2 (wf (MFP_PIN 1) MFP_PIN_FSEL 2 (wf (MFP_PIN 2) MFP_PIN_FSEL 2 d))

/-- R249: a first edge in the sequence counts up. -/
theorem test_quadrature : (rawFbk (run (.quadratureEdge 0 true false ⟨8, 100⟩) { base with dev := fnOn 0 .running (fbkPins (fbkIn 0 {})) }) 0).lines = 2 := by decide +kernel

/-! ### Generators, drive outputs -/

/-- Generator 0 in a state, RUNNING, in a mode. -/
def mpgOn (mode : Nat) (x : Mpg) : Dev :=
  let d := setMpg 0 x (fnOn (fnMpg 0) .running (wf (MPG_CFG 0) MPG_CFG_MODE mode base.dev))
  { d with live := smPut d.live (MPG_CFG 0) (rd d (MPG_CFG 0)) }

theorem test_mpg : (getMpg (mpgOn 0 { cmd := some 1, held := true }) 0).held = true ∧ stopInForce (mpgOn 0 {}) = false ∧ stopInForce (stopped 1) = true ∧
    fnIs (mpgOn 0 {}) (fnMpg 0) .running = true ∧ fnIs base.dev (fnMpg 0) .running = false ∧ mpgMode (mpgOn 0 { cmd := some 3 }) 0 ≠ 2 ∧
    mpgMode (mpgOn 2 { cmd := some 3 }) 0 = 2 ∧ (getMpg (mpgOn 0 { cmd := some 3, v := 1 }) 0).v ≠ 0 ∧ mpgMode (mpgOn 3 {}) 0 = 3 ∧
    max 1 (rf (mpgOn 3 {}) (MPG_STREAM_CFG 0) MPG_STREAM_CFG_STREAM_HOLD) ≤ (getMpg (mpgOn 3 { sIdle := 300 }) 0).sIdle ∧
    (getMpg (mpgOn 3 {}) 0).sIdle < max 1 (rf (mpgOn 3 {}) (MPG_STREAM_CFG 0) MPG_STREAM_CFG_STREAM_HOLD) := by decide +kernel

/-- An emulation output that runs with a backlog. -/
def emuOn : Dev := setEmu 0 { backlog := -2 } (fnOn (fnEmu 0) .running base.dev)

theorem test_emu : fnActive emuOn (fnEmu 0) = true ∧ (getEmu emuOn 0).backlog ≠ 0 ∧ (getEmu emuOn 0).last = none ∧ fnIs emuOn (fnEmu 0) .stopping = false ∧
    fnActive base.dev (fnEmu 0) = false ∧ (getEmu (Machine.emuStep 0 emuOn) 0).backlog = -1 ∧ (getEmu (Machine.emuStep 0 emuOn) 0).out = -1 := by decide +kernel

/-- Generator 0 on the step output of channel 0 with two steps to go in this tick; a stepper coil in its OFF phase; a PWM pair with what
it waits for. -/
def stepsOn : Dev := wf (MPG_CFG 0) MPG_CFG_OUT 1 (mpgOn 0 { segA := 0, segB := 2 * 4294967296, outPos := 0 })
def coilOff : Dev := setStp 0 { a := { phase := .off 0 none }, b := { phase := .off 0 none } } (fnOn (fnStp 0) .running base.dev)
def pwmOn : Dev :=
  setPwm 0 { run := true, len := 100, start := some 100, edges := [(3, true, false)], pend := some (5, 6, 0), aRise := some 0, bRise := some 0 } (fnOn (fnPwm 0) .running base.dev)

theorem test_drive : (stepDue stepsOn 0).isSome = true ∧ stepDue base.dev 0 = none ∧ fnIs coilOff (fnStp 0) .running = true ∧
    (offDue coilOff 0 (getStp coilOff 0).a).isSome = true ∧ (offDue coilOff 0 (getStp coilOff 0).b).isSome = true ∧ offDue base.dev 0 (getStp base.dev 0).a = none ∧
    (reloadDue pwmOn 0).isSome = true ∧ reloadDue base.dev 0 = none ∧ (refDue pwmOn 0).isSome = true ∧ refDue base.dev 0 = none ∧
    (deadDue pwmOn 0 false).isSome = true ∧ (deadDue pwmOn 0 true).isSome = true ∧ deadDue base.dev 0 false = none ∧
    (getPwm pwmOn 0).pend = some (5, 6, 0) ∧ (getPwm pwmOn 0).aRise = some 0 := by decide +kernel

theorem test_pwm_fault : (true = rb (wf (PWM_FLT_CFG 0) PWM_FLT_CFG_ACT 1 base.dev) (PWM_FLT_CFG 0) PWM_FLT_CFG_ACT) ∧
    rb (wf (PWM_FLT_CFG 0) PWM_FLT_CFG_ACT 0 base.dev) (PWM_FLT_CFG 0) PWM_FLT_CFG_ACT = false ∧ bitOf (rd base.dev PWM_FLT_STAT) 0 = false ∧
    bitOf (rd (wr PWM_FLT_STAT 1#32 base.dev) PWM_FLT_STAT) 0 = true := by decide +kernel

/-! ### Loops, scan, converters -/

theorem test_loops : ({ base.dev with lpe := { base.dev.lpe with slots := [(4, { resetStaged := true })] } } : Dev).lpe.slots = [(4, { resetStaged := true })] := rfl

/-- The scan engine with a start instant, idle and in a cycle; a snapshot that is being written. -/
def scanOn (c : Option ScnCycle) : Dev := modScn (fun u => { u with nextK := some 3, cycle := c, snap := some (0, 0, [1, 2]) }) base.dev

theorem test_scan : base.dev.scn.nextK = none ∧ (scanOn none).scn.nextK = some 3 ∧ (scanOn none).scn.cycle = none ∧ base.dev.scn.snap = none ∧
    (scnSync (scanOn (some { start := 0, t := 1000000000 * nsUnits }))).scn.cycle ≠ none ∧ (scanOn none).scn.snap = some (0, 0, [1, 2]) ∧ snapNewest [] = none ∧
    (¬ ((2 : Nat) = 0 ∨ 2 = 1 ∨ 2 = 6 ∨ 2 = 7)) ∧ winBeyond base.dev 0x35000 = false ∧ winDraft base.dev = true := by decide +kernel

theorem test_scan_window : winBeyond (wf SCN_WIN SCN_WIN_AREA 7 (wf SCN_WIN SCN_WIN_PAGE 15 base.dev)) 0x35FFC = true := by decide +kernel

/-- The base device ARMED with every kind of conversion asked for. -/
def adcOn (c : Option SarConv) : Dev :=
  setSar 0 { conv := c } (wf (ADC_SAR_BG 0 0) ADC_SAR_BG_EN 1 (wf (ADC_SAR_TICK 0) ADC_SAR_TICK_EN 1 { base.dev with cfg := { base.dev.cfg with state := .armed } }))

theorem test_adc : (getSar (adcOn none) 0).conv = none ∧ tickOn (adcOn none) 0 = true ∧ (adcOn none).tb % tickP (adcOn none) < effAddend (adcOn none) ∧
    adcArmed (adcOn none) = true ∧ rb (adcOn none) (ADC_SAR_REQ 0) ADC_SAR_REQ_BUSY = false ∧ bgFits (adcOn none) 0 = true ∧ bgPick (adcOn none) 0 = some 0 ∧
    rb (wf (ADC_SAR_REQ 0) ADC_SAR_REQ_BUSY 1 base.dev) (ADC_SAR_REQ 0) ADC_SAR_REQ_BUSY = true ∧ bgFits base.dev 0 = true ∧ rb base.dev SYS_READY SYS_READY_ADC = true ∧
    ((getSar (adcOn (some ⟨.tick, 0, 0, false, false, false, none⟩)) 0).conv).map (fun x => (x.kind, x.unsettled)) = some (.tick, false) ∧
    sarCode (-1) 0 = 0 ∧ 4096 * (5 : Int).toNat / 10 ≤ 4095 ∧ trgDue base.dev 0 0 = none ∧ rb base.dev (ADC_SD_CFG 0) ADC_SD_CFG_EN = false ∧
    adcArmed base.dev = false ∧ (getSd (clockTo (sdDue (adcOn none) 0) (adcOn none)) 0).seen < 2 ∧
    rb (wf (ADC_SD_CFG 0) ADC_SD_CFG_EN 1 (adcOn none)) (ADC_SD_CFG 0) ADC_SD_CFG_EN = true := by decide +kernel

/-- R349: the code of half the reference. -/
theorem test_sar_code : sarCode 5 10 = 2048 ∧ sarCode 11 10 = 4095 := by decide +kernel

/-! ### Acquisition -/

/-- Acquisition unit 0 RUNNING with a window on TB time, timers, a transition on FORCE. -/
def acqOn : Dev :=
  setAcq 0 { bound0 := some 0, tmr0 := some 5, tmr1 := some 5 } (fnOn (fnAcq 0) .running (wf (ACQ_W_CFG 0 0) ACQ_W_CFG_EN 1 (wr (ACQ_S_A 0 0) (fset 0 ACQ_S_A_COND 1) base.dev)))

theorem test_acq : winOn acqOn 0 0 = true ∧ acqActive acqOn 0 = true ∧ winPos acqOn 0 0 = false ∧ boundOf (getAcq acqOn 0) 0 = some 0 ∧
    winPos (wf (ACQ_W_CFG 0 0) ACQ_W_CFG_DOMAIN 1 acqOn) 0 0 = true ∧ winOn base.dev 0 0 = false ∧ acqActive base.dev 0 = false ∧
    (getAcq acqOn 0).tmr0 = some 5 ∧ (getAcq base.dev 0).tmr1 = none ∧ winBound acqOn 0 0 0 ≤ (tbNs acqOn : Int) ∧
    seqHolds acqOn 0 { t256 := 0, ev := .force } (rd acqOn (ACQ_S_A 0 (rf acqOn (ACQ_STAT 0) ACQ_STAT_STATE))) = true ∧
    seqHolds acqOn 0 { t256 := 0, ev := .force } (rd acqOn (ACQ_S_B 0 (rf acqOn (ACQ_STAT 0) ACQ_STAT_STATE))) = false ∧
    seqHolds (wr (ACQ_S_B 0 0) (fset 0 ACQ_S_A_COND 1) (wr (ACQ_S_A 0 0) 0 acqOn)) 0 { t256 := 0, ev := .force } (fset 0 ACQ_S_A_COND 1) = true ∧
    rb acqOn (ACQ_CFG 0) ACQ_CFG_TRIG_REC = false := by decide +kernel

/-! ### Further hypotheses of the statements on web, feedback, motion, drives -/

/-- Channel 0 with a USE command to judge, its other source valid or not. -/
def judged (b : Bool) : Dev := setChan 0 { getChan webSrc 0 with judge := some b } webSrc

/-- A web pulse at position 10 (nm), its master channel 0 RUNNING at 20 or 5. -/
def webPulse (at_ : Int) : Dev :=
  setPulse 0 { sched := some ⟨false, true, 0, 10, 0, 5, some 0⟩ } (setChan 0 { carried := true, gen := { pos := at_ * 4294967296, vel := 0, since := base.dev.tb } }
    (fnOn (fnPulse 0) .running (fnOn (fnChan 0) .running base.dev)))

theorem test_judging : (getChan (judged false) 0).judge = some false ∧ false = actB (judged false) 0 ∧ (getChan base.dev 0).judge = none ∧ true ≠ actB (judged true) 0 ∧
    clocked (inPower .calm none) = false ∧ ({ still := false, te := 0, inbox := [] } : EncTrk).inbox = [] := by decide +kernel

theorem test_web_pulses : chanRuns (webPulse 20) 0 = true ∧ (10 + (0 : Int) * 0) * nsUnits ≤ chanPos (webPulse 20) 0 ∧ chanPos (webPulse 5) 0 < (10 + (0 : Int) * 0) * nsUnits ∧
    (getPulse (webPulse 20) 0).sched = some ⟨false, true, 0, 10, 0, 5, some 0⟩ ∧ fnIs (webPulse 20) (fnPulse 0) .running = true ∧
    fnIs (getPulse (pulseReached 1 0 (webPulse 20)) 0 |> fun _ => base.dev) (fnPulse 0) .running = false ∧ (getPulse (pulseReached 1 0 (webPulse 20)) 0).high = true := by decide +kernel

/-- R236: APPLY captures the pending update, which the next bar takes up. -/
theorem test_update : ({ next := true, at_ := 5, offset := 1, stretch := 0 } : BarUpd).next = true ∧
    (getBar (barNext 0 (setBar 0 { upd := some ⟨true, 0, 7, 0⟩ } base.dev)) 0).offset = 7 ∧ (getBar (barNext 0 (setBar 0 { upd := some ⟨false, 7, 7, 0⟩ } base.dev)) 0).offset = 0 ∧
    ({ late := true } : Bar).late = true := by decide +kernel

/-- Pin 0 filtered by four TBCLK periods, interface 0 by three samples. -/
def filtered (m : Nat) : Dev := wf (MFP_PIN 0) MFP_PIN_FILT 4 (wf (FBK_CFG 0) FBK_CFG_FILT_N m (fbkPins (fbkIn 0 {})))

/-- R81, R245, R246: a short level does not pass the pad's filter; one that passes comes 19 ns later, and behind FILT_N further samples. -/
theorem test_arrivals : (fbkArrive 0 100 15 [(0, true)] (filtered 0)).2 = [] ∧ (fbkArrive 0 100 16 [(0, true)] (filtered 0)).2 = [(119, 0, true)] ∧
    (fbkArrive 0 100 16 [(0, true)] (filtered 3)).2 = [(122, 0, true)] ∧ (fbkArrive 0 100 16 [(0, true)] base.dev).2 = [] ∧
    pinConn (filtered 0) 0 = some (.fb 0 0) ∧ pinConn base.dev 0 ≠ some (.fb 0 0) := by decide +kernel

theorem test_ssi_frames : fbkMode (ssiOn false) 0 = 3 ∧ ((getFn (ssiOn false) 0).state = .running) ∧ (rawFbk (ssiOn true) 0).busy = true ∧
    (rawFbk (ssiOn true) 0).startFail = false ∧ parityOk (ssiOn true) 0 0 0 = true ∧ rb (ssiOn true) (FBK_SSI_CFG 0) FBK_SSI_CFG_GRAY = true ∧
    rf (ssiOn true) (FBK_SSI_CFG 0) FBK_SSI_CFG_FORMAT = 0 ∧ rf (ssiOn true) (FBK_SSI_CFG 0) FBK_SSI_CFG_BITS < 64 := by decide +kernel

theorem test_decoding : (List.range 4).all (fun a => (List.range 4).any (fun b => quadIdx b == (quadIdx a + 2) % 4)) = true ∧ hallSector 7 = 7 ∧
    (List.range 8).any (fun a => (List.range 8).any (fun b => hallSector a != 7 && hallSector b == (hallSector a + 1) % 6)) = true ∧
    (rawFbk base.dev 0).held = none ∧ rb base.dev (FBK_CFG 0) FBK_CFG_HYST = false ∧ (rawFbk base.dev 0).absorb = none ∧
    [0, 1, 2, 3].all (fun m => rf (wf (FBK_IDX_CFG 0) FBK_IDX_CFG_IDX_MODE m base.dev) (FBK_IDX_CFG 0) FBK_IDX_CFG_IDX_MODE == m) = true := by decide +kernel

/-- A Hall code of the sector after the code's. -/
def hallNext (a : Nat) : Nat := ((List.range 8).find? (fun b => hallSector b == (hallSector a + 1) % 6)).getD 0

/-- R252: a Hall code that follows counts up, an invalid one is an error. -/
theorem test_hall : (rawFbk (hallEdge 0 5 (hallNext 5) (setFbk 0 { lines := 5 } (fbkIn 2 {}))) 0).cnt = 1 ∧
    rb (hallEdge 0 5 7 (setFbk 0 { lines := 5 } (fbkIn 2 {}))) (FBK_STAT 0) FBK_STAT_HALL_ERR = true := by decide +kernel
theorem test_emu_early : (∃ t, (getEmu (setEmu 0 { last := some 0 } emuOn) 0).last = some t ∧ tbNs (setEmu 0 { last := some 0 } emuOn) < t + emuGap (setEmu 0 { last := some 0 } emuOn) 0) ∧
    (getEmu (setEmu 0 {} emuOn) 0).backlog = 0 ∧ (getEmu emuOn 0).backlog.natAbs ≠ 1 := by
  refine ⟨⟨0, by decide +kernel, by decide +kernel⟩, by decide +kernel, by decide +kernel⟩

/-- The PWM pair 0 STOPPING at a reload instant. -/
def pwmStops : Dev := fnOn (fnPwm 0) .stopping { pwmOn with tb := 100 * effAddend pwmOn } |> fun d => setPwm 0 { getPwm d 0 with start := none, t0 := 0 } d

theorem test_pwm_stops : (reloadDue pwmStops 0).map (fun t => decide (t ≤ pwmStops.tb)) = some true ∧ (getPwm pwmStops 0).start = none ∧ (getPwm pwmStops 0).peak = false ∧
    fnIs pwmStops (fnPwm 0) .stopping = true ∧ (getPwm pwmOn 0).bRise = some 0 ∧ (getPwm pwmOn 0).flt = false ∧ rb pwmOn (PWM_CFG 0) PWM_CFG_A_ONLY = false ∧
    ({ getPwm pwmOn 0 with ref := true } : Pwm).ref = true ∧ (0 ≤ pwmOn.tb) := by decide +kernel

/-- R297, R303: an OFF phase of 16 periods of 32 ns ends at its instant. -/
theorem test_coil_off : ((getStp coilOff 0).a.phase = .off 0 none) ∧ (offDue coilOff 0 (getStp coilOff 0).a) = some (rf coilOff (STP_CHOP 0) STP_CHOP_OFF_LEN * 32 * nsUnits) ∧
    fltOn (wf (MFP_PIN 240) MFP_PIN_FSEL 2 (wf (PWM_FLT_CFG 0) PWM_FLT_CFG_ACT 0 base.dev)) 0 = true ∧ fltOn base.dev 0 = false := by decide +kernel

/-! ### Work items and cores -/

/-- A work item of plane 1 for any core, its descriptor accepted by R394 and refused where the plane is 3. -/
def item (st : ItemSt) : Item := { parseItem workDesc with st := st, coreMask := 0xFFFF }
def itemOn (i : Item) : Dev := setItem 3 i (wf (SCH_CORE_STAT 0) SCH_CORE_STAT_STATE 1 base.dev)

theorem test_submit : submitRefusal base.dev workDesc = none ∧ submitRefusal base.dev (List.replicate 32 0) = some 2 ∧
    (submitBytes [] 0 0x20000000).isSome = true ∧ submitBytes [] 0 0x40000000 = none ∧ getItem base.dev 3 = none ∧
    (getItem (itemOn (item .waiting)) 3).map (fun i => (i.st, i.parent, i.seq, i.latest, i.relMode)) = some (.waiting, none, none, false, 0) ∧
    matched (item .waiting) = true ∧ matched { item .waiting with keys := [0x8000] } = false ∧ namesKey { item .waiting with keys := [0x8000] } 0x8000 = true ∧
    (opPool (itemOn (item .waiting)) 1).isSome = true ∧ 0x8000 ≤ (0x8000#32).toNat % 65536 := by decide +kernel

theorem test_item_states : (getItem (itemOn (item .ready)) 3).map (·.st) = some .ready ∧ (getItem (itemOn { item .ready with parent := some 1 }) 3).bind (·.parent) = some 1 ∧
    (getItem (itemOn (item (.running 0))) 3).map (·.st) = some (.running 0) ∧ (item .standing).st = .standing ∧
    (getItem (itemOn { item .waiting with relMode := 1 }) 3).map (fun i => (i.relMode, i.relReached)) = some (1, false) ∧
    ({ item .waiting with latest := true, copies := [⟨5, 0, 0, false⟩] } : Item).copies.any (·.key == 5) = true := by decide +kernel

/-- Two devices with a READY item: one whose core 0 is idle, one whose core 0 runs another item that it may take the place of. -/
def readyOn : Dev := itemOn (item .ready)
def busyOn : Dev := setCore 0 { stack := [7] } (setItem 7 { item (.running 0) with plane := 2 } (itemOn { item .ready with plane := 0 }))

theorem test_dispatch : (base.dev.sch.items.filter (fun e => e.2.st == .ready)) = [] ∧
    (ranked (readyOn.sch.items.filter (fun e => e.2.st == .ready))).map (·.1) = [3] ∧ idleCore readyOn (item .ready) = some 0 ∧ fitLevel readyOn (item .ready) = some 0 ∧
    idleCore busyOn { item .ready with plane := 0 } = none ∧ preemptCore busyOn { item .ready with plane := 0 } = some 0 ∧
    idleCore busyOn { item .ready with plane := 2 } = none ∧ preemptCore (setCore 0 { stack := [7, 8, 9, 10] } busyOn) { item .ready with plane := 0 } = none ∧
    (topItem busyOn 0).map (fun x => (x.1, x.2.late, x.2.relErr, x.2.seq)) = some (7, false, false, none) ∧ topItem base.dev 0 = none ∧
    flowHalted base.dev 0 = false ∧ effBudget base.dev = none ∧ tbRuns base.dev = true := by decide +kernel

/-- R401: the READY item goes to core 0. -/
theorem test_dispatched : (getCore (run (.dispatch ⟨[], 0⟩ true) { base with dev := readyOn }) 0).stack = [3] := by decide +kernel

/-- R342, R406: an uncorrectable error in a running, due slot and in an item. -/
theorem test_ecc : 5 ∈ liveSlots (setFn (fnSlot 5) { state := .running, included := true } base.dev) ∧
    slotDue (setFn (fnSlot 5) { state := .running, included := true } base.dev) 1 5 = true ∧ slotEcc (detectFault (fnSlot 5) 4 (setFn (fnSlot 5) { state := .running, included := true } base.dev)) 5 = true ∧
    (getItem (run (.dispatch ⟨[3], 0⟩ true) { base with dev := readyOn }) 3).isNone = true ∧
    rb (run (.dispatch ⟨[3], 0⟩ true) { base with dev := readyOn }) SCH_ERR SCH_ERR_ECC = true := by decide +kernel

theorem test_cores : isChecker base.dev 0 = false ∧ coreState base.dev 0 = 0 ∧ rb base.dev SYS_READY SYS_READY_CORES = true ∧ coreState readyOn 0 = 1 ∧
    rb (wf (SCH_CORE_CFG 0) SCH_CORE_CFG_LOCK 1 readyOn) (SCH_CORE_CFG 0) SCH_CORE_CFG_LOCK = true ∧ rb base.dev (SCH_CORE_CFG 0) SCH_CORE_CFG_LOCK = false := by
  decide +kernel

/-! ### Field link, CAN -/

/-- A block of expander 0 with a valid CRC: header, 16 input words of code 0 and value 7. -/
def blockBody (w : Nat) : List Byte := 0x80#8 :: (List.replicate 16 (leBytes 2 w)).flatten
def flkBlock (w : Nat) : List Byte := blockBody w ++ beBytes 2 (crc16 (blockBody w))

/-- Port 0 with expander 0 included and a frame open since 0. -/
def flkOn : Dev := setFlk 0 { open_ := some 0, last := some 0 } (wr (FLK_PORT_CFG 0) 1#32 base.dev)

theorem test_flk : rb base.dev SYS_READY SYS_READY_FLK = true ∧ rb State.reset.dev SYS_READY SYS_READY_FLK = false ∧ (getFlk flkOn 0).open_ = some 0 ∧
    (getFlk base.dev 0).open_ = none ∧ blockOk true (flkBlock 7) = true ∧ blockOk false (flkBlock 7) = false ∧ blockHdr (flkBlock 7) % 4 = 0 ∧
    hdrBit (flkBlock 7) 7 = true ∧ (decide (0 + 30500 < 23500 + 7000) = false) ∧ (decide (0 + 30500 < 23501 + 7000) = true) ∧ expIn flkOn 0 0 = true ∧
    smGet (getFlk flkOn 0).blocks 0 = none ∧ flkRaw (fnOn (fnFlk 0) .running flkOn) 0 = false ∧ (∀ l, (getFlk flkOn 0).last = some l → l % 31250 = 0) := by
  refine ⟨by decide +kernel, by decide +kernel, by decide +kernel, by decide +kernel, by decide +kernel, by decide +kernel, by decide +kernel, by decide +kernel,
    by decide, by decide, by decide +kernel, by decide +kernel, by decide +kernel, ?_⟩
  intro l hl
  have : (getFlk flkOn 0).last = some 0 := by decide +kernel
  rw [this] at hl
  cases hl
  rfl

theorem test_flk_points : blockIn (flkBlock 7) 0 = 7 ∧ blockIn (flkBlock 4103) 0 = 4103 ∧ ptType (wf (FLK_PT_CFG (flkPoint 0 0 0)) FLK_PT_CFG_TYPE 3 base.dev) (flkPoint 0 0 0) = 3 ∧
    ptType (wf (FLK_PT_CFG (flkPoint 0 0 0)) FLK_PT_CFG_TYPE 1 base.dev) (flkPoint 0 0 0) = 1 ∧
    ptType (wf (FLK_PT_CFG (flkPoint 0 0 0)) FLK_PT_CFG_TYPE 5 base.dev) (flkPoint 0 0 0) = 5 ∧
    (cntStep 5 { prev := some 4095, count := 10 }).count = 16 := by decide +kernel

/-- Controller 0 on the bus with a buffer pending, offered, in order. -/
def canOn (mode state : Nat) (x : CanUnit) : Dev :=
  setCan 0 x (wf (CAN_TXB_STAT 0 1) CAN_TXB_STAT_PENDING 1 (wf (CAN_STAT 0) CAN_STAT_STATE state (wf (CAN_CTRL 0) CAN_CTRL_MODE mode base.dev)))

theorem test_can : canMode (canOn 1 0 {}) 0 = 1 ∧ canState (canOn 1 0 {}) 0 < 2 ∧ txOffer (canOn 1 0 {}) 0 = some 1 ∧ txOffer base.dev 0 = none ∧
    canLive (canOn 1 0 {}) 0 = true ∧ canLive base.dev 0 = false ∧ canState (canOn 1 2 {}) 0 = 2 ∧ txPending (canOn 1 0 {}) 0 1 = true ∧
    txOffer (wf (CAN_CTRL 0) CAN_CTRL_TX_ORDER 1 (canOn 1 0 { order := [1] })) 0 = some 1 ∧ rb base.dev (CAN_CTRL 0) CAN_CTRL_ECHO = false ∧
    canMode (canOn 1 0 { cur := some { buf := 1, sof := 5 } }) 0 ≠ 3 ∧ (getCan (canOn 1 0 { cur := some { buf := 1, sof := 5 } }) 0).cur = some { buf := 1, sof := 5 } ∧
    (getCan base.dev 0).cur = none ∧ (getCan (canOn 1 0 { tec := 256 }) 0).tec = 256 := by decide +kernel

/-- A ring that streams controller 0. -/
def canStream (n : Nat) : Dev := setCan 0 { fifo := List.replicate n ([], false) } (ringOn 2 [])

theorem test_can_stream : streamOn (canStream 32) 2 0 = true ∧ streamOn base.dev 2 0 = false ∧ 32 ≤ (getCan (canDrain 32 0 (canStream 32)) 0).fifo.length ∧
    (getCan (canDrain 32 0 (canStream 31)) 0).fifo.length < 32 := by decide +kernel

/-- R463: a frame sent shows TX_OK. -/
theorem test_can_sent : rb (run (.txOk 0 0 false 10 true) { base with dev := canOn 1 0 { cur := some { buf := 1, sof := 5 } } }) (CAN_TXB_STAT 0 1) CAN_TXB_STAT_TX_OK =
    true := by decide +kernel

/-! ### Safety island, twin -/

/-- A configuration of the island: output 0 in use with a test time of 1 s, input 0 of category 4, a squall window of 2 ms, STILL in
force after 3 ms; the device with it, output 0 in a state. -/
def safBytes : List Byte :=
  List.replicate 0x0B 0 ++ [1] ++ leBytes 4 2 ++ leBytes 4 3 ++ List.replicate 12 0 ++ [1, 4, 0, 0, 1, 0, 0, 0] ++ List.replicate 120 0 ++ [1, 0, 0, 0, 1, 0, 0, 0] ++
    List.replicate 64 0

def safOn (st : SafOutSt) (n : Nat) : Dev :=
  setOut 0 { st := st } { base.dev with saf := { base.dev.saf with cfg := some safBytes, init := false, chA := { n := n, ins := [(0, { still := 12 })] }, chB := { n := n } } }

theorem test_saf : (getOut base.dev.saf 0).st = .off ∧ base.dev.saf.lockout = 0 ∧ (getOut (safOn .squall 8).saf 0).st = .squall ∧ 0 ∈ inSquall (safOn .squall 8).saf ∧
    squallMs safBytes = 2 ∧ 0 + 4 * 2 ≤ (safOn .squall 8).saf.chA.n ∧ stillMode safBytes = 1 ∧ inMode safBytes 0 ≠ 0 ∧ inCat safBytes 0 = 4 ∧
    4 * stillMs safBytes ≤ (getIn (safOn .squall 8).saf.chA 0).still ∧ outUsed safBytes 0 = true ∧ outUsed safBytes 1 = false ∧ outTestS safBytes 0 = 1 ∧
    (safOn .on 4000).saf.chA.n = 0 + 4000 * 1 ∧ (getOut (safOn .on 4000).saf 0).st ≠ .off ∧
    ({ base.dev.saf with lockout := 3 } : SafUnit).lockout ≠ 0 := by decide +kernel

/-- R485: the end of the squall window cuts the output. -/
theorem test_squall_end : (getOut (run .squallWindowEnd { base with dev := safOn .squall 8 }).saf 0).st = .off ∧
    (getOut (run .squallWindowEnd { base with dev := safOn .squall 7 }).saf 0).st = .squall := by decide +kernel

/-- R486: at an acknowledgement that both channels have seen, an output without a demand against it turns on. -/
theorem test_turns_on :
    let d := modSaf (fun u => { u with chA := { u.chA with ack := 2 }, chB := { u.chB with ack := 2 } }) (safOn .off 8)
    (getOut d.saf 0).st = .off ∧ (getOut (safEval true ⟨0, 0, 0, 255, 0, false⟩ d).saf 0).st = .on := by decide +kernel

/-- The twin in a role. -/
def twnIn (r : Nat) (f : TwnUnit → TwnUnit) : Dev := setRole r (fnOn fnTwn .running { base.dev with twn := f base.dev.twn })

theorem test_twin : fnIs (twnIn 0 id) fnTwn .running = true ∧ twnRole (twnIn 2 id) = 2 ∧ twnRole (twnIn 3 id) = 3 ∧ twnRole base.dev = 0 ∧
    (twnIn 2 (fun t => { t with sync := some true })).twn.sync ≠ none ∧ (twnIn 2 id).twn.sync = none ∧
    (∃ e ∈ (twnIn 2 (fun t => { t with crcs := [(5, 6)] })).twn.crcs, e.1 = 5 ∧ e.2 ≠ 7) := by decide +kernel

/-- R494: two unpaired devices with one image: the one that is preferred owns. -/
theorem test_pairing : twnRole (run (.hello ⟨0, 0, 5, 0, 0, 0, []⟩) { base with dev := wf TWN_CFG TWN_CFG_PREF 1 (twnIn 0 id) }) = 1 ∧
    twnRole (run (.hello ⟨0, 0, 5, 0, 0, 128, []⟩) { base with dev := twnIn 0 id }) = 3 := by decide +kernel

theorem test_low_power : awake (inPower .calm none) = false ∧ awake (inPower .lull none) = false ∧ awake (inPower .breeze none) = true := by decide +kernel

/-! ### Further hypotheses of the statements on loops, converters, acquisition, work items, field link, CAN, island, twin -/

/-- Slot 5 RUNNING, its measured value the set-point value x in force. -/
def slotOn (x : Word) : Dev :=
  let d := wr (LPE_SLOT_SRC_Y 5) (fset 0 LPE_SLOT_SRC_Y_KIND 1) (fnOn (fnSlot 5) .running base.dev)
  { d with live := smPut d.live (LPE_SLOT_SP_VAL 5) x }

theorem test_slot_law : (match slotLaw (slotOn 0x3F800000#32) 5 {} with | .ok y => y.out.isSome | .error _ => false) = true ∧
    (match slotLaw (slotOn 0x7FC00000#32) 5 {} with | .ok _ => false | .error c => c == 2) = true ∧
    (readSrc (slotOn 0x7FC00000#32) 5 (rd (slotOn 0x7FC00000#32) (LPE_SLOT_SRC_Y 5))).stale = false ∧
    fFinite (readSrc (slotOn 0x7FC00000#32) 5 (rd (slotOn 0x7FC00000#32) (LPE_SLOT_SRC_Y 5))).f = false := by decide +kernel

/-- Trace unit 0 with a new configuration that turns it on, over a legal region or not; armed with a trigger that waits. -/
def trcNew (size : Nat) : Dev := setTrc 0 { getTrc base.dev 0 with dirty := true } (wr (LPE_TRC_BASE 0) 0x30000000#32
  (wf (LPE_TRC_CTRL 0) LPE_TRC_CTRL_SIZE_LOG2 size (wf (LPE_TRC_CFG 0) LPE_TRC_CFG_EN 1 base.dev)))
def trcTrig : Dev := setTrc 0 { getTrc base.dev 0 with trigger := true, cfg := fset (fset 0 LPE_TRC_CFG_EN 1) LPE_TRC_CFG_TRIG 3 } base.dev

theorem test_trace : trcRegionOk (trcNew 10) 0 = true ∧ trcRegionOk (trcNew 25) 0 = false ∧ (getTrc (trcNew 10) 0).dirty = true ∧
    fget (getTrc (trcNew 10) 0).cfg LPE_TRC_CFG_EN ≠ 1 ∧ fget (rd (trcNew 10) (LPE_TRC_CFG 0)) LPE_TRC_CFG_EN = 1 ∧
    fget (getTrc (trcTick1 0 (trcNew 10)) 0).cfg LPE_TRC_CFG_EN = 1 ∧ rb (trcTick1 0 (trcNew 25)) (LPE_TRC_STAT 0) LPE_TRC_STAT_BAD_REGION = true ∧
    fget (getTrc trcTrig 0).cfg LPE_TRC_CFG_TRIG = 3 ∧ rb (trcTick1 0 trcTrig) (LPE_TRC_STAT 0) LPE_TRC_STAT_TRIGGERED = true := by decide +kernel

/-- Converter 0 with what it has in progress; a stepper channel RUNNING whose coils it measures. -/
def sarHas (f : Sar → Sar) : Dev := setSar 0 (f (getSar (adcOn none) 0)) (adcOn none)
def sensed : Dev := fnOn (fnStp 0) .running (wf (STP_SENSE 0) STP_SENSE_AIN_B 1 (adcOn none))

theorem test_sar_hypotheses : (getSar (sarHas (fun x => { x with deferred := [2] })) 0).deferred = [2] ∧ bgFits (sarHas (fun x => { x with deferred := [2] })) 0 = false ∧
    bgPick (sarHas (fun x => { x with bg := { x.bg with n := 1 }, bgEntry := 4 })) 0 = some 4 ∧ coilsOn sensed 0 = [(0, false), (0, true)] ∧
    (nextFrame sensed 0 0).isSome = true ∧ nextFrame base.dev 0 0 = none ∧ inputInUse sensed false 0 = true ∧ inputInUse base.dev false 0 = false ∧
    refErr base.dev 0 = false ∧ refErr (refLost 0 base.dev) 0 = true ∧
    ((getSar (refLost 0 (sarHas (fun x => { x with conv := some ⟨.req, 0, 0, false, false, false, none⟩ }))) 0).conv).map (·.dead) = some true := by decide +kernel

/-- R362: the sigma-delta's number of a quarter of the reference, and its bound with OVR. -/
theorem test_sd_code : sdCode 1 4 = (2097152, false) ∧ sdCode 5 4 = (8388607, true) ∧ sdCode (-5) 4 = (-8388607, true) := by decide +kernel

/-- Unit 0 in the snapshot mode or streaming, with a gap open or not. -/
def acqHas (stream : Bool) (f : Acq → Acq) : Dev := let d := if stream then fnOn (fnAcq 0) .running (ringOn 3 []) else wf (ACQ_CFG 0) ACQ_CFG_MODE 1 acqOn; setAcq 0 (f (getAcq d 0)) d

theorem test_acq_hypotheses : acqStream (acqHas false id) 0 = false ∧ rb (acqHas false id) (ACQ_STAT 0) ACQ_STAT_TRIGGERED = false ∧
    (getAcq (acqHas false (fun x => { x with gap := some (1, 2, 3), trigAt := some 5 })) 0).gap = some (1, 2, 3) ∧ (getAcqCh (getAcq acqOn 0) 0).high = false ∧
    ([] : List (Nat × Nat)).Pairwise (fun a b => a.1 ≤ b.1) ∧ (getAcq (seqTake 0 256 (fset 0 ACQ_S_A_TRIG 1) (acqHas false id)) 0).trigAt = some 1 ∧ fnIs base.dev (fnAcq 0) .ready = false := by decide +kernel

/-- Work items: standing with its operands, with a release time, of a full pool; copies of two keys. -/
def standing : Item := { item .standing with keys := [0x8000], copies := [⟨0x8000, 7, 0, false⟩] }

theorem test_item_hypotheses : matched standing = true ∧ (0 : Nat) < standing.maxInst + 1 ∧ (slotPool base.dev 1).isSome = true ∧
    (takeOps [5] [⟨4, 1, 0, false⟩, ⟨5, 2, 0, false⟩]) = ([2], [⟨4, 1, 0, false⟩]) ∧ 0 < tickP base.dev ∧ 1500 * nsUnits ≤ tickP base.dev ∧
    (∃ k, k < 4096 ∧ getItem base.dev k = none) ∧ submitBytes [] 0 0x10000 = some (List.replicate 32 0) ∧
    submitRefusal base.dev (leBytes 4 0x180000 ++ List.replicate 28 0) = some 0 ∧ submitRefusal base.dev (leBytes 4 0x80000000 ++ List.replicate 28 0) = some 0 ∧
    submitRefusal base.dev (leBytes 4 0x10080000 ++ List.replicate 12 0 ++ leBytes 2 0x7FFF ++ List.replicate 14 0) = some 1 := by
  refine ⟨by decide +kernel, by decide +kernel, by decide +kernel, by decide +kernel, by decide +kernel, by decide +kernel, ⟨0, by decide +kernel⟩, by decide +kernel,
    by decide +kernel, by decide +kernel, by decide +kernel⟩

/-- An ordered flow: the item with number 0 is held, one with number 1 too; a number that is gone. -/
def flowOn (gone : List Nat) : Dev :=
  setFlow 0 { getFlow base.dev 0 with gone := gone, nextSeq := 2 } (setItem 4 { item .held with seq := some 1 } (setItem 3 { item .held with seq := some 0 } base.dev))

theorem test_flows : 0 ∉ (getFlow (flowOn []) 0).gone ∧ (flowOn []).sch.items.map (fun e => (e.1, e.2.flow, e.2.st, e.2.seq)) = [(3, 0, .held, some 0), (4, 0, .held, some 1)] ∧
    rf (flowOn []) (SCH_FLOW_STAT 0) SCH_FLOW_STAT_NEXT_REL = 0 ∧ 0 ∈ (getFlow (flowOn [0]) 0).gone ∧
    flowHalted (wf (SCH_FLOW_STAT 0) SCH_FLOW_STAT_HALTED 1 (flowOn [0])) 0 = true ∧ (releaseFlow 4097 0 (flowOn [])).sch.items = [] := by decide +kernel

/-- A budget that is exceeded by core 0's item of level 0, which may go slower; records asked for. -/
def hotOn : Dev := wf (SCH_CLASS 0) SCH_CLASS_SLOWEST 3 (wf SCH_ECOEF ⟨7, 0⟩ 100 (wf SCH_BUDGET SCH_BUDGET_BUDGET_MW 1
  (setCore 0 { stack := [3] } (setItem 3 (item (.running 0)) base.dev))))

theorem test_budget : effBudget hotOn = some 1 ∧ 4 * 1 < committed4 hotOn ∧ (item .ready).level < rf hotOn (SCH_CLASS (item .ready).cls) SCH_CLASS_SLOWEST ∧
    getItem (accrue 0 hotOn) 3 ≠ none ∧ fitLevel hotOn (item .ready) = none ∧ (topItem hotOn 0).map (·.1) = some 3 ∧
    Nat.testBit (rf (wf SCH_EDDY_CFG SCH_EDDY_CFG_KINDS 2 hotOn) SCH_EDDY_CFG SCH_EDDY_CFG_KINDS) 1 = true ∧ hotOn.sch.eddy.length < 256 := by decide +kernel

/-- R391: a locked pair that runs. -/
def lockedOn : Dev := wf (SCH_CORE_STAT 1) SCH_CORE_STAT_STATE 2 (wf (SCH_CORE_CFG 0) SCH_CORE_CFG_LOCK 1 readyOn)

theorem test_lockstep : rb lockedOn (SCH_CORE_CFG 0) SCH_CORE_CFG_LOCK = true ∧ coreState lockedOn 0 = 1 ∧ coreState lockedOn 1 = 2 ∧
    coreState (run (.lockstepMismatch 0 5 true) { base with dev := lockedOn }) 0 = 3 := by decide +kernel

/-- Port 0 with parameters waiting, in flight, answered or not. -/
def flkHas (f : FlkPort → FlkPort) : Dev := setFlk 0 (f (getFlk flkOn 0)) flkOn
def flight : FlkPort → FlkPort := fun x => { x with flight := [(⟨0, some 1, 0, 3⟩, 0)], sent := 2, blocks := [(0, flkBlock 7)] }

theorem test_flk_hypotheses : (getFlk (flkHas flight) 0).flight.filter (fun q => decide (q.2 + 2 ≤ (getFlk (flkHas flight) 0).sent)) = [(⟨0, some 1, 0, 3⟩, 0)] ∧
    smGet (getFlk (flkHas flight) 0).blocks 0 = some (flkBlock 7) ∧ hdrBit (flkBlock 7) 3 = false ∧ hdrBit (0x88#8 :: flkBlock 7) 3 = true ∧
    (getFlk (flkHas (fun x => { x with owned := 2 })) 0).owned = 2 ∧ hdrBit (0#8 :: []) 7 = false ∧ blockIn (flkBlock 0x8000) 0 / 4096 = 8 ∧
    (0 : Nat) ∉ (getFlk flkOn 0).bad ∧ flkRaw (fnOn (fnFlk 0) .running (wf (FLK_PORT_STAT 0) FLK_PORT_STAT_PARAM_DONE 1 flkOn)) 0 = false := by decide +kernel

/-- A buffer on the bus, to be cancelled or not, alone or to be sent again. -/
def canSends (cancel once : Bool) : Dev := wb (CAN_CTRL 0) CAN_CTRL_ONESHOT once (canOn 1 0 { cur := some { buf := 1, sof := 5, cancel := cancel } })

theorem test_can_hypotheses : rb (bump (CAN_TXB_STAT 0 1) CAN_TXB_STAT_ARB_LOST (canSends false true)) (CAN_CTRL 0) CAN_CTRL_ONESHOT = true ∧
    rb (bump (CAN_TXB_STAT 0 1) CAN_TXB_STAT_ARB_LOST (canSends false false)) (CAN_CTRL 0) CAN_CTRL_ONESHOT = false ∧
    ((getCan (canSends true true) 0).cur).map (·.cancel) = some true ∧
    rb (run (.canFrameReceive 0 1 0 0 5 [] 10 true) { base with dev := canSends true true }) (CAN_TXB_STAT 0 1) CAN_TXB_STAT_CANCELLED = true ∧
    rb (run (.canFrameReceive 0 1 0 0 5 [] 10 true) { base with dev := canSends false true }) (CAN_TXB_STAT 0 1) CAN_TXB_STAT_TX_FAIL = true := by decide +kernel

/-- An input of the island under demand that is pressed, a discrepancy, a readback that differs, a test that is due. -/
theorem test_saf_hypotheses : (outputTest 0 false (safOn .on 4000)).saf.faults = 1 ∧ (outputTest 0 true (safOn .on 4000)).saf.faults = 0 ∧
    (List.range 8).filter (outUsed safBytes) = [0] ∧ (List.range 16).filter (inDemands safBytes) = [] ∧ (getCh (safOn .on 4000).saf false).dead = false ∧
    (filtStep 2 true { lvl := false, n := 2 }) = { lvl := true, n := 0 } ∧ (filtStep 2 true { lvl := false, n := 1 }) = { lvl := false, n := 2 } ∧
    (safOn .on 4000).saf.intFault = false ∧ usedOuts (safOn .on 4000).saf = [0] ∧ usedOuts base.dev.saf = [] ∧ coreOff base.dev = false ∧
    dedLevel base.dev .safFaultN = .low := by decide +kernel

/-- A shadow that has the OWNER's image of a tick; an owner that hands over. -/
def helloOf (health : Nat) : TwnHello := ⟨0, 0, 5, 0, 0, health, [1, 2, 3, 4]⟩
def shadowHas (f : TwnUnit → TwnUnit) : Dev := twnIn 2 (fun t => f { t with peer := some (helloOf 0), states := [(5, ⟨[0], some 0, [.gen 1 2 3]⟩)] })

theorem test_twin_hypotheses : stateComplete (shadowHas id) 5 = true ∧ stateComplete (shadowHas id) 4 = false ∧
    shadowFit 5 (shadowHas id) = true ∧ (helloOf 0).health % 2 = 0 ∧ (shadowHas id).twn.peer = some (helloOf 0) ∧
    (shadowHas (fun t => { t with ho := some (5, 2, true) })).twn.ho = some (5, 2, true) ∧ twnIncluded (shadowHas id) = true ∧
    (shadowHas (fun t => { t with faultAt := some 0, lanesAt := some 4 })).twn.faultAt = some 0 ∧ (0 : Nat) + 500 ≤ tbNs { shadowHas id with tb := 500 * nsUnits } ∧
    tickAfter 5 4 = true := by decide +kernel

/-- R500: a SHADOW that saw the OWNER's FAULT takes over; the outputs are its own. -/
theorem test_takeover : (twnRole (twnDetect 6 { shadowHas (fun t => { t with faultAt := some 0 }) with tb := 500 * nsUnits }) = 1) ∧
    (twnDetect 6 { shadowHas (fun t => { t with faultAt := some 0 }) with tb := 500 * nsUnits }).twn.ownPin = true ∧
    twnRole (twnHandover 5 (shadowHas (fun t => { t with ho := some (5, 2, true) }))) = 1 := by decide +kernel

/-- Trace unit 0 records the two words r and u of slot 5. -/
def trcRec : Dev := setTrc 0 { getTrc base.dev 0 with cfg := fset (fset (fset 0 LPE_TRC_CFG_EN 1) LPE_TRC_CFG_SLOT 5) LPE_TRC_CFG_NODES 3, size := 10 } base.dev

/-- R344: a record goes to WPTR and moves it on, wraps at the end of the region, or is dropped and counted. -/
theorem test_trace_record : trcOn trcRec 0 = true ∧ fget (getTrc trcRec 0).cfg LPE_TRC_CFG_SLOT = 5 ∧
    rd (trcStep 7 5 { u := 0, nodes := List.replicate 14 1 } trcRec) (LPE_TRC_WPTR 0) = 12#32 ∧
    rd (trcStep 7 5 { u := 0, nodes := List.replicate 14 1 } (wr (LPE_TRC_WPTR 0) 1020#32 trcRec)) (LPE_TRC_WPTR 0) = 12#32 ∧
    rf (trcStep 7 5 { u := 0, nodes := List.replicate 14 1 } { trcRec with lpe := { trcRec.lpe with late := [0] } }) (LPE_TRC_STAT 0) LPE_TRC_STAT_LOST = 1 ∧ trcOn base.dev 0 = false := by decide +kernel

end Sys2Proof.Tests
end

section
/-! SUPPORT. Frame laws that accesses rest on: what a loop keeps, what a look at the pads, a message of the endpoint and a refused access
leave alone. -/
namespace Sys2Proof.Machine
open Sys2Proof Sys2Proof.Reg

/-- What every turn of a loop keeps, the loop keeps. -/
theorem forEach_keeps {α β : Type} (g : Dev → β) (f : α → Dev → Dev) (xs : List α) (h : ∀ x ∈ xs, ∀ d, g (f x d) = g d) (d : Dev) :
    g (forEach xs f d) = g d := by
  induction xs generalizing d with
  | nil => rfl
  | cons x t ih =>
    have ht : g (forEach t f (f x d)) = g (f x d) := ih (fun y hy => h y (List.mem_cons_of_mem _ hy)) _
    exact ht.trans (h x List.mem_cons_self d)

/-! ### A look at the pads (R71, R313) -/

@[simp] theorem detectFault_regs (x code : Nat) (d : Dev) : (detectFault x code d).regs = d.regs := by
  unfold detectFault; repeat' split
  all_goals rfl

@[simp] theorem rd_padDriven (n : Nat) (l : Option Bool) (since : Nat) (d : Dev) (j : Nat) : rd (padDriven n l since d) j = rd d j := by
  unfold padDriven; split
  · rfl
  · exact rd_modMfp _ _ _

/-- A pair that drives FLT_STATE changes no register below the PWM block. -/
theorem rd_pwmFault_below (p : Nat) (d : Dev) {j : Nat} (hj : j < 0x24000) : rd (pwmFault p d) j = rd d j := by
  have hne : j ≠ PWM_STAT p := by unfold PWM_STAT; omega
  have hset : ∀ x, rd (wf (PWM_STAT p) PWM_STAT_FLT_ACTIVE 1 (setPwm p x d)) j = rd d j := fun x => by rw [rd_wf_other _ _ _ hne]; rfl
  unfold pwmFault
  dsimp only
  split
  · rw [rd_congr (detectFault_regs _ _ _), hset]
  · rw [hset]

/-- Fault inputs that become active change no register below the PWM block. -/
theorem rd_fltSync_below (d : Dev) {j : Nat} (hj : j < 0x24000) : rd (fltSync d) j = rd d j := by
  have hne : j ≠ PWM_FLT_STAT := by unfold PWM_FLT_STAT; omega
  unfold fltSync
  dsimp only
  split
  · rfl
  · refine forEach_keeps (fun e => rd e j) _ _ (fun g _ e => ?_) _
    split
    · refine (forEach_keeps (fun e => rd e j) _ _ (fun p _ e => ?_) _).trans (rd_wf_other _ _ _ hne)
      split
      · exact rd_pwmFault_below _ _ hj
      · rfl
    · exact rd_wf_other _ _ _ hne

/-- What the pads show changes no register below the PWM block. -/
theorem rd_padsSeen_below (pads : List (Nat × Option Bool × Nat)) (d : Dev) {j : Nat} (hj : j < 0x24000) : rd (padsSeen pads d) j = rd d j :=
  (rd_fltSync_below _ hj).trans (forEach_keeps (fun e => rd e j) _ _ (fun _ _ _ => rd_padDriven _ _ _ _ _) d)

/-- Where the host's access goes depends on nothing but the aperture (R45). -/
theorem hostPlace_congr {d e : Dev} (h : rd d SYS_APERTURE = rd e SYS_APERTURE) (a n : Nat) : hostPlace d a n = hostPlace e a n := by
  unfold hostPlace rf; rw [h]

/-- An access goes where it went before the pads were looked at. -/
theorem placeOf_padsSeen (pads : List (Nat × Option Bool × Nat)) (acc : Bool) (d : Dev) (m : Master) (a n : Nat) :
    placeOf (padsSeen pads (hostHears acc d)) m a n = placeOf d m a n := by
  cases m with
  | host => exact hostPlace_congr (rd_padsSeen_below pads _ (show SYS_APERTURE < 0x24000 by decide)) a n
  | core | debug | boot => rfl

/-! ### Messages of the endpoint, refused accesses (R11, R50, R160, R161) -/

@[simp] theorem sendMsix_memq (v : Nat) (d : Dev) : (sendMsix v d).memq = d.memq := by
  unfold sendMsix; dsimp only; split
  · rfl
  · exact wf_memq _ _ _ _

theorem rd_sendMsix_below (v : Nat) (d : Dev) {j : Nat} (hj : j < 0x4000) : rd (sendMsix v d) j = rd d j := by
  unfold sendMsix; dsimp only; split
  · rfl
  · exact rd_wf_other _ _ _ (by unfold HIF_MSIX_PBA; omega)

@[simp] theorem hifEvent_memq (bit : Nat) (d : Dev) : (hifEvent bit d).memq = d.memq := by
  unfold hifEvent; dsimp only; repeat' split
  all_goals simp

/-- A HIF event changes no register below the HIF block. -/
theorem rd_hifEvent_below (bit : Nat) (d : Dev) {j : Nat} (hj : j < 0x4000) : rd (hifEvent bit d) j = rd d j := by
  have hne : j ≠ HIF_EVT_STAT := by unfold HIF_EVT_STAT; omega
  unfold hifEvent; dsimp only; repeat' split
  · rfl
  · rw [rd_sendMsix_below _ _ hj, rd_wf_other _ _ _ hne]
  · exact rd_wf_other _ _ _ hne

@[simp] theorem accessErr_memq (k : AccKind) (m : Master) (off : Nat) (d : Dev) : (accessErr k m off d).memq = d.memq := by
  unfold accessErr; dsimp only; split <;> simp

/-- A refused access sets the flag of its kind. -/
theorem rb_accessErr_flag (k : AccKind) (m : Master) (off : Nat) (d : Dev) : rb (accessErr k m off d) SYS_ACCESS_ERR ⟨k.num, k.num⟩ = true := by
  have hk : k.num < 4 := by cases k <;> decide
  have hset : rf (wf SYS_ACCESS_ERR ⟨k.num, k.num⟩ 1 d) SYS_ACCESS_ERR ⟨k.num, k.num⟩ = 1 := by
    rw [rf_wf_same _ _ _ _ (Nat.le_refl _) (show k.num < 32 by omega)]
    simp [Fld.width]
  unfold accessErr rb
  simp only [rf, rd_hifEvent_below 2 _ (show SYS_ACCESS_ERR < 0x4000 by decide), beq_iff_eq]
  split
  · rw [rd_wf_same, fget_fset_other]
    · exact hset
    all_goals simp only [SYS_ACCESS_ERR_OVERFLOW]; omega
  · rw [rd_wr_other _ _ (show SYS_ACCESS_ERR ≠ SYS_ACCESS_ADDR by decide)]
    exact hset

end Sys2Proof.Machine
end

section
/-! Accesses to memory: ECC errors, closed regions of MRAM (R48, R50, R128). -/
namespace Sys2Proof.Machine
open Sys2Proof Sys2Proof.Reg

/-! ### Commands of a master -/

/-- A command of a master whose plane has its clock makes of the device what its effect says. -/
theorem runFor_acts (m : Master) (acc : Bool) (f : Memory → Dev → Dev) (s : State) (h : masterActs m s.dev = true) :
    s.runFor m acc f = s.after (f s.mem (hostHears acc s.dev)) := by
  have h' : masterActs m (hostHears acc s.dev) = true := h
  simp only [State.runFor, State.runIf, State.runHost, h', if_true]

/-- MEMORY_ACCESS of memory by its address: the access where it goes, after a look at the pads. -/
theorem gives_memoryAccess (m : Master) (addr : Nat) (q : MemReq) (e : Ecc) (pads : List (Nat × Option Bool × Nat)) (s : State)
    (h : masterActs m s.dev = true) (hp : placeOf s.dev m addr q.len ≠ .none) :
    Gives (.memoryAccess m addr q ⟨e, .map, pads⟩) s (memoryAccess s.mem m addr q e (padsSeen pads (hostHears true s.dev))) := by
  have hne : (placeOf s.dev m addr q.len == MemPlace.none) = false := beq_eq_false_iff_ne.2 hp
  show execMemoryAccess m addr q ⟨e, .map, pads⟩ s = _
  simp only [execMemoryAccess, hne, Bool.and_false, Bool.false_eq_true, if_false, runFor_acts _ _ _ _ h]

/-- A read of memory by its address. -/
theorem gives_memoryRead (m : Master) (addr a n : Nat) (e : Ecc) (pads : List (Nat × Option Bool × Nat)) (s : State)
    (h : masterActs m s.dev = true) (hp : placeOf s.dev m addr n = .mem a) :
    Gives (.memoryAccess m addr (.read n) ⟨e, .map, pads⟩) s (memoryRead s.mem m addr a n e (padsSeen pads (hostHears true s.dev))) := by
  have hlen : placeOf s.dev m addr (MemReq.read n).len = .mem a := hp
  have hg := gives_memoryAccess m addr (.read n) e pads s h (by simp [hlen])
  simpa only [memoryAccess, placeOf_padsSeen, hlen] using hg

/-- A write of memory by its address. -/
theorem gives_memoryWrite (m : Master) (addr a : Nat) (bs : List Byte) (e : Ecc) (pads : List (Nat × Option Bool × Nat)) (s : State)
    (h : masterActs m s.dev = true) (hp : placeOf s.dev m addr bs.length = .mem a) :
    Gives (.memoryAccess m addr (.write bs) ⟨e, .map, pads⟩) s (memoryWrite m a bs (padsSeen pads (hostHears true s.dev))) := by
  have hlen : placeOf s.dev m addr (MemReq.write bs).len = .mem a := hp
  have hg := gives_memoryAccess m addr (.write bs) e pads s h (by simp [hlen])
  simpa only [memoryAccess, placeOf_padsSeen, hlen] using hg

/-! ### ECC (R48) -/

/-- An error that is corrected is counted, and the read goes on. -/
theorem memoryRead_single (mem : Memory) (m : Master) (addr a n : Nat) (d : Dev) (h : hasEcc a = true) :
    memoryRead mem m addr a n .single d = emit (.mem m addr (readBytes mem a n (countEcc 1 d)).1) (readBytes mem a n (countEcc 1 d)).2 := by
  simp [memoryRead, h]

theorem memoryRead_good (mem : Memory) (m : Master) (addr a n : Nat) (d : Dev) :
    memoryRead mem m addr a n .good d = emit (.mem m addr (readBytes mem a n d).1) (readBytes mem a n d).2 := by
  simp [memoryRead]

/-- An error that cannot be corrected ends the read in an access fault, with a record. -/
theorem memoryRead_double (mem : Memory) (m : Master) (addr a n : Nat) (d : Dev) (h : hasEcc a = true) :
    memoryRead mem m addr a n .double d = readFault m addr (trigger 0x03 0x00 [a, m.num] d) := by
  simp [memoryRead, h]

/-- A byte reads the same whatever has been counted. -/
theorem readByte_countEcc (mem : Memory) (a k : Nat) (d : Dev) :
    readByte mem a (countEcc k d) = ((readByte mem a d).1, countEcc k (readByte mem a d).2) := by
  have hc : isCheckerTcm (countEcc k d) a = isCheckerTcm d a := rfl
  unfold readByte
  rw [hc]
  split
  · rfl
  · split <;> rfl

/-- The bytes read are the same whatever has been counted, and the count stays. -/
theorem readBytes_countEcc (mem : Memory) (n a k : Nat) (d : Dev) :
    readBytes mem a n (countEcc k d) = ((readBytes mem a n d).1, countEcc k (readBytes mem a n d).2) := by
  induction n generalizing a d with
  | zero => rfl
  | succ n ih => simp only [readBytes, readByte_countEcc, ih]

@[simp] theorem countEcc_eccCount (k : Nat) (d : Dev) : (countEcc k d).sys.eccCount = d.sys.eccCount + k := rfl

/-! ### Access faults (R48, R128) -/

/-- An access fault is told to its master and changes no register and nothing of the recorder. -/
theorem readFault_frame (m : Master) (addr : Nat) (d : Dev) : (readFault m addr d).out = .accessFault m addr :: d.out ∧
    (readFault m addr d).regs = d.regs ∧ (readFault m addr d).evr = d.evr := by
  cases m <;> exact ⟨rfl, rfl, rfl⟩

/-- The host's access fault is logged as bit 15 of the AER status (log entry 235). -/
theorem readFault_host_aer (addr : Nat) (d : Dev) : (readFault .host addr d).hif.space.aer / 0x8000 % 2 = 1 := by
  have hbit : (d.hif.space.aer ||| 2 ^ 15).testBit 15 = true := by simp only [Nat.testBit_or, Nat.testBit_two_pow_self, Bool.or_true]
  exact of_decide_eq_true (Nat.testBit_eq_decide_div_mod_eq.symm.trans hbit)

/-! ### Closed regions of MRAM (R50) -/

theorem memoryWrite_closed (m : Master) (a : Nat) (bs : List Byte) (d : Dev) (h : closedMram a bs.length = true) :
    memoryWrite m a bs d = accessErr .roRegion m a d := if_pos h

/-- Settles O14: where the access goes is not changed by the look at the pads, the bytes that are read do not depend on the count of
corrected errors, and a write to a closed region is a refused access alone. -/
theorem memoryErrorsAreReported : Obligations.MemoryErrorsAreReported := by
  refine ⟨fun m addr a n pads s hm hp => ?_, fun m addr d => ?_, fun m addr a bs e pads s hm hp hc => ?_, fun m a d => ?_⟩
  · intro d count x y
    have hy : y = (x.1, countEcc 1 x.2) := readBytes_countEcc s.mem n a 1 d
    have hread (e : Ecc) := gives_memoryRead m addr a n e pads s hm hp
    refine ⟨fun he => ?_, ?_, congrArg (·.1) hy, congrArg (·.2.sys.eccCount) hy, fun he => ?_⟩
    · have hs := hread .single
      rwa [memoryRead_single _ _ _ _ _ _ he] at hs
    · have hg := hread .good
      rwa [memoryRead_good] at hg
    · have hd := hread .double
      rwa [memoryRead_double _ _ _ _ _ _ he] at hd
  · obtain ⟨hout, hregs, hevr⟩ := readFault_frame m addr d
    exact ⟨hout, hregs, hevr, fun h => h ▸ readFault_host_aer addr d⟩
  · have hw := gives_memoryWrite m addr a bs e pads s hm hp
    rwa [memoryWrite_closed _ _ _ _ hc] at hw
  · exact ⟨accessErr_memq _ _ _ _, rb_accessErr_flag .roRegion m a d⟩

end Sys2Proof.Machine
end
section
/-! Reading a register: what a read leaves in the latches, in the fields that clear on a read, and in the rest of the device (R14, R16, R35). -/
namespace Sys2Proof.Machine
open Sys2Proof Sys2Proof.Reg

/-! ### What a host access that wakes the device leaves alone (R511) -/

@[simp] theorem sendMsix_clash (v : Nat) (d : Dev) : (sendMsix v d).clash = d.clash := by
  unfold sendMsix; dsimp only; split
  · rfl
  · exact wf_clash _ _ _ _

@[simp] theorem hifEvent_clash (bit : Nat) (d : Dev) : (hifEvent bit d).clash = d.clash := by
  unfold hifEvent; dsimp only; repeat' split
  all_goals simp

@[simp] theorem hifErr_clash (f : Fld) (d : Dev) : (hifErr f d).clash = d.clash := by simp [hifErr]

@[simp] theorem setRingState_clash (r st : Nat) (d : Dev) : (setRingState r st d).clash = d.clash := by
  unfold setRingState; dsimp only; split <;> simp

@[simp] theorem ringSignal_clash (r : Nat) (d : Dev) : (ringSignal r d).clash = d.clash := by simp [ringSignal]

@[simp] theorem ringCount_clash (r : Nat) (now : Bool) (status : Nat) (d : Dev) : (ringCount r now status d).clash = d.clash := by
  unfold ringCount; dsimp only; repeat' split
  all_goals simp

@[simp] theorem flushUnstarted_clash (r : Nat) (d : Dev) : (flushUnstarted r d).clash = d.clash := by simp [flushUnstarted]

@[simp] theorem haltMark_clash (r err tag idx nextIdx : Nat) (d : Dev) : (haltMark r err tag idx nextIdx d).clash = d.clash := by
  simp [haltMark]

@[simp] theorem writeEntry_clash (r : Nat) (d : Dev) : (writeEntry r d).clash = d.clash := by
  unfold writeEntry; dsimp only; repeat' split
  all_goals simp

@[simp] theorem drainCq_clash (n r : Nat) (d : Dev) : (drainCq n r d).clash = d.clash := by
  induction n generalizing d with
  | zero => rfl
  | succ n ih =>
    unfold drainCq; dsimp only; repeat' split
    all_goals simp [ih]

@[simp] theorem haltRing_clash (r err tag idx nextIdx : Nat) (d : Dev) : (haltRing r err tag idx nextIdx d).clash = d.clash := by
  simp [haltRing, ringDrain]

@[simp] theorem doorbell_clash (r : Nat) (cqHead : Bool) (v : Word) (d : Dev) : (doorbell r cqHead v d).clash = d.clash := by
  unfold doorbell; dsimp only; repeat' split
  all_goals simp [ringDrain]

@[simp] theorem breezeExit_clash (cause : Nat) (d : Dev) : (breezeExit cause d).clash = d.clash := by
  refine (forEach_keeps Dev.clash _ _ (fun _ _ _ => doorbell_clash _ _ _ _) _).trans ?_
  simp

/-- Reaching for a register leaves the sets of the access's clock alone. -/
@[simp] theorem touched_clash (m : Master) (off : Nat) (d : Dev) : (touched m off d).clash = d.clash := by
  cases m with
  | host =>
    show (hostTouches off d).clash = d.clash
    unfold hostTouches; repeat' split
    · exact breezeExit_clash _ _
    all_goals rfl
  | core | debug | boot => rfl

@[simp] theorem reached_clash (m : Master) (off : Nat) (acc : Bool) (s : State) : (reached m off acc s).clash = [] := touched_clash _ _ _

@[simp] theorem reachedAt_false (m : Master) (off : Nat) (s : State) : reachedAt false m off s = reached m off true s := rfl

/-! ### Latches (R35) -/

theorem Master.num_lt (m : Master) : m.num < 19 := by
  cases m with
  | core k => exact Nat.lt_trans k.isLt (by decide)
  | host | debug | boot => decide

theorem Master.num_injective {m n : Master} (h : m.num = n.num) : m = n := by
  cases m <;> cases n <;> simp [Master.num] at h ⊢ <;> omega

/-- Each master has its own latch of each register. -/
theorem latchKey_injective {m n : Master} {a b : Nat} (ha : a < 0x80000) (hb : b < 0x80000) (h : latchKey m a = latchKey n b) :
    m = n ∧ a = b := by
  unfold latchKey at h
  exact ⟨Master.num_injective (by omega), by omega⟩

theorem latchKey_offset_injective {m : Master} {a b : Nat} (h : latchKey m a = latchKey m b) : a = b := by
  unfold latchKey at h; omega

/-- One register latched for master m, with what it reads in `d`. -/
def latchOne (m : Master) (d : Dev) (h : Nat) (e : Dev) : Dev := { e with latch := smPut e.latch (latchKey m h) (readValue d h) }

theorem latchRead_of_none {m : Master} {off : Nat} {d : Dev} (h : smGet d.latch (latchKey m off) = none) :
    latchRead m off d = forEach (latchesOf off) (latchOne m d) d := by
  simp only [latchRead, h]; rfl

/-- A register that is no low word latches nothing. -/
theorem latchRead_of_highOf_none {m : Master} {off : Nat} (d : Dev) (h : highOf off = none) : latchRead m off d = d := by
  simp only [latchRead, latchesOf, h]; split <;> rfl

theorem mem_latchesOf {off h : Nat} (hh : highOf off = some h) : h ∈ latchesOf off := by
  simp only [latchesOf, hh]; repeat' split
  all_goals exact List.mem_cons_self

theorem latchAll_other (m : Master) (d : Dev) (xs : List Nat) (e : Dev) {k : Nat} (hk : k ∉ xs.map (latchKey m)) :
    smGet (forEach xs (latchOne m d) e).latch k = smGet e.latch k := by
  refine forEach_keeps (fun e => smGet e.latch k) _ _ (fun x hx e => smGet_smPut_other _ _ ?_) e
  rintro rfl
  exact hk (List.mem_map_of_mem hx)

theorem latchAll_mem (m : Master) (d : Dev) (xs : List Nat) (e : Dev) {h : Nat} (hh : h ∈ xs) :
    smGet (forEach xs (latchOne m d) e).latch (latchKey m h) = some (readValue d h) := by
  induction xs generalizing e with
  | nil => simp at hh
  | cons x t ih =>
    by_cases ht : h ∈ t
    · exact ih _ ht
    · obtain rfl : h = x := (List.mem_cons.1 hh).resolve_right ht
      refine (latchAll_other m d t (latchOne m d h e) fun hk => ?_).trans (smGet_smPut_same _ _ _)
      obtain ⟨y, hy, hyh⟩ := List.mem_map.1 hk
      exact ht (latchKey_offset_injective hyh ▸ hy)

/-! ### Which offsets are high words -/

/-- The bytes that the registers of a header span. -/
def dimsSpan : List (Nat × Nat) → Nat
  | [] => 1
  | (n, s) :: _ => n * s

theorem lt_dimsSpan {dims : List (Nat × Nat)} {x : Nat} (hpos : ∀ p ∈ dims, 0 < p.2) (h : dimsMatch dims x = true) : x < dimsSpan dims := by
  cases dims with
  | nil => simp only [dimsMatch, beq_iff_eq] at h; simp [dimsSpan, h]
  | cons p t =>
    simp only [dimsMatch, Bool.and_eq_true, decide_eq_true_eq] at h
    exact (Nat.div_lt_iff_lt_mul (hpos p List.mem_cons_self)).1 h.1

/-- A high word lies in the span of its row, as far from its beginning as its low word from its own. -/
theorem highOf_row {off h : Nat} (hh : highOf off = some h) :
    ∃ r ∈ pairsAt off, ∃ x, dimsMatch r.2.2 x = true ∧ h = r.2.1 + x := by
  obtain ⟨r, hr, rfl⟩ := Option.map_eq_some_iff.1 hh
  have hp := List.find?_some hr
  simp only [Bool.and_eq_true, decide_eq_true_eq] at hp
  exact ⟨r, List.mem_of_find?_eq_some hr, off - r.1, hp.2, by omega⟩

/-- The rows of two-register quantities keep clear of the captures' block, but for the captures' own. -/
theorem pairsAt_clear_of_captures (off : Nat) : ∀ r ∈ pairsAt off, (∀ p ∈ r.2.2, 0 < p.2) ∧
    (r.2.1 + dimsSpan r.2.2 ≤ 0x8200 ∨ 0x8280 ≤ r.2.1 ∨ r = (0x8208, 0x820C, [(4, 32)])) := by
  unfold pairsAt; repeat' split
  all_goals decide

/-- No high word is a TB_CAPk_STAT, of which a latch holds HEAD_RISE alone. -/
theorem highOf_not_capStat {off h : Nat} (hh : highOf off = some h) : ¬ (0x8200 ≤ h ∧ h < 0x8280 ∧ h % 32 = 4) := by
  obtain ⟨r, hr, x, hx, rfl⟩ := highOf_row hh
  obtain ⟨hpos, hclear⟩ := pairsAt_clear_of_captures off r hr
  have hspan := lt_dimsSpan hpos hx
  rcases hclear with hlow | hhigh | rfl
  · omega
  · omega
  · simp only [dimsMatch, Bool.and_eq_true, beq_iff_eq] at hx
    dsimp only
    omega

theorem readFor_of_none {m : Master} {d : Dev} {off : Nat} (h : smGet d.latch (latchKey m off) = none) :
    readFor m d off = readValue d off := by
  simp only [readFor, h]

/-- A high word reads as it was latched. -/
theorem readFor_latched {m : Master} {d : Dev} {off h : Nat} {w : Word} (hh : highOf off = some h)
    (hw : smGet d.latch (latchKey m h) = some w) : readFor m d h = w := by
  simp only [readFor, hw, if_neg (highOf_not_capStat hh)]

/-! ### What a read does (R14, R35) -/

theorem regRead_eq (m : Master) (off : Nat) (d : Dev) :
    regRead m off d = emit (.read m off (readFor m (touched m off d) off)) (readEffects off (latchRead m off (touched m off d))) := rfl

@[simp] theorem readEffects_latch (off : Nat) (d : Dev) : (readEffects off d).latch = d.latch := by
  unfold readEffects; dsimp only; repeat' split
  all_goals rfl

/-- A read clears RC fields; the captures and the cores' registers do more. -/
theorem readEffects_eq {off : Nat} (d : Dev) (hcap : ¬ (0x8200 ≤ off ∧ off < 0x8280)) (hcore : ¬ (0x31000 ≤ off ∧ off < 0x31800)) :
    readEffects off d = if rcMask off = 0 then d else wr off (rcLeft d off) d := by
  unfold readEffects; dsimp only
  rw [if_neg (by omega), if_neg (by omega)]

theorem rcLeft_of_noClash {d : Dev} (off : Nat) (h : d.clash = []) : rcLeft d off = rd d off &&& ~~~(rcMask off) := by
  simp only [rcLeft, h, smGet_nil]

/-- A read of a register with RC fields that is no low word: its value to the master, its fields cleared. -/
theorem regRead_rc {m : Master} {off : Nat} (d : Dev) (hrc : rcMask off ≠ 0) (hh : highOf off = none)
    (hcap : ¬ (0x8200 ≤ off ∧ off < 0x8280)) (hcore : ¬ (0x31000 ≤ off ∧ off < 0x31800)) :
    regRead m off d = emit (.read m off (readFor m (touched m off d) off)) (wr off (rcLeft (touched m off d) off) (touched m off d)) := by
  rw [regRead_eq, latchRead_of_highOf_none _ hh, readEffects_eq _ hcap hcore, if_neg hrc]

/-- A read of a register without RC fields that is no low word: its value to the master, and nothing else. -/
theorem regRead_plain {m : Master} {off : Nat} (d : Dev) (hrc : rcMask off = 0) (hh : highOf off = none)
    (hcap : ¬ (0x8200 ≤ off ∧ off < 0x8280)) (hcore : ¬ (0x31000 ≤ off ∧ off < 0x31800)) :
    regRead m off d = emit (.read m off (readFor m (touched m off d) off)) (touched m off d) := by
  rw [regRead_eq, latchRead_of_highOf_none _ hh, readEffects_eq _ hcap hcore, if_pos hrc]

theorem gives_lowWordRead {m : Master} (off : Nat) {s : State} (h : masterActs m s.dev = true) :
    Gives (.lowWordRead m off) s (regRead m off (hostHears true s.dev)) :=
  congrArg Host.Outcome.next (runFor_acts m true (fun _ d => regRead m off d) s h)

theorem gives_readClear {m : Master} (same : Bool) (off : Nat) {s : State} (h : masterActs m s.dev = true) :
    Gives (.readClear ⟨m, same⟩ off) s (regRead m off (sameClock same s (hostHears true s.dev))) :=
  congrArg Host.Outcome.next (runFor_acts m true (fun _ d => regRead m off (sameClock same s d)) s h)

theorem gives_sysSyncRead {m : Master} {s : State} (h : masterActs m s.dev = true) :
    Gives (.sysSyncRead m) s (regRead m SYS_SYNC (hostHears true s.dev)) :=
  congrArg Host.Outcome.next (runFor_acts m true (fun _ d => regRead m SYS_SYNC d) s h)

/-! ### The fields of a register row -/

/-- The fields of a row, highest first, share no bit and lie in the word. -/
def fieldsApart (r : RegDesc) : Bool :=
  r.fields.all (fun f => decide (f.lo ≤ f.hi) && decide (f.hi < 32)) && decide (r.fields.Pairwise (fun f g => g.hi < f.lo))

theorem rowsOf_fieldsApart (off : Nat) : (rowsOf off).all fieldsApart = true := by
  unfold rowsOf
  repeat' refine iteInduction (motive := fun l : List RegDesc => l.all fieldsApart = true) (fun _ => ?_) fun _ => ?_
  all_goals decide +kernel

theorem findRow_fieldsApart {off : Nat} {r : RegDesc} (h : findRow off = some r) :
    (∀ f ∈ r.fields, f.lo ≤ f.hi ∧ f.hi < 32) ∧ r.fields.Pairwise (fun f g => g.hi < f.lo) := by
  simpa [fieldsApart] using List.all_eq_true.1 (rowsOf_fieldsApart off) r (List.mem_of_find?_eq_some h)

/-- The word whose fields that `c` picks hold what `n` gives them. -/
def setFields (c : FieldDesc → Bool) (n : FieldDesc → Nat) (fs : List FieldDesc) (w : Word) : Word :=
  fs.foldl (fun w f => if c f then fset w ⟨f.hi, f.lo⟩ (n f) else w) w

theorem setFields_cons (c : FieldDesc → Bool) (n : FieldDesc → Nat) (f : FieldDesc) (fs : List FieldDesc) (w : Word) :
    setFields c n (f :: fs) w = setFields c n fs (if c f then fset w ⟨f.hi, f.lo⟩ (n f) else w) := rfl

/-- A field that shares no bit with the fields set keeps its number. -/
theorem fget_setFields_other (c : FieldDesc → Bool) (n : FieldDesc → Nat) (fs : List FieldDesc) (w : Word) (g : Fld) (hg : g.lo ≤ g.hi)
    (g32 : g.hi < 32) (h : ∀ f ∈ fs, f.lo ≤ f.hi ∧ (g.hi < f.lo ∨ f.hi < g.lo)) : fget (setFields c n fs w) g = fget w g := by
  induction fs generalizing w with
  | nil => rfl
  | cons f t ih =>
    obtain ⟨hf, hd⟩ := h f List.mem_cons_self
    rw [setFields_cons, ih _ fun x hx => h x (List.mem_cons_of_mem _ hx)]
    split
    · exact fget_fset_other _ _ _ _ hf hg g32 hd
    · rfl

/-- A field among those set holds what was given to it, or keeps its number where it was not picked. -/
theorem fget_setFields_mem (c : FieldDesc → Bool) (n : FieldDesc → Nat) (fs : List FieldDesc) (w : Word) (f : FieldDesc) (hf : f ∈ fs)
    (hok : ∀ f ∈ fs, f.lo ≤ f.hi ∧ f.hi < 32) (hd : fs.Pairwise (fun f g => g.hi < f.lo)) :
    fget (setFields c n fs w) ⟨f.hi, f.lo⟩ = if c f then n f % 2 ^ (Fld.mk f.hi f.lo).width else fget w ⟨f.hi, f.lo⟩ := by
  induction fs generalizing w with
  | nil => simp at hf
  | cons x t ih =>
    obtain ⟨hxt, ht⟩ := List.pairwise_cons.1 hd
    obtain ⟨hlo, h32⟩ := hok f hf
    have htok : ∀ g ∈ t, g.lo ≤ g.hi ∧ g.hi < 32 := fun g hg => hok g (List.mem_cons_of_mem _ hg)
    rw [setFields_cons]
    rcases List.mem_cons.1 hf with rfl | hft
    · rw [fget_setFields_other _ _ _ _ _ hlo h32 fun g hg => ⟨(htok g hg).1, .inr (hxt g hg)⟩]
      split
      · exact fget_fset _ _ _ hlo h32
      · rfl
    · have hx : fget (if c x then fset w ⟨x.hi, x.lo⟩ (n x) else w) ⟨f.hi, f.lo⟩ = fget w ⟨f.hi, f.lo⟩ := by
        split
        · exact fget_fset_other _ _ _ _ (hok x List.mem_cons_self).1 hlo h32 (.inl (hxt f hft))
        · rfl
      rw [ih _ hft htok ht, hx]

/-! ### Masks of access codes -/

theorem getLsbD_fmask {hi lo i : Nat} (hl : lo ≤ i) (hh : i ≤ hi) (h32 : i < 32) : (fmask hi lo).getLsbD i = true := by
  have hin : i - lo < hi + 1 - lo := by omega
  simp only [fmask, BitVec.getLsbD_ofNat, Nat.testBit_mul_two_pow, Nat.testBit_two_pow_sub_one, decide_eq_true h32, decide_eq_true hl,
    decide_eq_true hin, Bool.and_self]

/-- The mask of the fields with an access code, on top of `m`. -/
def accMask (a : Acc) (fs : List FieldDesc) (m : Word) : Word := fs.foldl (fun m f => if f.acc = a then m ||| fmask f.hi f.lo else m) m

theorem accMask_cons (a : Acc) (f : FieldDesc) (fs : List FieldDesc) (m : Word) :
    accMask a (f :: fs) m = accMask a fs (if f.acc = a then m ||| fmask f.hi f.lo else m) := rfl

theorem getLsbD_accMask_of_start (a : Acc) (fs : List FieldDesc) (m : Word) {i : Nat} (h : m.getLsbD i = true) :
    (accMask a fs m).getLsbD i = true := by
  induction fs generalizing m with
  | nil => exact h
  | cons f t ih => rw [accMask_cons]; exact ih _ (by split <;> simp [h])

/-- The mask holds every bit of a field with the access code. -/
theorem getLsbD_accMask (a : Acc) (fs : List FieldDesc) (m : Word) {f : FieldDesc} (hf : f ∈ fs) (ha : f.acc = a) {i : Nat}
    (hl : f.lo ≤ i) (hh : i ≤ f.hi) (h32 : i < 32) : (accMask a fs m).getLsbD i = true := by
  induction fs generalizing m with
  | nil => simp at hf
  | cons x t ih =>
    rw [accMask_cons]
    rcases List.mem_cons.1 hf with rfl | hft
    · exact getLsbD_accMask_of_start _ _ _ (by simp [ha, getLsbD_fmask hl hh h32])
    · exact ih _ hft

theorem rcMask_of_row {off : Nat} {r : RegDesc} (h : findRow off = some r) : rcMask off = accMask .rc r.fields 0 := by
  simp only [rcMask, h]; rfl

/-- A field all of whose bits a mask holds is 0 once the mask is cleared. -/
theorem fget_and_not (w m : Word) (f : Fld) (h : ∀ i, f.lo ≤ i → i ≤ f.hi → m.getLsbD i = true) : fget (w &&& ~~~m) f = 0 := by
  apply Nat.eq_of_testBit_eq
  intro i
  rw [testBit_fget, Nat.zero_testBit, Bool.and_eq_false_iff, decide_eq_false_iff_not]
  by_cases hi : i < f.width
  · have hm : m.getLsbD (f.lo + i) = true := h _ (by omega) (by simp only [Fld.width] at hi; omega)
    exact .inr (by rw [BitVec.testBit_toNat]; simp [hm])
  · exact .inl hi

/-! ### RC fields on the clock of a hardware set (R16) -/

/-- What an RC field holds after a read when hardware set bits of it on the same clock. -/
def rcSet (d : Dev) (off : Nat) (was : Word) (f : FieldDesc) : Nat :=
  if (Fld.mk f.hi f.lo).width = 1 then 1 else max 1 (fget (rd d off) ⟨f.hi, f.lo⟩ - fget was ⟨f.hi, f.lo⟩)

/-- What is kept fits a field of one bit. -/
theorem rcSet_mod (d : Dev) (off : Nat) (was : Word) (f : FieldDesc) :
    rcSet d off was f % 2 ^ (Fld.mk f.hi f.lo).width = if (Fld.mk f.hi f.lo).width = 1 then 1
      else max 1 (fget (rd d off) ⟨f.hi, f.lo⟩ - fget was ⟨f.hi, f.lo⟩) % 2 ^ (Fld.mk f.hi f.lo).width := by
  unfold rcSet; split
  · next h => exact Nat.mod_eq_of_lt (Nat.one_lt_two_pow (by omega))
  · rfl

/-- The RC fields of which hardware set bits. -/
def rcClashes (bits : Word) (f : FieldDesc) : Bool := f.acc = .rc && fget bits ⟨f.hi, f.lo⟩ != 0

theorem rcLeft_of_clash {d : Dev} {off : Nat} {r : RegDesc} {was bits : Word} (hr : findRow off = some r)
    (hc : smGet d.clash off = some (was, bits)) :
    rcLeft d off = setFields (rcClashes bits) (rcSet d off was) r.fields (rd d off &&& ~~~(rcMask off)) := by
  simp only [rcLeft, hr, hc]; rfl

/-- A read clears an RC field but for what hardware set of it on its clock. -/
theorem fget_rcLeft {d : Dev} {off : Nat} {r : RegDesc} {f : FieldDesc} {was bits : Word} (hr : findRow off = some r) (hf : f ∈ r.fields)
    (ha : f.acc = .rc) (hc : smGet d.clash off = some (was, bits)) :
    fget (rcLeft d off) ⟨f.hi, f.lo⟩ =
      if fget bits ⟨f.hi, f.lo⟩ = 0 then 0 else rcSet d off was f % 2 ^ (Fld.mk f.hi f.lo).width := by
  obtain ⟨hok, hd⟩ := findRow_fieldsApart hr
  have h32 := (hok f hf).2
  have hclear : fget (rd d off &&& ~~~(rcMask off)) ⟨f.hi, f.lo⟩ = 0 := by
    rw [rcMask_of_row hr]
    exact fget_and_not _ _ _ fun i hl hh => getLsbD_accMask _ _ _ hf ha hl hh (Nat.lt_of_le_of_lt hh h32)
  rw [rcLeft_of_clash hr hc, fget_setFields_mem _ _ _ _ _ hf hok hd, hclear]
  by_cases hb : fget bits ⟨f.hi, f.lo⟩ = 0 <;> simp [rcClashes, ha, hb]

/-- Settles O12: a low word's read latches its companions as they read at that instant, and only for its master; the fields of a row
share no bit, so each RC field is cleared or keeps what hardware set of it by itself. -/
theorem readsReturnAndLatch : Obligations.ReadsReturnAndLatch := by
  refine ⟨fun m off h s hm hh hnone => ?_, fun m off h d hh => ⟨fun w => readFor_latched hh, readFor_of_none⟩,
    fun m n a b ha hb => latchKey_injective ha hb, rfl, fun m off s hm hrc hh hcap hcore => ⟨?_, ?_⟩,
    fun off r f was bits d hr hf ha hc => ?_, fun m s hm => ?_⟩
  · refine ⟨readEffects off (latchRead m off (reached m off true s)), ?_, ?_, fun k hk => ?_⟩
    · rw [← readFor_of_none hnone]
      exact gives_lowWordRead off hm
    · rw [readEffects_latch, latchRead_of_none hnone]
      exact latchAll_mem _ _ _ _ (mem_latchesOf hh)
    · rw [readEffects_latch, latchRead_of_none hnone]
      exact latchAll_other _ _ _ _ hk
  · have hg := gives_readClear false off hm
    rw [regRead_rc _ hrc hh hcap hcore] at hg
    rwa [← rcLeft_of_noClash off (reached_clash m off true s)]
  · have hg := gives_readClear true off hm
    rwa [regRead_rc _ hrc hh hcap hcore] at hg
  · intro fl
    rw [← rcSet_mod]
    exact fget_rcLeft hr hf ha hc
  · have hg := gives_sysSyncRead hm
    rwa [regRead_plain _ (by decide) (by decide) (by decide) (by decide)] at hg

end Sys2Proof.Machine
end
section
/-! The endpoint's events: Function Level Reset, Bus Master Enable, the messages of vectors and events, what rings signal, and the frames
and timeouts of streaming rings (R129..R131, R155..R161). -/
namespace Sys2Proof.Machine
open Sys2Proof Sys2Proof.Reg

/-! ### Events that have their effect in GALE and BREEZE (R506) -/

/-- What such an event makes of a device that is awake. -/
theorem runAwake_acts (acc : Bool) (f : Memory → Dev → Dev) (s : State) (h : awake s.dev = true) :
    s.runAwake acc f = s.after (f s.mem (hostHears acc s.dev)) := by
  have h' : awake (hostHears acc s.dev) = true := h
  simp only [State.runAwake, State.runIf, State.runHost, h', if_true]

theorem gives_flr {s : State} (h : awake s.dev = true) : Gives .flr s (flr (hostHears true s.dev)) :=
  congrArg Host.Outcome.next (runAwake_acts true (fun _ d => flr d) s h)

theorem gives_busMasterEnableChange (x : PciControl) (en mask acc : Bool) {s : State} (h : awake s.dev = true) :
    Gives (.busMasterEnableChange x en mask acc) s (busMaster x.bme en mask
      { (hostHears acc s.dev).hif.space with d3hot := x.d3hot, mps := x.mps.val, mrrs := x.mrrs.val } (hostHears acc s.dev)) :=
  congrArg Host.Outcome.next (runAwake_acts acc (fun _ d => busMaster x.bme en mask
    { d.hif.space with d3hot := x.d3hot, mps := x.mps.val, mrrs := x.mrrs.val } d) s h)

theorem gives_mgmtFrameReceive (bs : List Byte) (acc : Bool) (t : Nat) {s : State} (h : awake s.dev = true) :
    Gives (.mgmtFrameReceive bs acc t) s (streamFrame bs (clockToNs t (hostHears acc s.dev))) :=
  congrArg Host.Outcome.next (runAwake_acts acc (fun _ d => streamFrame bs (clockToNs t d)) s h)

theorem gives_partialBufferFlush (r : Fin 64) (acc : Bool) {s : State} (h : awake s.dev = true) :
    Gives (.partialBufferFlush r acc) s (bufferFlush r.val (hostHears acc s.dev)) :=
  congrArg Host.Outcome.next (runAwake_acts acc (fun _ d => bufferFlush r.val d) s h)

theorem gives_coalescingTimeout (r : Fin 64) {s : State} (h : awake s.dev = true) :
    Gives (.coalescingTimeout r) s (coalesce r.val (hostHears true s.dev)) :=
  congrArg Host.Outcome.next (runAwake_acts true (fun _ d => coalesce r.val d) s h)

/-! ### Messages of vectors and events (R160, R161) -/

/-- When the endpoint may send the message of vector `v` (R130, R160). -/
def vectorSends (v : Nat) (d : Dev) : Prop :=
  d.hif.msixEnable = true ∧ d.hif.msixFnMask = false ∧ rb d (HIF_MSIX_CTRL v) HIF_MSIX_CTRL_MASK = false ∧
    rb d HIF_LINK HIF_LINK_BME = true ∧ rb d HIF_LINK HIF_LINK_UP = true ∧ d.hif.space.d3hot = false

theorem vectorSends_iff (v : Nat) (d : Dev) : vectorSends v d ↔
    (d.hif.msixEnable && !d.hif.msixFnMask && !d.hif.space.d3hot && !(rb d (HIF_MSIX_CTRL v) HIF_MSIX_CTRL_MASK) &&
      rb d HIF_LINK HIF_LINK_BME && rb d HIF_LINK HIF_LINK_UP) = true := by
  simp only [vectorSends, Bool.and_eq_true, Bool.not_eq_true']
  constructor
  · rintro ⟨hen, hfn, hmask, hbme, hup, hd3⟩
    exact ⟨⟨⟨⟨⟨hen, hfn⟩, hd3⟩, hmask⟩, hbme⟩, hup⟩
  · rintro ⟨⟨⟨⟨⟨hen, hfn⟩, hd3⟩, hmask⟩, hbme⟩, hup⟩
    exact ⟨hen, hfn, hmask, hbme, hup, hd3⟩

theorem sendMsix_of_sends {v : Nat} {d : Dev} (hv : v < 256) (h : vectorSends v d) :
    sendMsix v d = emit (.msix v (rd64 d (HIF_MSIX_ADDR_LO v) (HIF_MSIX_ADDR_HI v)) (rd d (HIF_MSIX_DATA v)).toNat) d := by
  simp only [sendMsix, Nat.mod_eq_of_lt hv]
  exact if_pos ((vectorSends_iff v d).1 h)

theorem sendMsix_of_not_sends {v : Nat} {d : Dev} (hv : v < 256) (h : ¬ vectorSends v d) :
    sendMsix v d = wf (HIF_MSIX_PBA (v / 32)) ⟨v % 32, v % 32⟩ 1 d := by
  simp only [sendMsix, Nat.mod_eq_of_lt hv]
  exact if_neg fun hb => h ((vectorSends_iff v d).2 hb)

/-- A message is sent, or its vector's pending bit is set: nothing else. -/
theorem sendMsix_cases (v : Nat) (d : Dev) :
    (∃ o, sendMsix v d = emit o d) ∨ ∃ k f, sendMsix v d = wf (HIF_MSIX_PBA k) f 1 d := by
  unfold sendMsix; dsimp only; split
  · exact .inl ⟨_, rfl⟩
  · exact .inr ⟨_, _, rfl⟩

@[simp] theorem sendMsix_hif (v : Nat) (d : Dev) : (sendMsix v d).hif = d.hif := by
  obtain ⟨o, h⟩ | ⟨k, f, h⟩ := sendMsix_cases v d <;> simp [h]

@[simp] theorem sendMsix_half (v : Nat) (d : Dev) : (sendMsix v d).half = d.half := by
  obtain ⟨o, h⟩ | ⟨k, f, h⟩ := sendMsix_cases v d <;> simp [h]

theorem rd_sendMsix_other (v : Nat) (d : Dev) {j : Nat} (hj : ∀ k, j ≠ HIF_MSIX_PBA k) : rd (sendMsix v d) j = rd d j := by
  obtain ⟨o, h⟩ | ⟨k, f, h⟩ := sendMsix_cases v d
  · rw [h, rd_emit]
  · rw [h, rd_wf_other _ _ _ (hj k)]

theorem hifEvent_of_shown {bit : Nat} {d : Dev} (h : rb d HIF_EVT_STAT ⟨bit, bit⟩ = true) : hifEvent bit d = d := if_pos h

theorem hifEvent_of_new {bit : Nat} {d : Dev} (h : rb d HIF_EVT_STAT ⟨bit, bit⟩ = false) :
    hifEvent bit d = if rb d HIF_EVT_EN ⟨bit, bit⟩ then sendMsix (rf d HIF_EVT_VEC HIF_EVT_VEC_VEC) (wf HIF_EVT_STAT ⟨bit, bit⟩ 1 d)
      else wf HIF_EVT_STAT ⟨bit, bit⟩ 1 d :=
  if_neg (by simp [h])

/-- An event leaves the device alone, is shown, or is shown and signals a vector. -/
theorem hifEvent_cases (bit : Nat) (d : Dev) : hifEvent bit d = d ∨ hifEvent bit d = wf HIF_EVT_STAT ⟨bit, bit⟩ 1 d ∨
    ∃ v, hifEvent bit d = sendMsix v (wf HIF_EVT_STAT ⟨bit, bit⟩ 1 d) := by
  unfold hifEvent; dsimp only; repeat' split
  · exact .inl rfl
  · exact .inr (.inr ⟨_, rfl⟩)
  · exact .inr (.inl rfl)

@[simp] theorem hifEvent_hif (bit : Nat) (d : Dev) : (hifEvent bit d).hif = d.hif := by
  obtain h | h | ⟨v, h⟩ := hifEvent_cases bit d <;> simp [h]

@[simp] theorem hifEvent_half (bit : Nat) (d : Dev) : (hifEvent bit d).half = d.half := by
  obtain h | h | ⟨v, h⟩ := hifEvent_cases bit d <;> simp [h]

/-- An event changes no register but its own and the pending bits. -/
theorem rd_hifEvent_other (bit : Nat) (d : Dev) {j : Nat} (hs : j ≠ HIF_EVT_STAT) (hj : ∀ k, j ≠ HIF_MSIX_PBA k) :
    rd (hifEvent bit d) j = rd d j := by
  obtain h | h | ⟨v, h⟩ := hifEvent_cases bit d
  · rw [h]
  · rw [h, rd_wf_other _ _ _ hs]
  · rw [h, rd_sendMsix_other _ _ hj, rd_wf_other _ _ _ hs]

/-- No register below 0x7000 holds pending bits. -/
theorem ne_msixPba {j : Nat} (h : j < 0x7000) (k : Nat) : j ≠ HIF_MSIX_PBA k := by unfold HIF_MSIX_PBA; omega

@[simp] theorem hifErr_hif (f : Fld) (d : Dev) : (hifErr f d).hif = d.hif := by simp [hifErr]

@[simp] theorem hifErr_half (f : Fld) (d : Dev) : (hifErr f d).half = d.half := by simp [hifErr]

theorem rd_hifErr_other (f : Fld) (d : Dev) {j : Nat} (he : j ≠ HIF_ERR) (hs : j ≠ HIF_EVT_STAT) (hj : ∀ k, j ≠ HIF_MSIX_PBA k) :
    rd (hifErr f d) j = rd d j := by
  rw [hifErr, rd_hifEvent_other _ _ hs hj, rd_wf_other _ _ _ he]

/-- An error of the endpoint sets its flag. -/
theorem rb_hifErr_flag (i : Nat) (d : Dev) (hi : i < 32) : rb (hifErr ⟨i, i⟩ d) HIF_ERR ⟨i, i⟩ = true := by
  have hset : rf (wf HIF_ERR ⟨i, i⟩ 1 d) HIF_ERR ⟨i, i⟩ = 1 := by
    rw [rf_wf_same _ _ _ _ (Nat.le_refl _) hi]
    simp [Fld.width]
  unfold rb hifErr
  rw [rf, rd_hifEvent_other _ _ (by decide) (ne_msixPba (by decide)), ← rf, hset]
  rfl

/-! ### Function Level Reset (R129, R131) -/

/-- The registers of the rings and of the MSI-X table, which FLR resets. -/
def flrResets (off : Nat) : Bool := decide (0x5000 ≤ off ∧ off < 0x7020)

/-- The device that FLR has cleared, before it shows HIF_ERR.FLR. -/
def flrCleared (d : Dev) : Dev :=
  wr HIF_HALTED_LO 0 (wr HIF_HALTED_HI 0 (wf HIF_LINK HIF_LINK_BME 0 { d with
    regs := d.regs.filter (fun e => !flrResets e.1), half := d.half.filter (fun e => !flrResets e.1)
    latch := d.latch.filter (fun e => !flrResets (e.1 % 1048576))
    hif := { d.hif with rings := [], msixEnable := false, msixFnMask := false, space := spaceReset d.hif.space } }))

theorem flr_eq {d : Dev} (h : d.sys.perstLow = false) : flr d = hifErr HIF_ERR_FLR (flrCleared d) := if_neg (by simp [h])

/-- An endpoint held in reset takes no FLR (R65). -/
theorem flr_of_perstLow {d : Dev} (h : d.sys.perstLow = true) : flr d = d := if_pos h

/-- A map lists nothing for a key that a filter drops. -/
theorem smGet_filter_none {α : Type} (m : SMap α) (p : Nat → Bool) {k : Nat} (h : p k = false) :
    smGet (m.filter fun e => p e.1) k = none := by
  induction m with
  | nil => rfl
  | cons x t ih =>
    obtain ⟨k', a⟩ := x
    rw [List.filter_cons]
    split
    · next hp =>
      have hne : k' ≠ k := by rintro rfl; simp [h] at hp
      simpa [smGet, hne] using ih
    · exact ih

@[simp] theorem flrCleared_hif (d : Dev) : (flrCleared d).hif =
    { d.hif with rings := [], msixEnable := false, msixFnMask := false, space := spaceReset d.hif.space } := by simp [flrCleared]

/-- No low word waits for its high word among the registers that FLR resets. -/
theorem smGet_flrCleared_half (d : Dev) {off : Nat} (h : flrResets off = true) : smGet (flrCleared d).half off = none := by
  simpa [flrCleared] using smGet_filter_none d.half (fun k => !flrResets k) (by simp [h])

theorem rd_flrCleared_reset (d : Dev) {off : Nat} (h : flrResets off = true) : rd (flrCleared d) off = resetVal off := by
  have hmine : 0x5000 ≤ off ∧ off < 0x7020 := of_decide_eq_true h
  unfold flrCleared
  rw [rd_wr_other _ _ (by unfold HIF_HALTED_LO; omega), rd_wr_other _ _ (by unfold HIF_HALTED_HI; omega),
    rd_wf_other _ _ _ (by unfold HIF_LINK; omega)]
  simp only [rd, smGet_filter_none d.regs (fun k => !flrResets k) (show (!flrResets off) = false by simp [h])]

theorem rb_flrCleared_bme (d : Dev) : rb (flrCleared d) HIF_LINK HIF_LINK_BME = false := by
  unfold flrCleared
  rw [rb, rf, rd_wr_other _ _ (by decide), rd_wr_other _ _ (by decide), ← rf, rf_wf_same _ _ _ _ (by decide) (by decide)]
  rfl

theorem rd_flrCleared_haltedLo (d : Dev) : rd (flrCleared d) HIF_HALTED_LO = 0 := rd_wr_same _ _ _

theorem rd_flrCleared_haltedHi (d : Dev) : rd (flrCleared d) HIF_HALTED_HI = 0 := by
  unfold flrCleared
  rw [rd_wr_other _ _ (by decide), rd_wr_same]

/-- All registers but HIF_ERR, that of the event and the pending bits read after FLR as it cleared them. -/
theorem rd_flr_other {d : Dev} (h : d.sys.perstLow = false) {j : Nat} (he : j ≠ HIF_ERR) (hs : j ≠ HIF_EVT_STAT)
    (hj : ∀ k, j ≠ HIF_MSIX_PBA k) : rd (flr d) j = rd (flrCleared d) j := by
  rw [flr_eq h, rd_hifErr_other _ _ he hs hj]

/-- What FLR leaves of the endpoint, the rings and the MSI-X table. -/
theorem flr_clears {d : Dev} (h : d.sys.perstLow = false) : (flr d).hif.rings = [] ∧ (flr d).hif.msixEnable = false ∧
    (flr d).hif.msixFnMask = false ∧ rb (flr d) HIF_ERR HIF_ERR_FLR = true ∧ rb (flr d) HIF_LINK HIF_LINK_BME = false ∧
    rd (flr d) HIF_HALTED_LO = 0 ∧ rd (flr d) HIF_HALTED_HI = 0 ∧ (∀ off, 0x5000 ≤ off → off < 0x7020 →
      smGet (flr d).half off = none ∧ ((∀ k, off ≠ HIF_MSIX_PBA k) → rd (flr d) off = resetVal off)) := by
  have hhif : (flr d).hif = (flrCleared d).hif := by rw [flr_eq h, hifErr_hif]
  have hrd {j : Nat} (hj : j < 0x7000) (he : j ≠ HIF_ERR) (hs : j ≠ HIF_EVT_STAT) := rd_flr_other h he hs (ne_msixPba hj)
  rw [hhif, flrCleared_hif]
  refine ⟨rfl, rfl, rfl, ?_, ?_, ?_, ?_, fun off hlo hhi => ⟨?_, fun hpba => ?_⟩⟩
  · rw [flr_eq h]
    exact rb_hifErr_flag 4 _ (by decide)
  · rw [rb, rf, hrd (by decide) (by decide) (by decide)]
    exact rb_flrCleared_bme d
  · rw [hrd (by decide) (by decide) (by decide), rd_flrCleared_haltedLo]
  · rw [hrd (by decide) (by decide) (by decide), rd_flrCleared_haltedHi]
  · rw [flr_eq h, hifErr_half]
    exact smGet_flrCleared_half d (decide_eq_true ⟨hlo, hhi⟩)
  · rw [rd_flr_other h (by unfold HIF_ERR; omega) (by unfold HIF_EVT_STAT; omega) hpba]
    exact rd_flrCleared_reset d (decide_eq_true ⟨hlo, hhi⟩)

/-! ### Bus Master Enable (R65, R130) -/

theorem busMaster_of_perstLow {d : Dev} (bme en mask : Bool) (x : CfgSpace) (h : d.sys.perstLow = true) : busMaster bme en mask x d = d :=
  if_pos h

theorem busMaster_eq {d : Dev} (bme en mask : Bool) (x : CfgSpace) (h : d.sys.perstLow = false) :
    busMaster bme en mask x d = msixPending (if bme then
      resumeRings { d with hif := { d.hif with msixEnable := en, msixFnMask := mask, space := x } }
      else pauseRings { d with hif := { d.hif with msixEnable := en, msixFnMask := mask, space := x } }) :=
  if_neg (by simp [h])

/-- One ring at Bus Master Enable 0. -/
def pauseRing (r : Nat) (d : Dev) : Dev := if ringState d r = ringRunning then setRingState r ringPaused d else d

theorem pauseRings_eq (d : Dev) : pauseRings d = forUpTo 64 pauseRing (wf HIF_LINK HIF_LINK_BME 0 d) := rfl

/-- A ring that enters a state other than HALTED writes its STAT register and clears its bit in HIF_HALTED. -/
theorem rd_setRingState_other {r st : Nat} (d : Dev) {j : Nat} (hst : st ≠ ringHalted) (hj : j ≠ HIF_RING_STAT r)
    (hlo : j ≠ HIF_HALTED_LO) (hhi : j ≠ HIF_HALTED_HI) : rd (setRingState r st d) j = rd d j := by
  have hreg : j ≠ (if r < 32 then HIF_HALTED_LO else HIF_HALTED_HI) := by split <;> assumption
  simp only [setRingState, if_neg hst]
  rw [rd_wf_other _ _ _ hreg, rd_wf_other _ _ _ hj]

theorem ringStat_ne_halted (r : Nat) : HIF_RING_STAT r ≠ HIF_HALTED_LO ∧ HIF_RING_STAT r ≠ HIF_HALTED_HI := by
  unfold HIF_RING_STAT HIF_HALTED_LO HIF_HALTED_HI; omega

/-- A ring is in the state that it entered. -/
theorem ringState_setRingState_same {r st : Nat} (d : Dev) (hst : st ≠ ringHalted) (h8 : st < 8) :
    ringState (setRingState r st d) r = st := by
  have hreg : HIF_RING_STAT r ≠ (if r < 32 then HIF_HALTED_LO else HIF_HALTED_HI) := by
    obtain ⟨hlo, hhi⟩ := ringStat_ne_halted r
    split <;> assumption
  simp only [setRingState, if_neg hst, ringState]
  rw [rf, rd_wf_other _ _ _ hreg, ← rf, rf_wf_same _ _ _ _ (by decide) (by decide)]
  exact Nat.mod_eq_of_lt h8

theorem ringState_setRingState_other {r st x : Nat} (d : Dev) (hst : st ≠ ringHalted) (hx : x ≠ r) :
    ringState (setRingState r st d) x = ringState d x := by
  have hne : HIF_RING_STAT x ≠ HIF_RING_STAT r := by unfold HIF_RING_STAT; omega
  obtain ⟨hlo, hhi⟩ := ringStat_ne_halted x
  rw [ringState, rf, rd_setRingState_other _ hst hne hlo hhi]
  rfl

theorem ringState_pauseRing_same (r : Nat) (d : Dev) :
    ringState (pauseRing r d) r = if ringState d r = ringRunning then ringPaused else ringState d r := by
  unfold pauseRing; split
  · exact ringState_setRingState_same _ (by decide) (by decide)
  · rfl

theorem ringState_pauseRing_other {r x : Nat} (d : Dev) (hx : x ≠ r) : ringState (pauseRing r d) x = ringState d x := by
  unfold pauseRing; split
  · exact ringState_setRingState_other _ (by decide) hx
  · rfl

theorem rd_pauseRing_link (r : Nat) (d : Dev) : rd (pauseRing r d) HIF_LINK = rd d HIF_LINK := by
  unfold pauseRing; split
  · exact rd_setRingState_other _ (by decide) (by unfold HIF_LINK HIF_RING_STAT; omega) (by decide) (by decide)
  · rfl

/-- Once the first `n` rings have been paused, those that were RUNNING are PAUSED, and the rest are as they were. -/
theorem ringState_forUpTo_pauseRing (n x : Nat) (d : Dev) : ringState (forUpTo n pauseRing d) x =
    if x < n ∧ ringState d x = ringRunning then ringPaused else ringState d x := by
  induction n with
  | zero => simp [forUpTo, forEach]
  | succ n ih =>
    have hsucc : forUpTo (n + 1) pauseRing d = pauseRing n (forUpTo n pauseRing d) := by
      simp only [forUpTo, forEach, List.range_succ, List.foldl_append, List.foldl_cons, List.foldl_nil]
    rw [hsucc]
    by_cases hx : x = n
    · subst hx
      rw [ringState_pauseRing_same, ih]
      simp
    · rw [ringState_pauseRing_other _ hx, ih]
      have hlt : x < n + 1 ↔ x < n := by omega
      simp only [hlt]

/-- Setting Bus Master Enable changes the state of no ring. -/
theorem ringState_wf_link (d : Dev) (f : Fld) (n r : Nat) : ringState (wf HIF_LINK f n d) r = ringState d r := by
  rw [ringState, rf, rd_wf_other _ _ _ (by unfold HIF_LINK HIF_RING_STAT; omega)]
  rfl

theorem rb_pauseRings_bme (d : Dev) : rb (pauseRings d) HIF_LINK HIF_LINK_BME = false := by
  have hlink : rd (pauseRings d) HIF_LINK = rd (wf HIF_LINK HIF_LINK_BME 0 d) HIF_LINK :=
    forEach_keeps (fun e => rd e HIF_LINK) pauseRing _ (fun r _ e => rd_pauseRing_link r e) _
  rw [rb, rf, hlink, ← rf, rf_wf_same _ _ _ _ (by decide) (by decide)]
  rfl

theorem rb_wf_link_bme (d : Dev) : rb (wf HIF_LINK HIF_LINK_BME 1 d) HIF_LINK HIF_LINK_BME = true := by
  rw [rb, rf_wf_same _ _ _ _ (by decide) (by decide)]
  rfl

/-- Bus Master Enable 0 pauses every RUNNING ring. -/
theorem ringState_pauseRings (d : Dev) {r : Nat} (hr : r < 64) :
    ringState (pauseRings d) r = if ringState d r = ringRunning then ringPaused else ringState d r := by
  rw [pauseRings_eq, ringState_forUpTo_pauseRing, ringState_wf_link]
  simp [hr]

/-! ### Frames and buffers of streaming rings (R155, R156, R158) -/

theorem streamFrame_of_noRing {bs : List Byte} {d : Dev} (h : streamRing d 3 0 = none) : streamFrame bs d = d := by simp only [streamFrame, h]

/-- A frame for which no buffer is posted is lost. -/
theorem streamFrame_of_noBuffer {bs : List Byte} {d : Dev} {r : Nat} (hr : streamRing d 3 0 = some r) (hb : fillBuffer d r = none) :
    streamFrame bs d = setRing r { getRing d r with gap := true } d := by
  simp only [streamFrame, hr, hb]; rfl

/-- A frame goes into the next posted buffer, cut to its length, and completes it. -/
theorem streamFrame_of_buffer {bs : List Byte} {d : Dev} {r : Nat} {e e1 : FDesc} (hr : streamRing d 3 0 = some r)
    (hb : fillBuffer d r = some e)
    (h1 : (getRing (fillBytes r e (bs.take e.desc.length) d) r).q.find? (fun x => x.stamp == e.stamp) = some e1) :
    streamFrame bs d = completeDesc r e1.stamp (if e.desc.length < bs.length then 0x0A else 0) (BitVec.ofNat 32 e1.fill)
      (b2n false + 2 * b2n e1.gap) (fillBytes r e (bs.take e.desc.length) d) := by
  simp only [streamFrame, hr, hb, h1]; rfl

theorem bufferFlush_of_data {d : Dev} {r : Nat} {e : FDesc} (hb : fillBuffer d r = some e) (hf : e.fill ≠ 0)
    (hus : rf d (HIF_RING_COAL r) HIF_RING_COAL_FLUSH_US ≠ 0) : bufferFlush r d =
      completeBuffer r e 0 true (clockToNs (e.lastNs + rf d (HIF_RING_COAL r) HIF_RING_COAL_FLUSH_US * 1000) d) := by
  simp only [bufferFlush, hb]
  exact if_neg (not_or.2 ⟨hus, hf⟩)

/-- Without a buffer that holds data, or with FLUSH_US 0, nothing is flushed. -/
theorem bufferFlush_of_nothing {d : Dev} {r : Nat} (h : fillBuffer d r = none ∨ (∃ e, fillBuffer d r = some e ∧ e.fill = 0) ∨
    rf d (HIF_RING_COAL r) HIF_RING_COAL_FLUSH_US = 0) : bufferFlush r d = d := by
  unfold bufferFlush; dsimp only; split
  · rfl
  · next e he =>
    refine if_pos ?_
    rcases h with hnone | ⟨e', he', hfill⟩ | hus
    · simp [hnone] at he
    · obtain rfl : e' = e := Option.some.inj (he'.symm.trans he)
      exact .inr hfill
    · exact .inl hus

/-! ### What an entry signals (R159, R166) -/

theorem coalesce_of_unsignalled {d : Dev} {r : Nat} (h : (getRing d r).unsig ≠ 0) :
    coalesce r d = ringSignal r (clockToNs (getRing d r).due d) := if_neg h

theorem coalesce_of_none {d : Dev} {r : Nat} (h : (getRing d r).unsig = 0) : coalesce r d = d := if_pos h

/-- A ring that has signalled counts from 0. -/
theorem ringSignal_unsig (r : Nat) (d : Dev) : (getRing (ringSignal r d) r).unsig = 0 := by
  have hget : getRing (ringSignal r d) r = { getRing d r with unsig := 0, oldest := 0, due := 0 } := by
    unfold ringSignal getRing
    rw [sendMsix_hif]
    exact getRing_setRing _ _ _
  rw [hget]

/-- When an entry signals: its count is reached, its age at once, IRQ_NOW, or a status that is not OK. -/
def entrySignals (r : Nat) (irq : Bool) (st : Nat) (d : Dev) : Prop :=
  max 1 (rf d (HIF_RING_COAL r) HIF_RING_COAL_COUNT) ≤ (getRing d r).unsig + 1 ∨ rf d (HIF_RING_COAL r) HIF_RING_COAL_TIME_US = 0 ∨
    irq = true ∨ st ≠ 0

/-- The device in which an entry has been counted, with the age that the COAL of the entry gives. -/
def entryCounted (r : Nat) (d : Dev) : Dev :=
  setRing r { getRing d r with
    unsig := (getRing d r).unsig + 1
    oldest := if (getRing d r).unsig = 0 then tbNs d else (getRing d r).oldest
    due := (if (getRing d r).unsig = 0 then tbNs d else (getRing d r).oldest) + rf d (HIF_RING_COAL r) HIF_RING_COAL_TIME_US * 1000 } d

theorem entrySignals_iff (r : Nat) (irq : Bool) (st : Nat) (d : Dev) : entrySignals r irq st d ↔
    (decide ((getRing d r).unsig + 1 ≥ (if rf d (HIF_RING_COAL r) HIF_RING_COAL_COUNT = 0 then 1 else rf d (HIF_RING_COAL r) HIF_RING_COAL_COUNT)) ||
      rf d (HIF_RING_COAL r) HIF_RING_COAL_TIME_US == 0 || irq || st != 0) = true := by
  have hcount : max 1 (rf d (HIF_RING_COAL r) HIF_RING_COAL_COUNT) =
      if rf d (HIF_RING_COAL r) HIF_RING_COAL_COUNT = 0 then 1 else rf d (HIF_RING_COAL r) HIF_RING_COAL_COUNT := by split <;> omega
  simp only [entrySignals, hcount, Bool.or_eq_true, decide_eq_true_eq, beq_iff_eq, bne_iff_ne, ge_iff_le, or_assoc]

theorem ringCount_of_signals {r : Nat} {irq : Bool} {st : Nat} {d : Dev} (h : entrySignals r irq st d) :
    ringCount r irq st d = ringSignal r (entryCounted r d) := if_pos ((entrySignals_iff r irq st d).1 h)

theorem ringCount_of_not_signals {r : Nat} {irq : Bool} {st : Nat} {d : Dev} (h : ¬ entrySignals r irq st d) :
    ringCount r irq st d = entryCounted r d := if_neg fun hb => h ((entrySignals_iff r irq st d).2 hb)

/-! ### A vector unmasked (R160) -/

/-- The row of the MSI-X vectors' control registers. -/
def msixCtrlRow : RegDesc := ⟨0x600C, [(0x100, 0x10)], 0x1, [⟨31, 1, .ro⟩, ⟨0, 0, .rw⟩]⟩

theorem findRow_msixCtrl : ∀ n : Fin 256, findRow (HIF_MSIX_CTRL n.val) = some msixCtrlRow := by decide +kernel

/-- A vector's control register is no word of a pair, is not staged, and no block takes it as a whole. -/
theorem msixCtrl_plain : ∀ n : Fin 256, highOf (HIF_MSIX_CTRL n.val) = none ∧ lowOf (HIF_MSIX_CTRL n.val) = none ∧
    isStaged (HIF_MSIX_CTRL n.val) = false ∧ fnAt (HIF_MSIX_CTRL n.val) = none ∧ canWhole (HIF_MSIX_CTRL n.val) = false := by decide +kernel

/-- A write to a vector's control register sets MASK alone. -/
theorem putReg_msixCtrl (n : Fin 256) (v : Word) (d : Dev) : putReg (HIF_MSIX_CTRL n.val) v msixCtrlRow d =
    (if fset (rd d (HIF_MSIX_CTRL n.val)) HIF_MSIX_CTRL_MASK (fget v HIF_MSIX_CTRL_MASK) = rd d (HIF_MSIX_CTRL n.val) then d
      else wr (HIF_MSIX_CTRL n.val) (fset (rd d (HIF_MSIX_CTRL n.val)) HIF_MSIX_CTRL_MASK (fget v HIF_MSIX_CTRL_MASK)) d, false) := by
  obtain ⟨hhi, hlo, hst, -, -⟩ := msixCtrl_plain n
  simp only [putReg, hhi, hlo, hst, Option.isSome_none, Bool.false_and, Bool.false_eq_true, if_false]
  rfl

theorem putReg_msixCtrl_fieldsTaken (n : Fin 256) (v : Word) (d : Dev) :
    putReg (HIF_MSIX_CTRL n.val) v msixCtrlRow d = (fieldsTaken (HIF_MSIX_CTRL n.val) v d, false) := by
  simp only [fieldsTaken, findRow_msixCtrl, putReg_msixCtrl]

/-- A write of 0 leaves the vector unmasked. -/
theorem rb_fieldsTaken_msixCtrl_mask (n : Fin 256) (d : Dev) :
    rb (fieldsTaken (HIF_MSIX_CTRL n.val) 0 d) (HIF_MSIX_CTRL n.val) HIF_MSIX_CTRL_MASK = false := by
  have hrd : rd (fieldsTaken (HIF_MSIX_CTRL n.val) 0 d) (HIF_MSIX_CTRL n.val) =
      fset (rd d (HIF_MSIX_CTRL n.val)) HIF_MSIX_CTRL_MASK (fget 0 HIF_MSIX_CTRL_MASK) := by
    simp only [fieldsTaken, findRow_msixCtrl, putReg_msixCtrl]
    split
    · next h => exact h.symm
    · exact rd_wr_same _ _ _
  rw [rb, rf, hrd, fget_fset _ _ _ (by decide) (by decide)]
  rfl

theorem wholeWrite_msixCtrl (n : Fin 256) (v : Word) (d : Dev) : wholeWrite (HIF_MSIX_CTRL n.val) v msixCtrlRow d = none := by
  obtain ⟨-, -, -, hfn, hcan⟩ := msixCtrl_plain n
  have hoff : HIF_MSIX_CTRL n.val = 0x600C + 0x10 * n.val := rfl
  have hkeeps : ringKeeps d (HIF_MSIX_CTRL n.val) = false := if_neg (by omega)
  simp only [wholeWrite, hfn, hkeeps, hcan, Bool.false_eq_true, if_false, TB_TICK_CFG, TB_ADDEND_LO, TB_ADDEND_HI]
  repeat rw [if_neg (by omega)]

/-- What a write to a vector's control register starts: the pending message of a vector that it leaves unmasked. -/
theorem regEffect_msixCtrl (mem : Memory) (m : Master) (n : Fin 256) (v old : Word) (hadSlave : Bool) (d : Dev) :
    regEffect mem m (HIF_MSIX_CTRL n.val) v old hadSlave d =
      if !rb d (HIF_MSIX_CTRL n.val) HIF_MSIX_CTRL_MASK && rb d (HIF_MSIX_PBA (n.val / 32)) ⟨n.val % 32, n.val % 32⟩ then
        sendMsix n.val (wf (HIF_MSIX_PBA (n.val / 32)) ⟨n.val % 32, n.val % 32⟩ 0 d) else d := by
  have hoff : HIF_MSIX_CTRL n.val = 0x600C + 0x10 * n.val := rfl
  have hvec : (HIF_MSIX_CTRL n.val - 0x6000) / 16 = n.val := by omega
  rw [regEffect, if_neg (by omega), if_pos (by omega), effHif, if_neg (by omega), if_pos (by omega)]
  simp only [hvec]

/-- What unmasking a vector comes to, but for the master's twin. -/
theorem writeRow_msixUnmask (mem : Memory) (m : Master) (n : Fin 256) (d : Dev) :
    writeRow mem m (HIF_MSIX_CTRL n.val) 0 msixCtrlRow d =
      (let d1 := fieldsTaken (HIF_MSIX_CTRL n.val) 0 d
       if rb d1 (HIF_MSIX_PBA (n.val / 32)) ⟨n.val % 32, n.val % 32⟩ then
         sendMsix n.val (wf (HIF_MSIX_PBA (n.val / 32)) ⟨n.val % 32, n.val % 32⟩ 0 d1) else d1, none) := by
  have htb : HIF_MSIX_CTRL n.val ≠ TB_CTRL := by unfold HIF_MSIX_CTRL TB_CTRL; omega
  rw [writeRow_fields mem m _ _ _ _ _ (wholeWrite_msixCtrl n 0 d) (putReg_msixCtrl_fieldsTaken n 0 d) htb, regEffect_msixCtrl,
    rb_fieldsTaken_msixCtrl_mask]
  rfl

theorem gives_msixVectorUnmask {m : Master} (n : Fin 256) {s : State} (h : masterActs m s.dev = true) :
    Gives (.msixVectorUnmask m n) s (regPut s.mem m (HIF_MSIX_CTRL n.val) 0 (hostHears true s.dev)) :=
  congrArg Host.Outcome.next (runFor_acts m true (fun mem d => regPut mem m (HIF_MSIX_CTRL n.val) 0 d) s h)

/-- A vector unmasked while its pending bit is set sends its message. -/
theorem starts_msixVectorUnmask {m : Master} (n : Fin 256) {s : State} (h : Lets m (HIF_MSIX_CTRL n.val) 0 true s) :
    Starts (.msixVectorUnmask m n) m (HIF_MSIX_CTRL n.val) 0 true s (fun d =>
      let p : Fld := ⟨n.val % 32, n.val % 32⟩
      let d1 := fieldsTaken (HIF_MSIX_CTRL n.val) 0 d
      if rb d1 (HIF_MSIX_PBA (n.val / 32)) p then sendMsix n.val (wf (HIF_MSIX_PBA (n.val / 32)) p 0 d1) else d1) := by
  have hoff : HIF_MSIX_CTRL n.val = 0x600C + 0x10 * n.val := rfl
  have hw := writeRow_msixUnmask s.mem m n (touched m (HIF_MSIX_CTRL n.val) (hostHears true s.dev))
  have hg := gives_msixVectorUnmask n h.acts
  rw [regPut_row _ _ _ _ _ _ (by omega) (by omega) (by omega) (by omega) h.free (findRow_msixCtrl n) (by rw [hw]; exact nofun), hw] at hg
  exact hg

/-- Settles O29, clause by clause: FLR clears before it shows its flag, which may leave a pending bit; a loop over the rings pauses
each by itself; a frame, a flush, a timeout and an entry act by the state of their ring; an unmasked vector sends what it held. -/
theorem endpointEventsActOnRingsAndVectors : Obligations.EndpointEventsActOnRingsAndVectors := by
  refine ⟨fun s ha hp => ⟨flr (hostHears true s.dev), gives_flr ha, flr_clears hp⟩,
    fun en mask d3 acc mps mrrs s ha hp => ?_, fun bme en mask d3 acc mps mrrs s ha hp => ⟨?_, ?_⟩,
    fun d => ⟨rb_pauseRings_bme d, rb_wf_link_bme d, fun r hr => ringState_pauseRings d hr⟩,
    fun bs acc t s ha hr => ?_, fun bs acc t r s ha hr hb => ?_, fun bs acc t r e e1 s ha => ?_,
    fun r e acc s ha hb hf hus => ?_, fun r acc s ha h => ?_, fun r s ha h => ?_, fun r s ha h => ?_,
    fun r irq st d => ?_, fun m n s h => starts_msixVectorUnmask n h,
    fun n d => ⟨sendMsix_of_sends n.isLt, sendMsix_of_not_sends n.isLt⟩, fun b d => ⟨hifEvent_of_shown, hifEvent_of_new⟩⟩
  · have hp' : (hostHears acc s.dev).sys.perstLow = false := hp
    have hg (bme : Bool) := gives_busMasterEnableChange ⟨bme, d3, mps, mrrs⟩ en mask acc ha
    simp only [busMaster_eq _ _ _ _ hp'] at hg
    exact ⟨hg false, hg true⟩
  · have hg := gives_flr ha
    rwa [flr_of_perstLow (d := hostHears true s.dev) hp] at hg
  · have hg := gives_busMasterEnableChange ⟨bme, d3, mps, mrrs⟩ en mask acc ha
    rwa [busMaster_of_perstLow (d := hostHears acc s.dev) _ _ _ _ hp] at hg
  · have hg := gives_mgmtFrameReceive bs acc t ha
    rwa [streamFrame_of_noRing hr] at hg
  · have hg := gives_mgmtFrameReceive bs acc t ha
    rwa [streamFrame_of_noBuffer hr hb] at hg
  · intro d d1 hr hb h1
    have hg := gives_mgmtFrameReceive bs acc t ha
    rwa [streamFrame_of_buffer hr hb h1] at hg
  · have hg := gives_partialBufferFlush r acc ha
    rwa [bufferFlush_of_data (d := hostHears acc s.dev) hb hf hus] at hg
  · have hg := gives_partialBufferFlush r acc ha
    rwa [bufferFlush_of_nothing (d := hostHears acc s.dev) h] at hg
  · have hg := gives_coalescingTimeout r ha
    rwa [coalesce_of_unsignalled (d := hostHears true s.dev) h] at hg
  · have hg := gives_coalescingTimeout r ha
    rwa [coalesce_of_none (d := hostHears true s.dev) h] at hg
  · intro g e count us now
    refine ⟨fun h => ?_, fun h => ?_⟩
    · exact (congrArg (fun x => (getRing x r).unsig) (ringCount_of_signals h)).trans (ringSignal_unsig _ _)
    · have he : e = entryCounted r d := ringCount_of_not_signals h
      rw [he]
      refine ⟨rfl, rfl, ?_, ?_⟩ <;> rw [entryCounted, getRing_setRing]

end Sys2Proof.Machine
end

section
/-! The servo (R171..R173): what a step of TB time, the judging of the lock and a measurement change and leave alone. -/
namespace Sys2Proof.Machine
open Sys2Proof Sys2Proof.Reg

/-! ### One-bit fields -/

theorem rb_wf_one (d : Dev) (off : Nat) (f : Fld) (h : f.lo ≤ f.hi) (h32 : f.hi < 32) : rb (wf off f 1 d) off f = true := by
  have hw : 1 < 2 ^ f.width := Nat.one_lt_two_pow (by simp only [Fld.width]; omega)
  rw [rb, rf_wf_same _ _ _ _ h h32, Nat.mod_eq_of_lt hw, beq_self_eq_true]

theorem rb_wf_zero (d : Dev) (off : Nat) (f : Fld) (h : f.lo ≤ f.hi) (h32 : f.hi < 32) : rb (wf off f 0 d) off f = false := by
  rw [rb, rf_wf_same _ _ _ _ h h32, Nat.zero_mod]; rfl

/-- A field set leaves alone what a field that shares no bit with it reads. -/
theorem rb_wf_apart (d : Dev) (off : Nat) (f g : Fld) (n : Nat) (h : f.lo ≤ f.hi) (hg : g.lo ≤ g.hi) (g32 : g.hi < 32)
    (hd : g.hi < f.lo ∨ f.hi < g.lo) : rb (wf off f n d) off g = rb d off g := by
  simp only [rb, rf, rd_wf_same, fget_fset_other _ _ _ _ h hg g32 hd]

/-! ### A trigger and the count of cycles leave TB time alone -/

@[simp] theorem trigger_tb (code src : Nat) (detail : List Nat) (d : Dev) : (trigger code src detail d).tb = d.tb := by
  unfold trigger; dsimp only; split
  · rfl
  · exact bump_tb _ _ _

@[simp] theorem trigger_tbu (code src : Nat) (detail : List Nat) (d : Dev) : (trigger code src detail d).tbu = d.tbu := by
  unfold trigger; dsimp only; split
  · rfl
  · exact bump_tbu _ _ _

/-- Of the registers a trigger changes the count of lost records alone. -/
theorem rd_trigger_other (code src : Nat) (detail : List Nat) (d : Dev) {j : Nat} (h : j ≠ EVR_LOST) :
    rd (trigger code src detail d) j = rd d j := by
  unfold trigger; dsimp only; split
  · rfl
  · exact rd_wf_other _ _ _ h

@[simp] theorem accrue_regs (k : Nat) (d : Dev) : (accrue k d).regs = d.regs := by
  unfold accrue; dsimp only; split <;> rfl

@[simp] theorem accrue_tbu (k : Nat) (d : Dev) : (accrue k d).tbu = d.tbu := by
  unfold accrue; dsimp only; split <;> rfl

@[simp] theorem accrueAll_regs (d : Dev) : (accrueAll d).regs = d.regs := forEach_keeps Dev.regs _ _ (fun k _ => accrue_regs k) d

@[simp] theorem accrueAll_tbu (d : Dev) : (accrueAll d).tbu = d.tbu := forEach_keeps Dev.tbu _ _ (fun k _ => accrue_tbu k) d

/-! ### A step of TB time (R170) -/

@[simp] theorem stepTime_tb (t : Nat) (d : Dev) : (stepTime t d).tb = t % 2 ^ 96 := by
  rw [stepTime, wf_tb, trigger_tb, landAt]

@[simp] theorem stepTime_tbu (t : Nat) (d : Dev) : (stepTime t d).tbu = d.tbu := by
  simp only [stepTime, wf_tbu, trigger_tbu, landAt, accrueAll_tbu]

theorem rd_stepTime_other (t : Nat) (d : Dev) {j : Nat} (hs : j ≠ TB_STAT) (hl : j ≠ EVR_LOST) : rd (stepTime t d) j = rd d j := by
  simp only [stepTime, rd_wf_other _ _ _ hs, rd_trigger_other _ _ _ _ hl]
  simp only [rd, landAt, accrueAll_regs]

theorem rb_stepTime_stepped (t : Nat) (d : Dev) : rb (stepTime t d) TB_STAT TB_STAT_STEPPED = true :=
  rb_wf_one _ _ _ (by decide) (by decide)

/-! ### The judging of the lock (R173) -/

/-- LOCK_NS in 2^-16 ns. -/
def lockLimit (d : Dev) : Nat := rf d TB_SERVO_CFG TB_SERVO_CFG_LOCK_NS * 65536

/-- The good measurements in a row, after one of |o|. -/
def goodAfter (o : Nat) (d : Dev) : Nat := if o ≤ lockLimit d then satNat 8 (d.tbu.good + 1) else 0

def goodCounted (o : Nat) (d : Dev) : Dev := { d with tbu := { d.tbu with good := goodAfter o d } }

theorem lockJudge_eq (o : Nat) (d : Dev) : lockJudge o d =
    if 4 * lockLimit d < o then lockClear (goodCounted o d)
    else if goodAfter o d = 8 then wf TB_STAT TB_STAT_LOCKED 1 (goodCounted o d) else goodCounted o d := rfl

/-- Beyond the count of good measurements the judging writes LOCKED and LOCK_LOST alone. -/
theorem lockJudge_keeps {β : Type} (g : Dev → β) (o : Nat) (d : Dev) (hlocked : ∀ n e, g (wf TB_STAT TB_STAT_LOCKED n e) = g e)
    (hlost : ∀ n e, g (wf TB_STAT TB_STAT_LOCK_LOST n e) = g e) : g (lockJudge o d) = g (goodCounted o d) := by
  rw [lockJudge_eq, lockClear]
  repeat' split
  · rw [hlost, hlocked]
  · rfl
  · exact hlocked _ _
  · rfl

@[simp] theorem lockJudge_tb (o : Nat) (d : Dev) : (lockJudge o d).tb = d.tb :=
  lockJudge_keeps Dev.tb o d (wf_tb _ _) (wf_tb _ _)

@[simp] theorem lockJudge_tbu (o : Nat) (d : Dev) : (lockJudge o d).tbu = { d.tbu with good := goodAfter o d } :=
  lockJudge_keeps Dev.tbu o d (wf_tbu _ _) (wf_tbu _ _)

theorem rd_lockJudge_other (o : Nat) (d : Dev) {j : Nat} (h : j ≠ TB_STAT) : rd (lockJudge o d) j = rd d j :=
  lockJudge_keeps (rd · j) o d (fun _ _ => rd_wf_other _ _ _ h) (fun _ _ => rd_wf_other _ _ _ h)

theorem rb_lockJudge_stepped (o : Nat) (d : Dev) : rb (lockJudge o d) TB_STAT TB_STAT_STEPPED = rb d TB_STAT TB_STAT_STEPPED :=
  lockJudge_keeps (rb · TB_STAT TB_STAT_STEPPED) o d
    (fun _ _ => rb_wf_apart _ _ _ _ _ (by decide) (by decide) (by decide) (by decide))
    (fun _ _ => rb_wf_apart _ _ _ _ _ (by decide) (by decide) (by decide) (by decide))

theorem rb_lockClear_locked (d : Dev) : rb (lockClear d) TB_STAT TB_STAT_LOCKED = false := by
  rw [lockClear]
  split
  · rw [rb_wf_apart _ _ _ _ _ (by decide) (by decide) (by decide) (by decide)]
    exact rb_wf_zero _ _ _ (by decide) (by decide)
  · next h => exact Bool.eq_false_iff.2 h

/-- A measurement beyond four times LOCK_NS ends the lock. -/
theorem rb_lockJudge_locked_of_far {o : Nat} {d : Dev} (h : 4 * lockLimit d < o) : rb (lockJudge o d) TB_STAT TB_STAT_LOCKED = false := by
  rw [lockJudge_eq, if_pos h]
  exact rb_lockClear_locked _

theorem goodAfter_of_near {o : Nat} {d : Dev} (h : o ≤ lockLimit d) : goodAfter o d = satNat 8 (d.tbu.good + 1) := if_pos h

theorem goodAfter_of_far {o : Nat} {d : Dev} (h : lockLimit d < o) : goodAfter o d = 0 := if_neg (Nat.not_le.2 h)

/-- The eighth good measurement in a row, and each after it, sets the lock. -/
theorem rb_lockJudge_locked_of_eighth {o : Nat} {d : Dev} (h : o ≤ lockLimit d) (h7 : 7 ≤ d.tbu.good) :
    rb (lockJudge o d) TB_STAT TB_STAT_LOCKED = true := by
  have hgood : goodAfter o d = 8 := by rw [goodAfter_of_near h, satNat]; split <;> omega
  rw [lockJudge_eq, if_neg (by omega), if_pos hgood]
  exact rb_wf_one _ _ _ (by decide) (by decide)

/-! ### A measurement (R171, R172) -/

/-- When a measurement steps TB time (R172). -/
def AutoSteps (o : Int) (d : Dev) : Prop :=
  rb d TB_CTRL TB_CTRL_AUTO_STEP = true ∧ 655360000 < o.natAbs ∧ tbOwnerArmed d = false

/-- MAX_PPM in units of TB_SERVO_CORR, and I and C after a measurement that steps nothing (R171). -/
def servoLimit (d : Dev) : Int := (maxPpm d * 17179869184 / 1000000 : Nat)
def servoINext (o : Int) (d : Dev) : Int :=
  clampInt (-servoLimit d) (servoLimit d) (d.tbu.servoI - o / (2 ^ rf d TB_SERVO_CFG TB_SERVO_CFG_KI_SHIFT : Nat))
def servoCNext (o : Int) (d : Dev) : Int :=
  clampInt (-servoLimit d) (servoLimit d) (servoINext o d - o / (2 ^ rf d TB_SERVO_CFG TB_SERVO_CFG_KP_SHIFT : Nat))

/-- The measurement shown: HOLDOVER is over and TB_SERVO_OFFSET holds it in whole ns. -/
def measureShown (o : Int) (d : Dev) : Dev :=
  wr TB_SERVO_OFFSET (BitVec.ofInt 32 (satI32 (o / 65536))) (wf TB_STAT TB_STAT_HOLDOVER 0 { d with net := { d.net with lastMeas := tbNs d } })

/-- I and C of the servo put, C into TB_SERVO_CORR too. -/
def servoPut (i c : Int) (d : Dev) : Dev :=
  wr TB_SERVO_CORR (BitVec.ofInt 32 c) { d with tbu := { d.tbu with servoI := i, servoC := c } }

@[simp] theorem measureShown_tb (o : Int) (d : Dev) : (measureShown o d).tb = d.tb := by rw [measureShown, wr_tb, wf_tb]

@[simp] theorem measureShown_tbu (o : Int) (d : Dev) : (measureShown o d).tbu = d.tbu := by rw [measureShown, wr_tbu, wf_tbu]

theorem rd_measureShown_offset (o : Int) (d : Dev) : rd (measureShown o d) TB_SERVO_OFFSET = BitVec.ofInt 32 (satI32 (o / 65536)) :=
  rd_wr_same _ _ _

theorem rd_measureShown_other (o : Int) (d : Dev) {j : Nat} (ho : j ≠ TB_SERVO_OFFSET) (hs : j ≠ TB_STAT) :
    rd (measureShown o d) j = rd d j :=
  (rd_wr_other _ _ ho).trans (rd_wf_other _ _ _ hs)

@[simp] theorem servoPut_tb (i c : Int) (d : Dev) : (servoPut i c d).tb = d.tb := rfl

@[simp] theorem servoPut_tbu (i c : Int) (d : Dev) : (servoPut i c d).tbu = { d.tbu with servoI := i, servoC := c } := rfl

theorem rd_servoPut_corr (i c : Int) (d : Dev) : rd (servoPut i c d) TB_SERVO_CORR = BitVec.ofInt 32 c := rd_wr_same _ _ _

theorem rd_servoPut_other (i c : Int) (d : Dev) {j : Nat} (h : j ≠ TB_SERVO_CORR) : rd (servoPut i c d) j = rd d j := rd_wr_other _ _ h

/-- A measurement to the nearest whole ns. -/
def wholeNs (o : Int) : Int := (o + 32768) / 65536

theorem servoMeasure_of_autoSteps {o : Int} {d : Dev} (h : AutoSteps o d) : servoMeasure o d =
    lockJudge o.natAbs (stepTime ((d.tb : Int) - wholeNs o * nsUnits).toNat (servoPut 0 0 (measureShown o d))) := by
  obtain ⟨hauto, hbig, hfree⟩ := h
  rw [servoMeasure, if_pos (by simp only [hauto, hbig, hfree, decide_true, Bool.not_false, Bool.and_self])]
  rfl

theorem servoMeasure_of_not_autoSteps {o : Int} {d : Dev} (h : ¬ AutoSteps o d) : servoMeasure o d =
    lockJudge o.natAbs (servoPut (servoINext o d) (servoCNext o d) (measureShown o d)) := by
  refine if_neg fun hc => h ?_
  simpa only [AutoSteps, Bool.and_eq_true, decide_eq_true_eq, Bool.not_eq_true', and_assoc] using hc

/-- A measurement is shown and kept or stepped; then the lock is judged, by the settings and the count from before it. -/
theorem servoMeasure_judges (o : Int) (d : Dev) : ∃ e, servoMeasure o d = lockJudge o.natAbs e ∧
    rd e TB_SERVO_OFFSET = BitVec.ofInt 32 (satI32 (o / 65536)) ∧ lockLimit e = lockLimit d ∧ e.tbu.good = d.tbu.good := by
  have hoff (i c : Int) : rd (servoPut i c (measureShown o d)) TB_SERVO_OFFSET = BitVec.ofInt 32 (satI32 (o / 65536)) :=
    (rd_servoPut_other _ _ _ (by decide)).trans (rd_measureShown_offset o d)
  have hcfg (i c : Int) : rd (servoPut i c (measureShown o d)) TB_SERVO_CFG = rd d TB_SERVO_CFG :=
    (rd_servoPut_other _ _ _ (by decide)).trans (rd_measureShown_other o d (by decide) (by decide))
  have hgood (i c : Int) : (servoPut i c (measureShown o d)).tbu.good = d.tbu.good := by
    rw [servoPut_tbu, measureShown_tbu]
  by_cases h : AutoSteps o d
  · refine ⟨_, servoMeasure_of_autoSteps h, ?_, ?_, ?_⟩
    · rw [rd_stepTime_other _ _ (by decide) (by decide), hoff]
    · rw [lockLimit, rf, rd_stepTime_other _ _ (by decide) (by decide), hcfg]; rfl
    · rw [stepTime_tbu, hgood]
  · exact ⟨_, servoMeasure_of_not_autoSteps h, hoff _ _, by rw [lockLimit, rf, hcfg]; rfl, hgood _ _⟩

theorem servoMeasure_offset (o : Int) (d : Dev) : rd (servoMeasure o d) TB_SERVO_OFFSET = BitVec.ofInt 32 (satI32 (o / 65536)) := by
  obtain ⟨e, he, hoff, -, -⟩ := servoMeasure_judges o d
  rw [he, rd_lockJudge_other _ _ (by decide), hoff]

/-- A measurement that steps nothing moves I and C by their formulas, and TB time goes on. -/
theorem servoMeasure_corrects {o : Int} {d : Dev} (h : ¬ AutoSteps o d) :
    (servoMeasure o d).tbu.servoI = servoINext o d ∧ (servoMeasure o d).tbu.servoC = servoCNext o d ∧
      rd (servoMeasure o d) TB_SERVO_CORR = BitVec.ofInt 32 (servoCNext o d) ∧ (servoMeasure o d).tb = d.tb := by
  rw [servoMeasure_of_not_autoSteps h, lockJudge_tbu, lockJudge_tb, rd_lockJudge_other _ _ (by decide), servoPut_tbu, servoPut_tb,
    measureShown_tb]
  exact ⟨rfl, rfl, rd_servoPut_corr _ _ _, rfl⟩

/-- A measurement that steps sets I and C to 0 and removes its whole ns from TB time, modulo 2^96. -/
theorem servoMeasure_steps {o : Int} {d : Dev} (h : AutoSteps o d) :
    (servoMeasure o d).tbu.servoI = 0 ∧ (servoMeasure o d).tbu.servoC = 0 ∧ rd (servoMeasure o d) TB_SERVO_CORR = 0 ∧
      rb (servoMeasure o d) TB_STAT TB_STAT_STEPPED = true ∧
      (servoMeasure o d).tb = ((d.tb : Int) - wholeNs o * nsUnits).toNat % 2 ^ 96 := by
  rw [servoMeasure_of_autoSteps h, lockJudge_tbu, stepTime_tbu, servoPut_tbu, lockJudge_tb, stepTime_tb, rb_lockJudge_stepped,
    rd_lockJudge_other _ _ (by decide), rd_stepTime_other _ _ (by decide) (by decide)]
  exact ⟨rfl, rfl, rd_servoPut_corr _ _ _, rb_stepTime_stepped _ _, rfl⟩

theorem wholeNs_nearest (o : Int) : (2 * (wholeNs o * 65536 - o)).natAbs ≤ 65536 := by
  unfold wholeNs; omega

/-- A measurement counts as good within LOCK_NS and is judged by its size and the good ones before it (R173). -/
theorem servoMeasure_locks (o : Int) (d : Dev) : (servoMeasure o d).tbu.good = goodAfter o.natAbs d ∧
    (4 * lockLimit d < o.natAbs → rb (servoMeasure o d) TB_STAT TB_STAT_LOCKED = false) ∧
    (o.natAbs ≤ lockLimit d → 7 ≤ d.tbu.good → rb (servoMeasure o d) TB_STAT TB_STAT_LOCKED = true) := by
  obtain ⟨e, he, -, hlim, hgood⟩ := servoMeasure_judges o d
  rw [he, ← hlim, ← hgood]
  refine ⟨?_, rb_lockJudge_locked_of_far, rb_lockJudge_locked_of_eighth⟩
  rw [lockJudge_tbu, goodAfter, goodAfter, hlim, hgood]

/-- Settles O36: a measurement is shown, then corrects or steps; whichever it does leaves the settings and the count by which the lock
is judged as they were. -/
theorem theServoFollowsItsMeasurements : Obligations.TheServoFollowsItsMeasurements := by
  intro o d
  obtain ⟨hgood, hfar, heighth⟩ := servoMeasure_locks o d
  refine ⟨servoMeasure_offset o d, servoMeasure_corrects, fun h => ?_, fun h => hgood.trans (goodAfter_of_far h),
    fun h => hgood.trans (goodAfter_of_near h), hfar, heighth⟩
  obtain ⟨hi, hc, hcorr, hstepped, htb⟩ := servoMeasure_steps h
  refine ⟨hi, hc, hcorr, hstepped, wholeNs o, wholeNs_nearest o, fun hpos => ?_⟩
  rw [htb, Int.natCast_emod, Int.toNat_of_nonneg hpos]
  rfl

end Sys2Proof.Machine
end
